-- ==== Sys2Proof/Word.lean ====
section
/-!
DEFINITION. The byte of the three ports and the six counts of a coin box.
-/

namespace Sys2Proof

/-- A byte of a frame or of a record (spec 12, R182). -/
abbrev Byte := BitVec 8

/-- A plate: its characters in ASCII, 2 to 8 of them when it is a good one (R78, R182). -/
abbrev Plate := List Byte

/-- Six numbers by position of the denomination list, the first for the lowest denomination: coin counts,
or the denomination values themselves (spec 00 section 4, R94). -/
structure Six where
  n1 : Nat
  n2 : Nat
  n3 : Nat
  n4 : Nat
  n5 : Nat
  n6 : Nat
  deriving DecidableEq, Repr

namespace Six

/-- Six zeros. -/
def zero : Six := ⟨0, 0, 0, 0, 0, 0⟩

/-- The sum position by position. -/
def add (a b : Six) : Six :=
  ⟨a.n1 + b.n1, a.n2 + b.n2, a.n3 + b.n3, a.n4 + b.n4, a.n5 + b.n5, a.n6 + b.n6⟩

/-- The total of the six numbers. -/
def total (a : Six) : Nat := a.n1 + a.n2 + a.n3 + a.n4 + a.n5 + a.n6

/-- The VALUE of six counts under a denomination list: the sum of count times value (R94). -/
def value (counts denominations : Six) : Nat :=
  counts.n1 * denominations.n1 + counts.n2 * denominations.n2 + counts.n3 * denominations.n3
    + counts.n4 * denominations.n4 + counts.n5 * denominations.n5 + counts.n6 * denominations.n6

/-- The six numbers in order of position. -/
def toList (a : Six) : List Nat := [a.n1, a.n2, a.n3, a.n4, a.n5, a.n6]

/-- Every one of the six is at most `bound`. -/
def allLe (bound : Nat) (a : Six) : Bool := a.toList.all (· ≤ bound)

end Six

end Sys2Proof
end

