-- ==== Sys2Proof/Config.lean ====
section
/-!
DEFINITION. What the part fixes (capacities, limits, delays, each with its rule) and the free values: the points the spec leaves
open, as constants without a body (log entry 13).
-/

namespace Sys2Proof.Config

/-- Terminal slots are numbered 1 to 24 (spec 00 section 4). -/
def terminalSlots : Nat := 24

/-- Bay groups are numbered 1 to 12 (spec 00 section 4). -/
def bayGroups : Nat := 12

/-- Plan slots are numbered 1 to 8 (R17). -/
def planSlots : Nat := 8

/-- A day profile has 1 to 12 bands (R17, R22). -/
def maxBands : Nat := 12

/-- The greatest zone time (R1). -/
def maxZoneTime : Nat := 4294967295

/-- The last whole minute of zone time (R39). -/
def lastMinute : Nat := 4294967280

/-- The seconds of a day. -/
def daySeconds : Nat := 86400

/-- The bounds of the zone time of a CLOCK_SET (R5). -/
def minSetTime : Nat := 86400
def maxSetTime : Nat := 4294000000

/-- The greatest local day number of a holiday or a permit date (R8, R78). -/
def maxLocalDay : Nat := 49710

/-- The holiday list holds at most 32 entries (R8). -/
def maxHolidays : Nat := 32

/-- The limit of a BY_DURATION walk, and of every charged cost (R39, R53). -/
def maxPence : Nat := 65535

/-- Seconds of uptime for which an open quote is valid (R54). -/
def quoteValidity : Nat := 120

/-- The live ticket table holds at most 2048 entries (R71). -/
def maxLiveTickets : Nat := 2048

/-- The greatest ticket number (R69). -/
def maxTicket : Nat := 999999

/-- The register holds at most 4096 permits (R77). -/
def maxPermits : Nat := 4096

/-- The greatest permit number (R78). -/
def maxPermitNumber : Nat := 16777215

/-- At most 64 collection records, in use and reserved together (R101, R108). -/
def maxCollections : Nat := 64

/-- Seconds of zone time after which a round closes on its own (R101, R106). -/
def roundSeconds : Nat := 28800

/-- The journal holds at most 1024 records (R155). -/
def journalCapacity : Nat := 1024

/-- Sales are halted while the unreserved free space is at most this (R158). -/
def salesReserve : Nat := 32

/-- JOURNAL_HIGH holds from this many used entries on (R158). -/
def journalHigh : Nat := 896

/-- Sequence numbers run from 1 to this and then from 1 again (R155). -/
def maxSequence : Nat := 4294967295

/-- How far behind the next sequence number an acknowledgement may stand (R160). -/
def ackWindow : Nat := 2147483648

/-- The greatest body of an office frame and of a service frame (R161, R169). -/
def officeBodyMax : Nat := 1024
def serviceBodyMax : Nat := 256

/-- BUSY answers that can wait behind a response (R162, R170). -/
def maxBusy : Nat := 4

/-- The roster holds at most 64 entries (R171). -/
def maxRoster : Nat := 64

/-- Bytes beyond which an answer is a jabber (R145). -/
def jabberBytes : Nat := 96

/-- Seconds of uptime of the link-lost delay and of the jabber bar (R139, R145). -/
def linkLostDelay : Nat := 60
def barSeconds : Nat := 60

/-- A FREE segment must have this many seconds left for a terminal to be sent to sleep (R146). -/
def sleepSeconds : Nat := 1800

/-- Bounds of the silence watch (R127, R128). -/
def silenceCounterMax : Nat := 86400
def silenceEstimateMax : Nat := 14400
def silenceLimitMin : Nat := 1800

/-- Consecutive answers without CRITICAL that end POWER_CRITICAL (R122). -/
def clearRunMax : Nat := 10

/-- FREE VALUE (log entry 13): how many more segments the walk in flight has found when the `i`-th HOLIDAYS_PUT falls into
a walk. R41 gives the effect for every value and says nothing of which it is. -/
opaque walkFindings : Nat → Nat

/-- FREE VALUE (log entry 13): how many bytes wider than its range needs the part sends this field of the response of this kind, where no
table of chapter 12 gives the width. -/
opaque answerExtra : Nat → Nat → Nat

/-- The bytes of a response's field, by the kind of its request and the field's number: at least what its range needs, and at most five
more, so that thirteen of the longest records fit a JOURNAL_READ response (section 12.4; log entry 13). -/
def answerWidth (kind field least : Nat) : Nat := least + answerExtra kind field % 6

/-- FREE VALUE (log entry 13): the byte that says a state or a reason to which chapter 12 gives no code, by the group of names and the
name's place in it. -/
opaque answerCode : Nat → Nat → Nat

/-- FREE VALUE (log entry 13): the bytes that say that this field of the response of this kind is absent. -/
opaque answerAbsent : Nat → Nat → List Byte

/-- FREE VALUE (log entry 42): the bytes that stand in place of a response's fields where these are longer than its port's body, of which
as many are sent as the body has room for. -/
opaque overlongFields : List Byte → List Byte

/-- The bytes of a JOURNAL_READ response body that are not records: the result code, the number of records, the used entries, the
reservation, the unreserved free space and the next sequence number (R159; log entry 13). -/
def journalReadOverhead : Nat :=
  1 + answerWidth 0x16 1 1 + answerWidth 0x16 2 2 + answerWidth 0x16 3 1 + answerWidth 0x16 4 2 + answerWidth 0x16 5 4

end Sys2Proof.Config
end

