-- ==== Sys2Proof/Syntax.lean ====
section
/-!
DEFINITION. The commands of the part: one constructor of `Instr` for each row of spec/opcode_table.json (JABBER has two), with the
operands that chapter 12 (R182 to R185) gives it. Coded fields stand as the code on the wire, because R184 hands a
value without a meaning to the owning block, which refuses it by its own checks.
-/

namespace Sys2Proof

/-- The port a request that both ports take came from, with its tag and, for a handheld, its identity (R175). -/
inductive Source where
  | office (tag : Nat)
  | handheld (identity tag : Nat)
  deriving DecidableEq, Repr

/-- A twelve-byte band entry of PROFILE_PUT (section 12.3): start minute, kind code, L, P, ΔP, Pmax, M. -/
structure BandEntry where
  start : Nat
  kind : Nat
  step : Nat
  price : Nat
  increment : Nat
  cap : Nat
  stay : Nat
  deriving DecidableEq, Repr

/-- The two forms of an OFFER: the short legacy form, or the full form with its capability byte and highest level (R140). -/
inductive OfferForm where
  | legacy
  | full (caps : Byte) (level : Nat)
  deriving DecidableEq, Repr

/-- What every ANSWER carries beside a request: the slot it names, its three-byte status word (byte 1 in bits 23 to 16), and the
sleep indication, true for ASLEEP (R136, section 12.2). -/
structure AnswerHead where
  slot : Nat
  status : BitVec 24
  asleep : Bool
  deriving DecidableEq, Repr

/-- The levels of the strap pins at a latching (R179). -/
structure Straps where
  zone : Nat
  rate : Bool
  svc : Bool
  deriving DecidableEq, Repr

/-- A command of the part. -/
inductive Instr where
  -- the Calendar
  | clockSet (src : Source) (time : Nat) (offset : Int)
  | clockGet (tag : Nat)
  | holidaysPut (tag : Nat) (days : List Nat)
  -- the Plan Store
  | planBegin (tag plan : Nat)
  | profilePut (tag plan profile : Nat) (bands : List BandEntry)
  | planClose (tag plan resident visitor business : Nat)
  | planClear (tag plan : Nat)
  | planAssign (tag plan : Nat) (switch : Option Nat) (slots : List Nat)
  -- the Quote and Sale Unit's setting
  | gracePut (tag grace : Nat)
  -- the Permit Register
  | permitPut (tag number kind firstDay lastDay allowance standing : Nat) (zones : List Nat) (plate : Plate)
  | permitRevoke (tag number : Nat)
  | permitGet (tag number : Nat)
  -- the terminal table and the Cash Unit
  | terminalPut (tag slot identity group capacity threshold : Nat)
  | terminalRemove (tag slot : Nat)
  | terminalAudit (tag slot : Nat)
  | denominationsPut (tag : Nat) (values : Six)
  | tolerancePut (tag tolerance : Nat)
  | countResult (tag number : Nat) (counted : Six)
  -- the Fault Monitor
  | faultList (tag slot : Nat)
  | faultAck (src : Source) (slot fault : Nat)
  | groupStatus (tag : Nat)
  -- the Journal and the Office Port
  | journalRead (tag count : Nat)
  | journalAck (tag sequence : Nat)
  | status (tag : Nat)
  | attentionMask (tag mask : Nat)
  | rosterPut (tag identity role key : Nat)
  | rosterRemove (tag identity : Nat)
  | restart (tag : Nat)
  | officeBadRequest (kind tag : Nat)
  | officeBusy (kind tag : Nat)
  | officeFrameDiscard
  | officeByteTimeout
  | officeResponseSent
  -- the Service Link
  | ticketCheck (identity tag ticket : Nat) (plate : Plate)
  | permitCheck (identity tag number group : Nat) (plate : Plate)
  | groupCheck (identity tag group : Nat)
  | roundStart (identity tag : Nat)
  | roundList (identity tag : Nat)
  | roundEnd (identity tag : Nat)
  | terminalStatus (identity tag slot : Nat)
  | lineRestart (identity tag slot : Nat)
  | serviceBadRequest (identity : Option Nat) (kind tag : Nat)
  | serviceBusy (identity : Option Nat) (kind tag : Nat)
  | serviceFrameDiscard
  | serviceByteTimeout
  | serviceResponseSent
  -- the kerb line
  | cycleStart
  | answer (head : AnswerHead)
  | quote (head : AnswerHead) (kind amount permit : Nat) (plate : Plate)
  | confirm (head : AnswerHead) (quoteId : Nat) (coins : Six) (card : Nat)
  | cancel (head : AnswerHead)
  | accept (head : AnswerHead) (level : Nat)
  | wakeReq (head : AnswerHead)
  | miss
  | jabber
  /-- JABBER again, of a line held driven after the answer window (R145; log entry 34). -/
  | jabberLate
  | offer (identity : Nat) (form : OfferForm)
  | replyWindowEnd
  | linkLostDeadline (slot : Nat)
  | barExpiry (slot : Nat)
  -- quotes and the silence watch
  | walkCompletion
  | quoteExpiry (slot : Nat)
  | silent (slot : Nat)
  -- time
  | secondTick
  | zoneTimeWrap
  | minuteRoll
  | dayRoll
  | segmentBoundary (slot : Nat)
  | switchTimeArrival (slot : Nat)
  | roundAutoClose
  -- supply
  | powerFailEntry (cellBelow duringStart : Bool)
  | cellBelowRetention
  | powerUp (straps : Straps)
  | resetPin (straps : Straps) (duringStart : Bool)
  -- receivers and the quiet line
  | officeFrameStart
  | serviceFrameStart
  | lineFallsQuiet
  deriving DecidableEq, Repr

end Sys2Proof
end

