-- ==== Sys2Proof/Decode.lean ====
section
/-!
DEFINITION. No row of spec/opcode_table.json gives bits ("fields": [], no "fixed"), so no word spells a command. The byte
formats in which requests, answers and offers do travel (R182 to R185) are in Sys2Proof/Machine/Frames.lean.
-/

namespace Sys2Proof

/-- The command that the `nbits` bits of `w` spell by the table's bits: none, since the table gives no row any bits. -/
def decodeTableWord (_nbits _w : Nat) : Option Instr := none

end Sys2Proof
end

