-- ==== Sys2Proof/Machine/State.lean ====
section
/-!
DEFINITION. The state of the part as plain data, block by block (spec 00 section 2), the reasons a step could stop, the
state after reset, and one named update per block.
-/

namespace Sys2Proof.Machine

open Sys2Proof

/-- A table: entries by key, kept in strictly ascending key order by Machine/Table.lean's operations, so that equal tables are
equal data. -/
abbrev Table (α : Type) := List (Nat × α)

/-! ### Names the blocks share -/

/-- The part has no fault that stops it: trouble at a terminal is a fault state (chapter 7), a bad frame is discarded or is a
miss, and a request that cannot be taken is refused in its response (spec 00 section 4). No step raises a `Fault`. -/
inductive Fault where
  deriving DecidableEq, Repr

/-- Why a command has no meaning. -/
inductive Refusal where
  /-- Raised by the dispatcher alone, for a command that has no meaning yet. Safe: the machine stops. -/
  | notModelled (mnemonic : String)
  deriving DecidableEq, Repr

/-- The kinds of permit (R78). -/
inductive PermitKind where
  | resident | visitor | business
  deriving DecidableEq, Repr

/-- The roles of a handheld (R171). -/
inductive Role where
  | officer | collector | engineer
  deriving DecidableEq, Repr

/-- The profiles of a plan (R17). -/
inductive Profile where
  | monday | tuesday | wednesday | thursday | friday | saturday | sunday | holiday
  deriving DecidableEq, Repr

/-- Result and outcome codes, in order of code (R185). -/
inductive Code where
  | ok | already | badRequest | busy | notAuthorised | wrongRole
  | badTime | badOffset | badList | clockHeld | noClock
  | badPlanSlot | planInUse | notBuilding | badProfile | badBandCount | badBand | profilesMissing | badDiscount | planNotReady
  | badSlotSet | slotEmpty | badSwitchTime
  | badGrace | badPermit | registerFull | notFound | badGroup
  | badDenominations | denominationsInUse | badTolerance | journalFull | badSlot | tallyOutstanding | inRound
  | quoteInProgress | nothingDue | roundOpen | noSpace | noRound | notYours
  | badFault | badCount | badSequence | badTerminal | duplicateIdentity | slotInUse | belowTally | badMask | badRoster
  | rosterFull
  | clamped | sold | salesHalted | outOfService | badQuote | notAtLevel | noPlan | noTender | permitUnknown | permitNotValid
  | permitNotInZone | permitPlate | permitBusy | noSale | belowMinimum | permitChanged | quoteExpired | quoteUnknown
  | quotePending | tenderMismatch | tenderRefused | permitRevoked
  | added | replaced | immediate | pending | queued | done | configured | updated | unknown | valid | inGrace | plateMismatch
  | suspended | notYet | expired | notInZone
  deriving DecidableEq, Repr

/-! ### Plans (chapter 2) -/

/-- The kind of a band, with the price and stay fields of a CHARGED one: L, P, ΔP, Pmax, M (R18). -/
inductive BandKind where
  | charged (step price increment cap stay : Nat)
  | free
  | noStay
  deriving DecidableEq, Repr

/-- A band of a stored profile (R18). -/
structure Band where
  start : Nat
  kind : BandKind
  deriving DecidableEq, Repr

/-- The three permit discounts of a READY plan, in percent (R19). -/
structure Discounts where
  resident : Nat
  visitor : Nat
  business : Nat
  deriving DecidableEq, Repr

/-- A plan slot that is not EMPTY; an EMPTY one has no entry (R17). Profiles are kept by profile number, 1 MONDAY to 8 HOLIDAY. -/
inductive PlanSlot where
  | building (profiles : Table (List Band))
  | ready (profiles : Table (List Band)) (discounts : Discounts)
  deriving DecidableEq, Repr

/-- The plan fields of a terminal: the current plan slot, and the pending plan slot with its switch time (R26). -/
structure PlanFields where
  current : Option Nat
  pending : Option (Nat × Nat)
  deriving DecidableEq, Repr

/-! ### Segments (chapter 1) -/

/-- The kind of a segment other than NONE (R12). -/
inductive SegKind where
  | charged | free | noStay
  deriving DecidableEq, Repr

/-- A segment record whose kind is not NONE (R12). -/
structure Segment where
  kind : SegKind
  plan : Nat
  profile : Profile
  band : Nat
  day : Nat
  ends : Nat
  deriving DecidableEq, Repr

/-! ### Quotes (chapters 3 and 4) -/

/-- What a quote asks for: money's worth A, or D minutes (R34). -/
inductive Ask where
  | byAmount (amount : Nat)
  | byDuration (minutes : Nat)
  deriving DecidableEq, Repr

/-- An entry of the walk queue (R34). -/
structure QueueEntry where
  slot : Nat
  quoteId : Nat
  start : Nat
  ask : Ask
  permit : Option (Nat × PermitKind)
  plate : Option Plate
  deriving DecidableEq, Repr

/-- The walk in flight: its entry, what it took at its beginning (R37) and its discard mark (R36). `reading` is the holiday list it
reads now, `past` the lists it read before, oldest first, each with the number of segments found under it (R41). -/
structure Walk where
  entry : QueueEntry
  current : Option Nat
  pending : Option (Nat × Nat)
  offset : Int
  a0 : Nat
  discard : Bool
  reading : List Nat
  past : List (Nat × List Nat)
  deriving DecidableEq, Repr

/-- An open quote (R54). `permit` is the permit number with the allowance used. -/
structure OpenQuote where
  quoteId : Nat
  ask : Ask
  start : Nat
  expiry : Nat
  cost : Nat
  minutes : Nat
  unspent : Option Nat
  clamped : Bool
  permit : Option (Nat × Nat)
  plate : Option Plate
  firstPlan : Nat
  lastPlan : Nat
  completedAt : Nat
  validUntil : Nat
  deriving DecidableEq, Repr

/-- A quote slot (R54). -/
inductive QuoteSlot where
  | none
  | queued (quoteId : Nat)
  | walking (quoteId : Nat)
  | opened (quote : OpenQuote)
  deriving DecidableEq, Repr

/-- The four states of a quote slot (R54). -/
inductive QuoteState where
  | none | queued | walking | opened
  deriving DecidableEq, Repr

/-- The state that a quote slot is in (R54). -/
def QuoteSlot.state : QuoteSlot → QuoteState
  | .none => .none
  | .queued _ => .queued
  | .walking _ => .walking
  | .opened _ => .opened

/-- A closed quote record (R55). -/
inductive ClosedQuote where
  | sold (quoteId ticket start expiry cost unspent : Nat)
  | expired (quoteId : Nat)
  deriving DecidableEq, Repr

/-- An entry of the live ticket table (R71). -/
structure LiveTicket where
  ticket : Nat
  slot : Nat
  group : Nat
  start : Nat
  expiry : Nat
  permit : Option Nat
  plate : Option Plate
  deriving DecidableEq, Repr

/-! ### Permits (chapter 5) -/

/-- A hold on a permit's allowance (R87). -/
structure Hold where
  owner : Nat
  quoteId : Nat
  minutes : Nat
  deriving DecidableEq, Repr

/-- A permit record; its number is its key in the register (R78). The zone set is kept in ascending order. -/
structure Permit where
  kind : PermitKind
  zones : List Nat
  plate : Option Plate
  firstDay : Nat
  lastDay : Nat
  allowance : Nat
  suspended : Bool
  consumed : Nat
  hold : Option Hold
  deriving DecidableEq, Repr

/-! ### Cash (chapter 6) -/

/-- The cash fields of a terminal (R96). -/
structure CashFields where
  tally : Six
  accepted : Six
  collected : Six
  cardTotal : Nat
  lastCut : Nat
  deriving DecidableEq, Repr

/-- Why a box is on the round list (R98). -/
inductive DueReason where
  | full | jam | due
  deriving DecidableEq, Repr

/-- The state of a round entry (R100). -/
inductive EntryState where
  | pending | visited | missed
  deriving DecidableEq, Repr

/-- An entry of a round (R100). -/
structure RoundEntry where
  slot : Nat
  fill : Nat
  reason : DueReason
  state : EntryState
  deriving DecidableEq, Repr

/-- The open round (R100). -/
structure Round where
  number : Nat
  collector : Nat
  key : Nat
  start : Nat
  entries : List RoundEntry
  deriving DecidableEq, Repr

/-- A collection record (R104, R108). -/
structure Collection where
  number : Nat
  slot : Nat
  key : Nat
  periodStart : Nat
  periodEnd : Nat
  expected : Six
  value : Nat
  deriving DecidableEq, Repr

/-- The outcome of a reconciliation (R110). -/
inductive Balance where
  | balanced | short | over
  deriving DecidableEq, Repr

/-! ### Faults, service state and cover (chapter 7) -/

/-- The thirteen kinds of fault, in order of number (R115). -/
inductive FaultKind where
  | linkLost | jabber | powerLow | powerCritical | paperLow | paperOut | coinJam | cardFault | boxFull | doorForced
  | doorUnscheduled | silent | cashShort
  deriving DecidableEq, Repr

/-- The four states of a fault (R116). -/
inductive FaultState where
  | clear | active | held | latched
  deriving DecidableEq, Repr

/-- A fault's state and the zone time of its last change (R115). -/
structure FaultRecord where
  state : FaultState
  changed : Nat
  deriving DecidableEq, Repr

/-- The thirteen fault records of a terminal (R115). -/
structure FaultTable where
  linkLost : FaultRecord
  jabber : FaultRecord
  powerLow : FaultRecord
  powerCritical : FaultRecord
  paperLow : FaultRecord
  paperOut : FaultRecord
  coinJam : FaultRecord
  cardFault : FaultRecord
  boxFull : FaultRecord
  doorForced : FaultRecord
  doorUnscheduled : FaultRecord
  silent : FaultRecord
  cashShort : FaultRecord
  deriving DecidableEq, Repr

/-- The power classes of a status word (R122). -/
inductive PowerClass where
  | ok | low | critical
  deriving DecidableEq, Repr

/-- The four yes-or-no reports of a status word (section 7.4). -/
structure Reports where
  paperLow : Bool
  paperOut : Bool
  coinJam : Bool
  cardFault : Bool
  deriving DecidableEq, Repr

/-- The key a door was opened with (section 7.4). -/
inductive DoorKey where
  | none
  | collector (number : Nat)
  | engineer
  deriving DecidableEq, Repr

/-- The held door state; a CLOSED door has key NONE (R123). -/
inductive Door where
  | closed
  | opened (key : DoorKey)
  deriving DecidableEq, Repr

/-- A terminal's service state (R125). -/
inductive ServiceState where
  | inService | cashOnly | cardOnly | outOfService
  deriving DecidableEq, Repr

/-- What the Fault Monitor holds for a terminal (R115, R121 to R123, R125, R127, R128). -/
structure Watch where
  faults : FaultTable
  filtered : Reports
  lastReports : Option Reports
  power : PowerClass
  lastPower : Option PowerClass
  clearRun : Nat
  door : Door
  service : ServiceState
  silence : Nat
  estimate : Option Nat
  deriving DecidableEq, Repr

/-- The cover of a bay group (R129). -/
inductive Cover where
  | freeTime | covered | uncovered
  deriving DecidableEq, Repr

/-- A group record: cover, the zone time it began, and the pending-record mark (R129, R131). -/
structure GroupRecord where
  cover : Cover
  since : Nat
  mark : Bool
  deriving DecidableEq, Repr

/-! ### The kerb line (chapter 8) -/

/-- The link state of a configured slot; a slot that is EMPTY has no terminal record (R138). -/
inductive LinkState where
  | absent | granted | active | sleeping | lost | barred
  deriving DecidableEq, Repr

/-- A capability set (R142). -/
structure Caps where
  coins : Bool
  card : Bool
  permitEntry : Bool
  plateEntry : Bool
  keyWake : Bool
  deriving DecidableEq, Repr

/-- The figures of a QUOTE_RESULT notice; figures its outcome does not use are 0 (section 12.2, R182). -/
structure QuoteFigures where
  quoteId : Nat
  code : Code
  start : Nat := 0
  expiry : Nat := 0
  cost : Nat := 0
  unspent : Nat := 0
  minutes : Nat := 0
  allowance : Nat := 0
  validity : Nat := 0
  firstStep : Nat := 0
  deriving DecidableEq, Repr

/-- The figures of a SALE_RESULT notice; figures its outcome does not use are 0 (section 12.2, R182). -/
structure SaleFigures where
  quoteId : Nat
  code : Code
  ticket : Nat := 0
  start : Nat := 0
  expiry : Nat := 0
  cost : Nat := 0
  unspent : Nat := 0
  deriving DecidableEq, Repr

/-- What a notice says (R150). -/
inductive NoticeBody where
  | quoteResult (figures : QuoteFigures)
  | saleResult (figures : SaleFigures)
  | service (state : ServiceState)
  | time (zoneTime : Nat) (offset : Int) (clockSet : Bool)
  | sleep
  | wake
  | reset
  deriving DecidableEq, Repr

/-- A notice in a queue. `rode` is set while it rides on a CALL that awaits its answer; a notice that takes another's place has
not ridden (R151). -/
structure Notice where
  body : NoticeBody
  rode : Bool
  deriving DecidableEq, Repr

/-- The link fields of a configured slot (R137 to R139, R144, R145, R150). -/
structure Link where
  state : LinkState
  level : Option Nat
  caps : Option Caps
  misses : Nat
  barExpiry : Option Nat
  lostDeadline : Option Nat
  queue : List Notice
  timeOwed : Bool
  deriving DecidableEq, Repr

/-- The configuration fields of a slot (R163). -/
structure TerminalConfig where
  identity : Nat
  group : Nat
  capacity : Nat
  threshold : Nat
  deriving DecidableEq, Repr

/-- The record of a configured slot: each block's fields for it (R164). `segment` is absent where the kind is NONE (R12). -/
structure Terminal where
  config : TerminalConfig
  link : Link
  plans : PlanFields
  segment : Option Segment
  quote : QuoteSlot
  nextQuoteId : Nat
  closed : Option ClosedQuote
  cash : CashFields
  watch : Watch
  deriving DecidableEq, Repr

/-- The kind of a CALL (R134). -/
inductive CallKind where
  | normal | slow
  deriving DecidableEq, Repr

/-- A frame the part sends on the kerb line (R134). -/
inductive KerbFrame where
  | call (slot : Nat) (kind : CallKind) (notice : Option NoticeBody)
  | seek (cycle : Nat)
  | grant (identity slot level zoneTime : Nat) (offset : Int) (clockSet : Bool)
  deriving DecidableEq, Repr

/-- An OFFER that has earned a GRANT, to be sent after the fourth window (R141). -/
structure EarnedOffer where
  identity : Nat
  slot : Nat
  form : OfferForm
  deriving DecidableEq, Repr

/-- What the line is doing (R134, R135, R140, R145): an answer window after a CALL, with the link state the slot was called in and
the notice that rode; waiting for quiet after a jabber; one of four reply windows; idle until the next cycle; stopped in
backup. -/
inductive LineMode where
  | window (slot : Nat) (kind : CallKind) (calledAs : LinkState) (rode : Option NoticeBody)
  | quiet (slot : Nat) (kind : CallKind)
  | reply (number : Nat) (taken : Bool) (offered : List Nat) (earned : List EarnedOffer)
  | idle
  | stopped
  deriving DecidableEq, Repr

/-! ### The journal (chapter 9) -/

/-- A SALE record's body (R70). -/
structure SaleBody where
  slot : Nat
  ticket : Nat
  byDuration : Bool
  start : Nat
  expiry : Nat
  cost : Nat
  coins : Six
  card : Nat
  unspent : Nat
  permit : Option Nat
  allowance : Nat
  firstPlan : Nat
  lastPlan : Nat
  plate : Option Plate
  deriving DecidableEq, Repr

/-- The body of a journal record (R156). -/
inductive RecordBody where
  | sale (body : SaleBody)
  | collection (body : Collection)
  /-- The six counted counts alone, as step 4 of R110, R156 and the layout of section 12.4 list them; the last prose of R110 speaks of
  both sets of counts (DESIGN CHOICE, log entry 37). -/
  | reconciled (number : Nat) (counted : Six) (expected countedValue : Nat) (discrepancy : Int) (outcome : Balance)
  | roundClosed (number collector start finish : Nat) (entries : List (Nat × EntryState))
  | coverChange (group : Nat) (cover : Cover) (since : Nat)
  deriving DecidableEq, Repr

/-- A journal record (R155). -/
structure Record where
  sequence : Nat
  zoneTime : Nat
  unset : Bool
  zone : Nat
  body : RecordBody
  deriving DecidableEq, Repr

/-! ### Attention and the ports (chapters 9 and 10) -/

/-- The ten attention flags, in the order of R165: the flags themselves, or the mask that enables them. -/
structure Flags where
  salesHalted : Bool
  journalHigh : Bool
  counts : Bool
  clock : Bool
  fault : Bool
  cover : Bool
  round : Bool
  planSwitched : Bool
  unknownTerminal : Bool
  restarted : Bool
  deriving DecidableEq, Repr

/-- An entry of the roster; its identity is its key. The key number is present for a COLLECTOR alone (R171). -/
structure RosterEntry where
  role : Role
  key : Option Nat
  deriving DecidableEq, Repr

/-- The journal figures that several responses carry (R159, R160, R166). -/
structure JournalFigures where
  used : Nat
  reserved : Nat
  free : Nat
  deriving DecidableEq, Repr

/-- One entry of a ROUND_LIST answer: the entry with the terminal's present link state, service state and tally total (R99), and the
value of the tally beside it (R94). -/
structure ListedBox where
  entry : RoundEntry
  link : LinkState
  service : ServiceState
  tallyTotal : Nat
  tallyValue : Nat
  deriving DecidableEq, Repr

/-- What GROUP_STATUS answers for one group (R132). -/
structure GroupView where
  record : GroupRecord
  members : List Nat
  chargedMembers : Nat
  servingMembers : Nat
  deriving DecidableEq, Repr

/-- What TERMINAL_AUDIT answers for a configured slot (R112). -/
structure AuditView where
  config : TerminalConfig
  link : LinkState
  level : Option Nat
  caps : Option Caps
  service : ServiceState
  plans : PlanFields
  quote : QuoteState
  cash : CashFields
  tallyValue : Nat
  fill : Nat
  boxFull : Bool
  roundEntry : Option (DueReason × EntryState)
  collections : Nat
  deriving DecidableEq, Repr

/-- The impacts in force on a terminal (R118). -/
structure Impacts where
  total : Bool
  cash : Bool
  card : Bool
  deriving DecidableEq, Repr

/-- What FAULT_LIST and TERMINAL_STATUS answer for a configured slot (R120): for each of the thirteen kinds its record and whether its
condition is present, and the rest of the watch. -/
structure FaultView where
  faults : List (FaultRecord × Bool)
  service : ServiceState
  impacts : Impacts
  power : PowerClass
  clearRun : Nat
  filtered : Reports
  door : Door
  silence : Nat
  estimate : Option Nat
  limit : Nat
  deriving DecidableEq, Repr

/-- What TICKET_CHECK answers of an entry beside its word: slot, group, start, expiry, and the permit number where present (R75). -/
structure TicketView where
  slot : Nat
  group : Nat
  start : Nat
  expiry : Nat
  permit : Option Nat
  deriving DecidableEq, Repr

/-- What PERMIT_CHECK answers of a record beside its word: kind, first and last valid days, zone set, and the plate where present
(R92). -/
structure PermitView where
  kind : PermitKind
  firstDay : Nat
  lastDay : Nat
  zones : List Nat
  plate : Option Plate
  deriving DecidableEq, Repr

/-- The fields of a response after its result code, in the order in which the owning rule lists them. -/
inductive Body where
  | empty
  /-- A refusal that names a band, an entry, a position, a slot, a profile or a permit kind, or a field by its order. -/
  | number (n : Nat)
  /-- BAD_BAND: the band and the field's order (R23). -/
  | bandField (band field : Nat)
  /-- PROFILES_MISSING: the first missing profile and how many are missing (R24). -/
  | missing (first count : Nat)
  /-- An answer word after OK (R185), with the count some of them carry. -/
  | word (answer : Code)
  | wordCount (answer : Code) (count : Nat)
  | role (role : Role)
  | clockWas (before after day : Nat) (rolled : Bool)
  | clock (zoneTime : Nat) (offset : Int) (clockSet : Bool) (uptime day weekday : Nat) (lastRolled : Option Nat)
  | profileCount (count : Nat)
  | revoked (hold : Option (Nat × Nat))
  | permit (number : Nat) (record : Permit) (remaining day : Nat) (clockSet : Bool)
  | removed (accepted collected : Six) (cardTotal : Nat)
  | tally (tally : Six)
  | slotIsEmpty
  | audit (view : AuditView)
  | inUse (tallies records : Nat)
  | reconciled (outcome : Balance) (expected counted : Nat) (discrepancy : Int)
  | faults (view : FaultView)
  | terminalStatus (view : FaultView) (link : LinkState)
  | faultState (state : FaultState)
  | groups (views : List GroupView)
  | group (cover : Cover) (since members : Nat) (clockSet : Bool)
  | records (records : List Record) (figures : JournalFigures) (next : Nat)
  | acked (removed : Nat) (figures : JournalFigures)
  | ackRefused (figures : JournalFigures)
  | attention (flags mask : Flags) (lastUnknown : Option Nat) (figures : JournalFigures) (head : Option Nat) (next overruns : Nat)
  | mask (mask : Flags)
  | rosterRemoved (role : Role) (left : Nat)
  | ticket (answer : Code) (entry : Option TicketView) (clockSet : Bool)
  | permitStanding (answer : Code) (record : Option PermitView) (clockSet : Bool)
  | roundBusy (number collector : Nat)
  | space (due freeRecords freeJournal : Nat)
  | roundOpened (number : Nat) (entries : List RoundEntry)
  | roundNow (number collector key start closes : Nat) (boxes : List ListedBox)
  | roundPreview (boxes : List ListedBox) (count : Nat) (fits : Bool)
  | roundEnded (number : Nat) (entries : List (Nat × EntryState))
  deriving DecidableEq, Repr

/-- A response: its result code and the fields after it (R162, R170). -/
structure Response where
  code : Code
  body : Body
  deriving DecidableEq, Repr

/-- The office request in progress: the kind and tag its response echoes, and the response (R162, R185). -/
structure OfficeReply where
  kind : Nat
  tag : Nat
  response : Response
  deriving DecidableEq, Repr

/-- The service request in progress: the identity, kind and tag its response echoes, and the response (R170). -/
structure ServiceReply where
  identity : Nat
  kind : Nat
  tag : Nat
  response : Response
  deriving DecidableEq, Repr

/-! ### The twelve blocks -/

/-- The Calendar's zone-wide state (R1 to R4, R8, R10, R11). `deadline` is the one registered zone-time deadline there can be. -/
structure Calendar where
  zoneTime : Nat
  uptime : Nat
  offset : Int
  clockSet : Bool
  holidays : List Nat
  lastRolled : Option Nat
  deadline : Option Nat
  deriving DecidableEq, Repr

/-- The Tariff Engine: the walk queue and the walk in flight (R34 to R38). -/
structure Engine where
  queue : List QueueEntry
  walk : Option Walk
  deriving DecidableEq, Repr

/-- The Quote and Sale Unit's zone-wide state (R69, R71, R74). -/
structure Sales where
  nextTicket : Nat
  grace : Nat
  live : List LiveTicket
  deriving DecidableEq, Repr

/-- The Cash Unit's zone-wide state (R94, R100, R108, R109). -/
structure Cash where
  denominations : Six
  tolerance : Nat
  collections : List Collection
  nextCollection : Nat
  round : Option Round
  nextRound : Nat
  deriving DecidableEq, Repr

/-- The Line Controller's state for the line as a whole (R135, R141). `out` holds the frames that the last line step sent (the
model's own record of its output; log entry 20). `ended` is the slot called, and the kind of its CALL, where the last line step
ended its answer window: a line held driven after that window bars this slot (R145; log entry 34). -/
structure Line where
  cycle : Nat
  lastUnknown : Option Nat
  mode : LineMode
  out : List KerbFrame
  ended : Option (Nat × CallKind)
  deriving DecidableEq, Repr

/-- The Journal (R155, R157). -/
structure Journal where
  records : List Record
  reservation : Nat
  nextSequence : Nat
  deriving DecidableEq, Repr

/-- The Office Port (R161, R162): receiver reading or hunting, request in progress, BUSY answers waiting (kind and tag), overruns. -/
structure OfficePort where
  reading : Bool
  current : Option OfficeReply
  busy : List (Nat × Nat)
  overruns : Nat
  deriving DecidableEq, Repr

/-- The attention flags and their mask (R165). -/
structure Attention where
  flags : Flags
  mask : Flags
  deriving DecidableEq, Repr

/-- The Service Link's receiver and requests (R169, R170); BUSY answers keep the identity, kind and tag they echo. -/
structure ServicePort where
  reading : Bool
  current : Option ServiceReply
  busy : List (Nat × Nat × Nat)
  deriving DecidableEq, Repr

/-- The part state (R177). -/
inductive PartState where
  | running | backup
  deriving DecidableEq, Repr

/-- The main-supply state (R177). -/
inductive MainSupply where
  | above | below
  deriving DecidableEq, Repr

/-- The backup-cell state (R178). -/
inductive CellState where
  | carrying | standby
  deriving DecidableEq, Repr

/-- The Supply and Retention Monitor (R177 to R179). `startAbandoned` is the model's own: a power-fail entry fell into a start
(log entry 17). -/
structure Supply where
  part : PartState
  main : MainSupply
  cell : CellState
  latch : Bool
  straps : Straps
  startAbandoned : Bool
  deriving DecidableEq, Repr

/-- The state of the part. -/
structure State where
  calendar : Calendar
  plans : Table PlanSlot
  engine : Engine
  terminals : Table Terminal
  sales : Sales
  permits : Table Permit
  cash : Cash
  groups : Table GroupRecord
  line : Line
  journal : Journal
  office : OfficePort
  attention : Attention
  roster : Table RosterEntry
  service : ServicePort
  supply : Supply
  /-- The model's own: how many free values have been drawn (log entry 13). -/
  freeIndex : Nat
  /-- The model's own: the commands waiting, first in first out (log entry 1). -/
  pending : List Instr
  deriving DecidableEq, Repr

/-! ### One named update per block -/

namespace State

def onCalendar (s : State) (f : Calendar → Calendar) : State := { s with calendar := f s.calendar }
def onPlans (s : State) (f : Table PlanSlot → Table PlanSlot) : State := { s with plans := f s.plans }
def onEngine (s : State) (f : Engine → Engine) : State := { s with engine := f s.engine }
def onTerminals (s : State) (f : Table Terminal → Table Terminal) : State := { s with terminals := f s.terminals }
def onSales (s : State) (f : Sales → Sales) : State := { s with sales := f s.sales }
def onPermits (s : State) (f : Table Permit → Table Permit) : State := { s with permits := f s.permits }
def onCash (s : State) (f : Cash → Cash) : State := { s with cash := f s.cash }
def onGroups (s : State) (f : Table GroupRecord → Table GroupRecord) : State := { s with groups := f s.groups }
def onLine (s : State) (f : Line → Line) : State := { s with line := f s.line }
def onJournal (s : State) (f : Journal → Journal) : State := { s with journal := f s.journal }
def onOffice (s : State) (f : OfficePort → OfficePort) : State := { s with office := f s.office }
def onAttention (s : State) (f : Attention → Attention) : State := { s with attention := f s.attention }
def onRoster (s : State) (f : Table RosterEntry → Table RosterEntry) : State := { s with roster := f s.roster }
def onService (s : State) (f : ServicePort → ServicePort) : State := { s with service := f s.service }
def onSupply (s : State) (f : Supply → Supply) : State := { s with supply := f s.supply }
def setFreeIndex (s : State) (n : Nat) : State := { s with freeIndex := n }
def setPending (s : State) (p : List Instr) : State := { s with pending := p }

end State

/-! ### Reset -/

/-- No flag set. -/
def Flags.none : Flags := ⟨false, false, false, false, false, false, false, false, false, false⟩

/-- Every flag set; as a mask, every flag enabled (R167). -/
def Flags.all : Flags := ⟨true, true, true, true, true, true, true, true, true, true⟩

/-- The cold group records: FREE_TIME since 0, mark clear, for groups 1 to 12 (R133). -/
def coldGroups : Table GroupRecord :=
  (List.range Config.bayGroups).map fun g => (g + 1, { cover := .freeTime, since := 0, mark := false })

/-- The part right after a cold start (R16, R33, R76, R93, R114, R133, R154, R168, R176, R181), with the straps latched as
given: the part runs, cycle 0 has opened with its SEEK, and of the flags RESTARTED and CLOCK are set. -/
def State.cold (straps : Straps) : State where
  calendar :=
    { zoneTime := 0, uptime := 0, offset := 0, clockSet := false, holidays := [], lastRolled := none, deadline := none }
  plans := []
  engine := { queue := [], walk := none }
  terminals := []
  sales := { nextTicket := 1, grace := 5, live := [] }
  permits := []
  cash :=
    { denominations := ⟨5, 10, 20, 50, 100, 200⟩, tolerance := 50, collections := [], nextCollection := 1, round := none,
      nextRound := 1 }
  groups := coldGroups
  line := { cycle := 0, lastUnknown := none, mode := .reply 1 false [] [], out := [.seek 0], ended := none }
  journal := { records := [], reservation := 0, nextSequence := 1 }
  office := { reading := false, current := none, busy := [], overruns := 0 }
  attention := { flags := { Flags.none with restarted := true, clock := true }, mask := Flags.all }
  roster := []
  service := { reading := false, current := none, busy := [] }
  supply := { part := .running, main := .above, cell := .standby, latch := false, straps := straps, startAbandoned := false }
  freeIndex := 0
  pending := []

/-- The machine right after reset: a cold start with every strap low (log entry 4: the spec gives the straps no value, the
pins do). -/
def State.reset : State := State.cold { zone := 0, rate := false, svc := false }

end Sys2Proof.Machine
end

