-- ==== Sys2Proof/Machine/Operands.lean ====
section
/-!
DEFINITION. The coded operands of the commands: what a code names (R185), what a plate, a zone set or an OFFER's capability
byte holds (R182, section 12.2), and the three bytes of a status word (section 12.2, R184).
-/

namespace Sys2Proof.Machine

/-- Permit kinds 1 RESIDENT, 2 VISITOR, 3 BUSINESS (R185). -/
def permitKindOf : Nat → Option PermitKind
  | 1 => some .resident
  | 2 => some .visitor
  | 3 => some .business
  | _ => none

/-- Standings 1 VALID, 2 SUSPENDED, as "is it suspended" (R185). -/
def suspendedOf : Nat → Option Bool
  | 1 => some false
  | 2 => some true
  | _ => none

/-- Roles 1 OFFICER, 2 COLLECTOR, 3 ENGINEER (R185). -/
def roleOf : Nat → Option Role
  | 1 => some .officer
  | 2 => some .collector
  | 3 => some .engineer
  | _ => none

/-- Profiles 1 MONDAY to 7 SUNDAY, 8 HOLIDAY (R185). -/
def Profile.number : Profile → Nat
  | .monday => 1
  | .tuesday => 2
  | .wednesday => 3
  | .thursday => 4
  | .friday => 5
  | .saturday => 6
  | .sunday => 7
  | .holiday => 8

/-- The profile of a weekday remainder, 0 for Monday to 6 for Sunday (R2). -/
def weekdayProfile : Nat → Profile
  | 0 => .monday
  | 1 => .tuesday
  | 2 => .wednesday
  | 3 => .thursday
  | 4 => .friday
  | 5 => .saturday
  | _ => .sunday

/-- Fault kinds by number, 1 to 13 (R115). -/
def faultKindOf : Nat → Option FaultKind
  | 1 => some .linkLost
  | 2 => some .jabber
  | 3 => some .powerLow
  | 4 => some .powerCritical
  | 5 => some .paperLow
  | 6 => some .paperOut
  | 7 => some .coinJam
  | 8 => some .cardFault
  | 9 => some .boxFull
  | 10 => some .doorForced
  | 11 => some .doorUnscheduled
  | 12 => some .silent
  | 13 => some .cashShort
  | _ => none

/-- What a QUOTE asks for: kinds 1 BY_AMOUNT, 2 BY_DURATION, and D from 1 to 1440 (section 12.2, R56). -/
def askOf (kind amount : Nat) : Option Ask :=
  match kind with
  | 1 => some (.byAmount amount)
  | 2 => if 1 ≤ amount ∧ amount ≤ 1440 then some (.byDuration amount) else none
  | _ => none

/-- A plate operand of no characters is no plate (R182). -/
def plateOf (p : Plate) : Option Plate := if p = [] then none else some p

/-- A character of a plate: A to Z or 0 to 9 (R78). -/
def plateChar (b : Byte) : Bool := (65 ≤ b.toNat && b.toNat ≤ 90) || (48 ≤ b.toNat && b.toNat ≤ 57)

/-- A plate that is absent, or has 2 to 8 good characters (R56, R80). -/
def plateGood (p : Plate) : Bool := p.isEmpty || (2 ≤ p.length && p.length ≤ 8 && p.all plateChar)

/-- A permit operand of 0 names no permit (R182). -/
def permitOf (n : Nat) : Option Nat := if n = 0 then none else some n

/-- A zone set is not empty, holds groups 1 to 12 only, and none twice (R80). -/
def zonesGood (zones : List Nat) : Bool :=
  !zones.isEmpty && zones.all (fun g => 1 ≤ g && g ≤ Config.bayGroups) && decide zones.Nodup

/-- A zone set in ascending order: the set is what counts, not the order in which it was carried (log entry 28). -/
def zoneSet (zones : List Nat) : List Nat := (List.range (Config.bayGroups + 1)).filter fun g => zones.contains g

/-- A band entry as it is stored: the price fields of a FREE or NO_STAY band are discarded (R18); kinds 1 CHARGED, 2 FREE,
3 NO_STAY (section 12.3). -/
def storeBand (b : BandEntry) : Band :=
  { start := b.start
    kind := if b.kind = 1 then .charged b.step b.price b.increment b.cap b.stay else if b.kind = 2 then .free else .noStay }

/-- The capability set of an OFFER's byte: bits 0 to 4 are COINS, CARD, PERMIT_ENTRY, PLATE_ENTRY, KEY_WAKE (section 12.2). -/
def capsOf (b : Byte) : Caps :=
  { coins := b.getLsbD 0, card := b.getLsbD 1, permitEntry := b.getLsbD 2, plateEntry := b.getLsbD 3, keyWake := b.getLsbD 4 }

/-- What an OFFER offers: a legacy one is level 1 with COINS alone; a full one of highest level 3 or more is taken as 2 when its set
lacks PERMIT_ENTRY or PLATE_ENTRY (R142). -/
def offerTerms : OfferForm → Caps × Nat
  | .legacy => ({ coins := true, card := false, permitEntry := false, plateEntry := false, keyWake := false }, 1)
  | .full caps level =>
    let set := capsOf caps
    (set, if 3 ≤ level ∧ ¬(set.permitEntry ∧ set.plateEntry) then 2 else level)

/-- The chosen level: the lesser of the highest level as taken and 3 (R142). -/
def chosenLevel (form : OfferForm) : Nat := min (offerTerms form).2 3

/-- A valid OFFER's highest level is from 1 to 15 (R140). -/
def offerValid : OfferForm → Bool
  | .legacy => true
  | .full _ level => 1 ≤ level && level ≤ 15

/-- A status word as reported (section 7.4). -/
structure StatusWord where
  power : PowerClass
  reports : Reports
  door : Door
  deriving DecidableEq, Repr

/-- The power class of a status word: bits 7 and 6 of byte 1; 3 is malformed (section 12.2, R184). -/
def powerOf (w : BitVec 24) : Option PowerClass :=
  match (w.extractLsb' 22 2).toNat with
  | 0 => some .ok
  | 1 => some .low
  | 2 => some .critical
  | _ => none

/-- The door of a status word: bit 7 of byte 2 is OPEN, its bits 1 and 0 the key kind, byte 3 the key number; a key kind of 3 is
malformed (section 12.2, R184). A CLOSED door has key NONE (R123). -/
def doorOf (w : BitVec 24) : Option Door :=
  let opened := w.getLsbD 15
  match (w.extractLsb' 8 2).toNat with
  | 0 => some (if opened then .opened .none else .closed)
  | 1 => some (if opened then .opened (.collector (w.extractLsb' 0 8).toNat) else .closed)
  | 2 => some (if opened then .opened .engineer else .closed)
  | _ => none

/-- The four reports of a status word: bits 5 to 2 of byte 1 (section 12.2). -/
def reportsOf (w : BitVec 24) : Reports :=
  { paperLow := w.getLsbD 21, paperOut := w.getLsbD 20, coinJam := w.getLsbD 19, cardFault := w.getLsbD 18 }

/-- The status word that the three bytes hold, where they are not malformed (R184). -/
def readStatus (w : BitVec 24) : Option StatusWord :=
  match powerOf w, doorOf w with
  | some power, some door => some { power := power, reports := reportsOf w, door := door }
  | _, _ => none

end Sys2Proof.Machine
end

