-- ==== Sys2Proof/Machine/Table.lean ====
section
/-!
DEFINITION. The operations of a table (a list of entries by key in strictly ascending key order): looking up, adding or
replacing in place, changing one entry, removing, and the form that every operation keeps.
-/

namespace Sys2Proof.Machine

/-- The entry of key `k`. -/
def Table.find? {α : Type} (k : Nat) : Table α → Option α
  | [] => none
  | (j, v) :: rest => if j = k then some v else Table.find? k rest

/-- Add the entry at the position its key gives it, or replace it in place (R77, R171). -/
def Table.put {α : Type} (k : Nat) (v : α) : Table α → Table α
  | [] => [(k, v)]
  | (j, w) :: rest =>
    if k < j then (k, v) :: (j, w) :: rest
    else if j = k then (k, v) :: rest
    else (j, w) :: Table.put k v rest

/-- Change the entry of key `k`, where there is one. -/
def Table.modify {α : Type} (k : Nat) (f : α → α) (t : Table α) : Table α :=
  t.map fun e => if e.1 = k then (e.1, f e.2) else e

/-- Change every entry. -/
def Table.mapAll {α : Type} (f : α → α) (t : Table α) : Table α := t.map fun e => (e.1, f e.2)

/-- Remove the entry of key `k`; the entries after it close up. -/
def Table.erase {α : Type} (k : Nat) (t : Table α) : Table α := t.filter fun e => e.1 ≠ k

/-- The keys in order. -/
def Table.keys {α : Type} (t : Table α) : List Nat := t.map Prod.fst

/-- The form every table keeps: keys strictly ascending. -/
def Table.wf {α : Type} : Table α → Bool
  | [] => true
  | [_] => true
  | (j, _) :: (k, w) :: rest => j < k && Table.wf ((k, w) :: rest)

end Sys2Proof.Machine
end

