-- ==== Sys2Proof/Machine/Ops.lean ====
section
/-!
DEFINITION. Shared operations over the state: local time, one terminal's record, the journal's figures, and the outcome of a
command that the part takes only while it is RUNNING.
-/

namespace Sys2Proof.Machine

/-! ### Local time (R2) -/

/-- Local time at zone time `t` under an offset of minutes. -/
def localTime (offset : Int) (t : Nat) : Int := (t : Int) + 60 * offset

/-- The local day number: local time div 86 400, truncated toward zero (R2, spec 00 section 4; log entry 22 for a negative local
time). -/
def localDay (offset : Int) (t : Nat) : Nat := ((localTime offset t).tdiv 86400).toNat

/-- The second of the local day. -/
def secondOfDay (offset : Int) (t : Nat) : Nat := ((localTime offset t).emod 86400).toNat

/-- The minute of the local day, 0 to 1439 (R2). -/
def minuteOfDay (offset : Int) (t : Nat) : Nat := secondOfDay offset t / 60

/-- The weekday of a local day: 0 for Monday to 6 for Sunday (R2). -/
def weekday (day : Nat) : Nat := (day + 5) % 7

/-- The present local day number. -/
def today (s : State) : Nat := localDay s.calendar.offset s.calendar.zoneTime

/-! ### Terminals -/

/-- The record of a slot; none where the slot is EMPTY. -/
def terminal (s : State) (slot : Nat) : Option Terminal := Table.find? slot s.terminals

/-- Change one slot's record, where the slot is configured. -/
def onTerminal (slot : Nat) (f : Terminal → Terminal) (s : State) : State := s.onTerminals (Table.modify slot f)

/-- Change one slot's link fields. -/
def onLink (slot : Nat) (f : Link → Link) (s : State) : State := onTerminal slot (fun t => { t with link := f t.link }) s

/-- Change what the Fault Monitor holds for one slot. -/
def onWatch (slot : Nat) (f : Watch → Watch) (s : State) : State := onTerminal slot (fun t => { t with watch := f t.watch }) s

/-- Take an action for every configured slot, in ascending slot order (log entry 7). -/
def forEachSlot (f : Nat → State → State) (s : State) : State := (Table.keys s.terminals).foldl (fun s k => f k s) s

/-- A slot number the zone has: 1 to 24 (spec 00 section 4). -/
def slotNumber (n : Nat) : Bool := 1 ≤ n && n ≤ Config.terminalSlots

/-- A bay-group number: 1 to 12 (spec 00 section 4). -/
def groupNumber (n : Nat) : Bool := 1 ≤ n && n ≤ Config.bayGroups

/-- A slot in ACTIVE or SLEEPING: the states to which SERVICE and TIME notices are queued (R150). -/
def LinkState.enrolled : LinkState → Bool
  | .active => true
  | .sleeping => true
  | _ => false

/-- A slot in a called state: GRANTED, ACTIVE or SLEEPING (R136, R138). -/
def LinkState.called : LinkState → Bool
  | .granted => true
  | .active => true
  | .sleeping => true
  | _ => false

/-- The members of a bay group: the configured terminals whose group it is (R129). -/
def members (g : Nat) (s : State) : List (Nat × Terminal) := s.terminals.filter fun e => e.2.config.group = g

/-! ### The journal's figures (R158) -/

/-- The used entries. -/
def used (s : State) : Nat := s.journal.records.length

/-- The unreserved free space: 1024 less the used entries less the reservation. -/
def freeSpace (s : State) : Nat := Config.journalCapacity - used s - s.journal.reservation

/-- Sales halted holds while the unreserved free space is 32 or less. -/
def salesHalted (s : State) : Bool := freeSpace s ≤ Config.salesReserve

/-- The figures that responses carry. -/
def figures (s : State) : JournalFigures :=
  { used := used s, reserved := s.journal.reservation, free := freeSpace s }

/-! ### Cash figures -/

/-- A terminal's box fill, a whole percentage (R97). -/
def boxFill (t : Terminal) : Nat := t.cash.tally.total * 100 / t.config.capacity

/-- The BOX_FULL condition: the tally total is at or above the box capacity (R97). -/
def boxFull (t : Terminal) : Bool := t.config.capacity ≤ t.cash.tally.total

/-- The PENDING entries of a round. -/
def pendingEntries (r : Round) : Nat := (r.entries.filter fun e => e.state = .pending).length

/-! ### Outcomes -/

/-- A command whose effect is `f` while the part is RUNNING. In BACKUP the part takes no event of any port, and none of its own
(R177), so the command is lost and nothing changes. -/
def whileRunning (f : State → State) (s : State) : Host.Outcome State Fault Refusal :=
  if s.supply.part = .running then .next (f s) else .next s

end Sys2Proof.Machine
end

