-- ==== Sys2Proof/Machine/Flags.lean ====
section
/-!
DEFINITION. The ten attention flags, their four conditions and the ATTN output (R165).
-/

namespace Sys2Proof.Machine

/-- The names of the flags, in the order of R165. -/
inductive Flag where
  | salesHalted | journalHigh | counts | clock | fault | cover | round | planSwitched | unknownTerminal | restarted
  deriving DecidableEq, Repr

/-- Set one flag. Setting a flag that is already set leaves it set (R165). -/
def Flags.set (f : Flags) : Flag → Flags
  | .salesHalted => { f with salesHalted := true }
  | .journalHigh => { f with journalHigh := true }
  | .counts => { f with counts := true }
  | .clock => { f with clock := true }
  | .fault => { f with fault := true }
  | .cover => { f with cover := true }
  | .round => { f with round := true }
  | .planSwitched => { f with planSwitched := true }
  | .unknownTerminal => { f with unknownTerminal := true }
  | .restarted => { f with restarted := true }

/-- The flags set in either. -/
def Flags.or (a b : Flags) : Flags :=
  { salesHalted := a.salesHalted || b.salesHalted, journalHigh := a.journalHigh || b.journalHigh, counts := a.counts || b.counts,
    clock := a.clock || b.clock, fault := a.fault || b.fault, cover := a.cover || b.cover, round := a.round || b.round,
    planSwitched := a.planSwitched || b.planSwitched, unknownTerminal := a.unknownTerminal || b.unknownTerminal,
    restarted := a.restarted || b.restarted }

/-- The flags in order of R165. -/
def Flags.toList (f : Flags) : List Bool :=
  [f.salesHalted, f.journalHigh, f.counts, f.clock, f.fault, f.cover, f.round, f.planSwitched, f.unknownTerminal, f.restarted]

/-- At least one flag is set and enabled. -/
def Flags.anyEnabled (f mask : Flags) : Bool := (f.toList.zip mask.toList).any fun p => p.1 && p.2

/-- The flags that bits 0 to 9 of a mask operand name, in the order of R165 (R185). -/
def maskOf (m : Nat) : Flags :=
  { salesHalted := m.testBit 0, journalHigh := m.testBit 1, counts := m.testBit 2, clock := m.testBit 3, fault := m.testBit 4,
    cover := m.testBit 5, round := m.testBit 6, planSwitched := m.testBit 7, unknownTerminal := m.testBit 8,
    restarted := m.testBit 9 }

/-- The event flags alone (R165: the class of each flag). -/
def Flags.eventsOnly (f : Flags) : Flags :=
  { f with salesHalted := false, journalHigh := false, counts := false, clock := false }

/-- The condition flags whose conditions hold (R165). -/
def conditions (s : State) : Flags :=
  { Flags.none with
    salesHalted := salesHalted s
    journalHigh := Config.journalHigh ≤ used s
    counts := !s.cash.collections.isEmpty
    clock := !s.calendar.clockSet }

/-- Set the event flag. -/
def raise (f : Flag) (s : State) : State := s.onAttention fun a => { a with flags := a.flags.set f }

/-- Set every condition flag whose condition holds. Done at each change of a condition's figures, so a flag is set whenever
its condition rises and stays set after the condition ends (R165). -/
def refresh (s : State) : State := s.onAttention fun a => { a with flags := a.flags.or (conditions s) }

/-- The ATTN output: asserted while at least one flag is set and enabled (R165), deasserted in BACKUP (R177). -/
def attn (s : State) : Bool := s.supply.part = .running && s.attention.flags.anyEnabled s.attention.mask

end Sys2Proof.Machine
end

