-- ==== Sys2Proof/Machine/JournalOps.lean ====
section
/-!
DEFINITION. Appending to the journal, from the unreserved free space or from the round's reservation, and making and releasing
reservations (R155 to R158).
-/

namespace Sys2Proof.Machine

/-- The number after a sequence number: from 4 294 967 295 to 1, passing over 0 (R155). -/
def nextSequence (n : Nat) : Nat := if n = Config.maxSequence then 1 else n + 1

/-- The record an append makes: the next sequence number, the present zone time and time-unset flag, the latched ZONE strap
(R155). -/
def newRecord (body : RecordBody) (s : State) : Record :=
  { sequence := s.journal.nextSequence
    zoneTime := s.calendar.zoneTime
    unset := !s.calendar.clockSet
    zone := s.supply.straps.zone
    body := body }

/-- Append a record from the unreserved free space (R155, R156), and derive the journal's conditions afresh (R158). -/
def append (body : RecordBody) (s : State) : State :=
  refresh (s.onJournal fun j =>
    { j with records := j.records ++ [newRecord body s], nextSequence := nextSequence j.nextSequence })

/-- Append a record from the round's reservation: the reservation falls by one and the used entries rise by one (R157). -/
def appendReserved (body : RecordBody) (s : State) : State :=
  refresh (s.onJournal fun j =>
    { records := j.records ++ [newRecord body s], reservation := j.reservation - 1,
      nextSequence := nextSequence j.nextSequence })

/-- Set the reservation (R157). -/
def reserve (n : Nat) (s : State) : State := refresh (s.onJournal fun j => { j with reservation := n })

end Sys2Proof.Machine
end

