-- ==== Sys2Proof/Machine/NoticeOps.lean ====
section
/-!
DEFINITION. The notice queue of a slot (R62, R146, R148, R150, R151, R153): joining, coalescing in place, withdrawal, and the
mark of the notice that rides on a call.
-/

namespace Sys2Proof.Machine

def NoticeBody.isResult : NoticeBody → Bool
  | .quoteResult _ => true
  | .saleResult _ => true
  | _ => false

def NoticeBody.isService : NoticeBody → Bool
  | .service _ => true
  | _ => false

def NoticeBody.isTime : NoticeBody → Bool
  | .time _ _ _ => true
  | _ => false

def NoticeBody.isSleep : NoticeBody → Bool
  | .sleep => true
  | _ => false

def NoticeBody.isWake : NoticeBody → Bool
  | .wake => true
  | _ => false

def NoticeBody.isReset : NoticeBody → Bool
  | .reset => true
  | _ => false

/-- The QUOTE_RESULT of the quote with this id. -/
def NoticeBody.isResultOf (quoteId : Nat) : NoticeBody → Bool
  | .quoteResult f => f.quoteId = quoteId
  | _ => false

/-- A queue holds a notice of a sort. -/
def holds (sort : NoticeBody → Bool) (q : List Notice) : Bool := q.any fun n => sort n.body

/-- A notice joins the tail, or takes the place of the waiting one of its sort, as a new notice that has not ridden (R62, R150,
R151). While RESET is in the queue no other notice joins it (R150). -/
def joinQueue (sort : NoticeBody → Bool) (body : NoticeBody) (q : List Notice) : List Notice :=
  if holds NoticeBody.isReset q then q
  else if holds sort q then q.map fun n => if sort n.body then { body := body, rode := false } else n
  else q ++ [{ body := body, rode := false }]

/-- WAKE joins at the head, ahead of any notice already waiting (R148), once. -/
def joinWake (q : List Notice) : List Notice :=
  if holds NoticeBody.isReset q || holds NoticeBody.isWake q then q else { body := .wake, rode := false } :: q

/-- The notices of a sort are withdrawn; those behind close up (R62). -/
def withdraw (sort : NoticeBody → Bool) (q : List Notice) : List Notice := q.filter fun n => !sort n.body

/-- The head of the queue rides on a call and stays in the queue (R151). -/
def markHead : List Notice → List Notice
  | [] => []
  | n :: rest => { n with rode := true } :: rest

/-- The valid answer removes the notice that rode, if the same notice still stands, wherever it stands by then (R136, R151). -/
def removeRidden (q : List Notice) : List Notice := q.filter fun n => !n.rode

/-- A missed call leaves the notice where it was (R137). -/
def unmark (q : List Notice) : List Notice := q.map fun n => { n with rode := false }

/-- Change a slot's notice queue. -/
def onQueue (slot : Nat) (f : List Notice → List Notice) (s : State) : State :=
  onLink slot (fun l => { l with queue := f l.queue }) s

/-- Queue a result notice (R62). -/
def queueResult (slot : Nat) (body : NoticeBody) (s : State) : State := onQueue slot (joinQueue NoticeBody.isResult body) s

/-- Withdraw the undelivered result notice, if any (R62). -/
def withdrawResult (slot : Nat) (s : State) : State := onQueue slot (withdraw NoticeBody.isResult) s

/-- Queue SERVICE with the new state (R126, R150). -/
def queueService (slot : Nat) (state : ServiceState) (s : State) : State :=
  onQueue slot (joinQueue NoticeBody.isService (.service state)) s

/-- Queue TIME with the present values (R6, R10, R144). -/
def queueTime (slot : Nat) (s : State) : State :=
  onQueue slot (joinQueue NoticeBody.isTime (.time s.calendar.zoneTime s.calendar.offset s.calendar.clockSet)) s

/-- TIME is queued for every ACTIVE or SLEEPING terminal, and a GRANTED one is owed it at its ACCEPT (R6, R10, R144). -/
def timeForAll (s : State) : State :=
  forEachSlot (fun slot s =>
    match terminal s slot with
    | none => s
    | some t =>
      if t.link.state.enrolled then queueTime slot s
      else if t.link.state = .granted then onLink slot (fun l => { l with timeOwed := true }) s
      else s) s

end Sys2Proof.Machine
end

