-- ==== Sys2Proof/Machine/FaultOps.lean ====
section
/-!
DEFINITION. Fault states (R115 to R118), service state (R125, R126), cover (R129 to R131), and what a change of the
sales-halted condition sets off (R158).
-/

namespace Sys2Proof.Machine

/-! ### Fault records -/

def FaultTable.get (f : FaultTable) : FaultKind → FaultRecord
  | .linkLost => f.linkLost
  | .jabber => f.jabber
  | .powerLow => f.powerLow
  | .powerCritical => f.powerCritical
  | .paperLow => f.paperLow
  | .paperOut => f.paperOut
  | .coinJam => f.coinJam
  | .cardFault => f.cardFault
  | .boxFull => f.boxFull
  | .doorForced => f.doorForced
  | .doorUnscheduled => f.doorUnscheduled
  | .silent => f.silent
  | .cashShort => f.cashShort

def FaultTable.set (f : FaultTable) (r : FaultRecord) : FaultKind → FaultTable
  | .linkLost => { f with linkLost := r }
  | .jabber => { f with jabber := r }
  | .powerLow => { f with powerLow := r }
  | .powerCritical => { f with powerCritical := r }
  | .paperLow => { f with paperLow := r }
  | .paperOut => { f with paperOut := r }
  | .coinJam => { f with coinJam := r }
  | .cardFault => { f with cardFault := r }
  | .boxFull => { f with boxFull := r }
  | .doorForced => { f with doorForced := r }
  | .doorUnscheduled => { f with doorUnscheduled := r }
  | .silent => { f with silent := r }
  | .cashShort => { f with cashShort := r }

/-- The kinds in order of number. -/
def faultKinds : List FaultKind :=
  [.linkLost, .jabber, .powerLow, .powerCritical, .paperLow, .paperOut, .coinJam, .cardFault, .boxFull, .doorForced,
    .doorUnscheduled, .silent, .cashShort]

/-- A condition is present in ACTIVE and HELD and absent in CLEAR and LATCHED (R116); an event-kind fault is never in the first
two (R117). -/
def FaultState.present : FaultState → Bool
  | .active => true
  | .held => true
  | _ => false

/-- The condition of a kind is present. -/
def FaultTable.present (f : FaultTable) (k : FaultKind) : Bool := (f.get k).state.present

/-- The row "condition rises" of R116. -/
def FaultState.rise : FaultState → FaultState
  | .clear => .active
  | .latched => .active
  | st => st

/-- The row "condition ends" of R116. -/
def FaultState.fall : FaultState → FaultState
  | .active => .latched
  | .held => .clear
  | st => st

/-- The row "acknowledge" of R116, and R117's for event kinds; CLEAR and HELD are answered ALREADY and stay. -/
def FaultState.acknowledge : FaultState → FaultState
  | .active => .held
  | .latched => .clear
  | st => st

/-- The fault records of a slot newly configured at a zone time (R115). -/
def clearFaults (t : Nat) : FaultTable :=
  let r : FaultRecord := { state := .clear, changed := t }
  ⟨r, r, r, r, r, r, r, r, r, r, r, r, r⟩

/-! ### Impacts and service state -/

/-- The impacts in force: while the condition is present, and for DOOR_FORCED while its state is anything but CLEAR (R115, R118). -/
def impacts (f : FaultTable) : Impacts :=
  { total :=
      f.present .linkLost || f.present .jabber || f.present .powerCritical || f.present .paperOut
        || f.doorForced.state ≠ .clear
    cash := f.present .coinJam || f.present .boxFull
    card := f.present .cardFault }

/-- The terminal has cash: its capability set holds COINS (R125). -/
def hasCash (t : Terminal) : Bool := (t.link.caps.map (·.coins)).getD false

/-- The terminal has card: its capability set holds CARD and its level is 2 or 3 (R125). -/
def hasCard (t : Terminal) : Bool :=
  (t.link.caps.map (·.card)).getD false && (t.link.level = some 2 || t.link.level = some 3)

/-- Cash is usable (R67, R125). -/
def cashUsable (t : Terminal) : Bool := hasCash t && !(impacts t.watch.faults).cash

/-- Card is usable (R67, R125). -/
def cardUsable (t : Terminal) : Bool := hasCard t && !(impacts t.watch.faults).card

/-- The table of tender methods of R125. -/
def tenderState (t : Terminal) : ServiceState :=
  if hasCash t && hasCard t then
    if cashUsable t then (if cardUsable t then .inService else .cashOnly)
    else if cardUsable t then .cardOnly
    else .outOfService
  else if cashUsable t || cardUsable t then .inService
  else .outOfService

/-- The service state derived from the state at this moment (R125). -/
def serviceOf (s : State) (t : Terminal) : ServiceState :=
  if !t.link.state.enrolled || t.watch.door ≠ .closed || (impacts t.watch.faults).total || salesHalted s
      || !s.calendar.clockSet then .outOfService
  else tenderState t

/-- Hold a slot's service state as derived; a change queues a SERVICE notice for an ACTIVE or SLEEPING terminal (R126). -/
def holdService (slot : Nat) (s : State) : State :=
  match terminal s slot with
  | none => s
  | some t =>
    let derived := serviceOf s t
    if derived = t.watch.service then s
    else
      let s := onWatch slot (fun w => { w with service := derived }) s
      if t.link.state.enrolled then queueService slot derived s else s

/-! ### Cover -/

/-- The cover of a group by the first case of R129 that applies. -/
def coverOf (g : Nat) (s : State) : Cover :=
  let ms := members g s
  if ms.isEmpty then .freeTime
  else if !s.calendar.clockSet then .uncovered
  else if !(ms.any fun e => (e.2.segment.map (·.kind)) = some .charged) then .freeTime
  else if ms.any fun e => e.2.watch.service ≠ .outOfService then .covered
  else .uncovered

/-- A group's cover is derived afresh; a change is held with the time it began, appends a COVER_CHANGE or sets the pending-record
mark, and sets COVER (R130, R131). What the append does to the sales-halted condition is `cover`'s to take. -/
def takeCover (g : Nat) (s : State) : State :=
  match Table.find? g s.groups with
  | none => s
  | some r =>
    let derived := coverOf g s
    if derived = r.cover then s
    else
      let now := s.calendar.zoneTime
      let s := raise .cover
        (s.onGroups (Table.modify g fun r => { r with cover := derived, since := now }))
      if freeSpace s = 0 then s.onGroups (Table.modify g fun r => { r with mark := true })
      else append (.coverChange g derived now) s

/-- The group numbers in ascending order. -/
def groupNumbers : List Nat := (List.range Config.bayGroups).map (· + 1)

/-- Every terminal's service state and then every group's cover are derived afresh, once (R126, R130; order: log entry 7). -/
def deriveOnce (s : State) : State := groupNumbers.foldl (fun s g => takeCover g s) (forEachSlot holdService s)

/-- A rise of the sales-halted condition is reported to the Fault Monitor, which derives every terminal's service state, and with
it every group's cover, afresh (R158). Cover records only lower the free space, so the condition does not change again. -/
def reactToRise (before : Bool) (s : State) : State := if !before && salesHalted s then deriveOnce s else s

/-- A group's cover is derived afresh, with what its COVER_CHANGE record does to the sales-halted condition (R130, R158). -/
def cover (g : Nat) (s : State) : State := reactToRise (salesHalted s) (takeCover g s)

/-- A slot's service state is derived afresh; each change also recomputes the cover of its group (R126). -/
def deriveService (slot : Nat) (s : State) : State :=
  match terminal s slot with
  | none => s
  | some t => if serviceOf s t = t.watch.service then s else cover t.config.group (holdService slot s)

/-- Every group's cover is derived afresh, in ascending group order (log entry 7). -/
def coverAll (s : State) : State := groupNumbers.foldl (fun s g => cover g s) s

/-- Every terminal's service state and every group's cover are derived afresh: the sales-halted condition or the clock-set flag has
changed (R126, R130). -/
def deriveAll (s : State) : State := coverAll (forEachSlot holdService s)

/-- What a rise or an end of the sales-halted condition sets off, given whether it held before (R158). -/
def haltChanged (before : Bool) (s : State) : State := if salesHalted s = before then s else deriveAll s

/-- The owed COVER_CHANGE records: marked groups in ascending order, until the marks or the free space are exhausted (R131). -/
def appendOwed (s : State) : State :=
  groupNumbers.foldl (fun s g =>
    match Table.find? g s.groups with
    | none => s
    | some r =>
      if r.mark && freeSpace s ≠ 0 then
        append (.coverChange g r.cover r.since) (s.onGroups (Table.modify g fun r => { r with mark := false }))
      else s) s

/-- The journal's free space has risen: the owed records where it was 0, then what the end of a halt sets off (R131, R158, R160;
order: log entry 7). -/
def spaceRose (freeBefore : Nat) (haltedBefore : Bool) (s : State) : State :=
  haltChanged haltedBefore (if freeBefore = 0 ∧ freeSpace s ≠ 0 then appendOwed s else s)

/-! ### Conditions rise and end -/

/-- Give a fault a new state at the present zone time (R116). -/
def setFault (slot : Nat) (k : FaultKind) (st : FaultState) (s : State) : State :=
  onWatch slot (fun w => { w with faults := w.faults.set { state := st, changed := s.calendar.zoneTime } k }) s

/-- A condition is reported as risen: from CLEAR or LATCHED the fault enters ACTIVE, which sets FAULT, and the service state is
derived afresh (R116, R118). Where the condition is already present the report changes nothing (R139). -/
def conditionRises (slot : Nat) (k : FaultKind) (s : State) : State :=
  match terminal s slot with
  | none => s
  | some t =>
    if t.watch.faults.present k then s
    else deriveService slot (raise .fault (setFault slot k (t.watch.faults.get k).state.rise s))

/-- A condition is reported as ended: ACTIVE goes to LATCHED, HELD to CLEAR, and the service state is derived afresh (R116,
R118). Where the condition is absent the report changes nothing (R139). -/
def conditionEnds (slot : Nat) (k : FaultKind) (s : State) : State :=
  match terminal s slot with
  | none => s
  | some t =>
    if t.watch.faults.present k then deriveService slot (setFault slot k (t.watch.faults.get k).state.fall s)
    else s

/-- A condition is reported as it stands. -/
def reportCondition (slot : Nat) (k : FaultKind) (present : Bool) (s : State) : State :=
  if present then conditionRises slot k s else conditionEnds slot k s

/-- An event-kind fault is raised on a configured slot: LATCHED, its time of last change the present zone time, and FAULT is set; one that
is LATCHED already is raised so again (R117). DEDUCED (log entry 40): that raise moves the time of last change too. -/
def raiseEventFault (slot : Nat) (k : FaultKind) (s : State) : State :=
  match terminal s slot with
  | none => s
  | some _ => raise .fault (setFault slot k .latched s)

end Sys2Proof.Machine
end

