-- ==== Sys2Proof/Machine/CashOps.lean ====
section
/-!
DEFINITION. The Cash Unit: the round list (R98), collector's keys at doors (R102), the cut (R104), the close of a round (R107) and
reconciliation (R110).
-/

namespace Sys2Proof.Machine

/-! ### The round list (R98) -/

/-- COIN_JAM is present: the filtered value (R98, R121). -/
def coinJam (t : Terminal) : Bool := t.watch.filtered.coinJam

/-- The reason for which a terminal's box is due, if it is (R98 steps 1 and 2). -/
def dueReason (t : Terminal) : Option DueReason :=
  if t.cash.tally.total = 0 && !coinJam t then none
  else if boxFull t then some .full
  else if coinJam t then some .jam
  else if t.config.threshold ≤ boxFill t then some .due
  else none

/-- The place of a reason in the order of R98 step 4. -/
def DueReason.rank : DueReason → Nat
  | .full => 0
  | .jam => 1
  | .due => 2

/-- One entry stands before another in the round list: by reason, then by descending fill, then by ascending slot (R98). -/
def entryBefore (a b : RoundEntry) : Bool :=
  if a.reason.rank ≠ b.reason.rank then a.reason.rank < b.reason.rank
  else if a.fill ≠ b.fill then b.fill < a.fill
  else a.slot < b.slot

/-- Insert an entry at its place. -/
def insertEntry (a : RoundEntry) : List RoundEntry → List RoundEntry
  | [] => [a]
  | b :: rest => if entryBefore a b then a :: b :: rest else b :: insertEntry a rest

/-- The round list computed from the state at this moment, each entry PENDING (R98). -/
def roundList (s : State) : List RoundEntry :=
  s.terminals.foldr (fun e acc =>
    match dueReason e.2 with
    | none => acc
    | some reason =>
      insertEntry { slot := e.1, fill := boxFill e.2, reason := reason, state := .pending } acc) []

/-- Collection records that are free: 64 less those in use (R101). -/
def freeCollections (s : State) : Nat := Config.maxCollections - s.cash.collections.length

/-- A ROUND_START now would pass the space checks (R99, R101). -/
def roundFits (s : State) (n : Nat) : Bool := n ≤ freeCollections s && n + 1 ≤ freeSpace s

/-! ### The cut (R104) -/

/-- The number after a counter's value that runs from 1 to 65 535 (R100, R108). -/
def nextCounter (n : Nat) : Nat := if 65535 ≤ n then 1 else n + 1

/-- Pass over the numbers that records hold; 64 records can hold at most 64 numbers (R108). -/
def passOver (held : List Nat) : Nat → Nat → Nat
  | 0, n => n
  | fuel + 1, n => if held.contains n then passOver held fuel (nextCounter n) else n

/-- The collection-number counter after a cut took its value (R108). -/
def advanceCollection (records : List Collection) (n : Nat) : Nat :=
  passOver (records.map (·.number)) (Config.maxCollections + 1) (nextCounter n)

/-- A round's entry of a slot. -/
def roundEntry (r : Round) (slot : Nat) : Option RoundEntry := r.entries.find? fun e => e.slot = slot

/-- The round with the slot's entry VISITED. -/
def Round.visit (r : Round) (slot : Nat) : Round :=
  { r with entries := r.entries.map fun e => if e.slot = slot then { e with state := .visited } else e }

/-- The collection record a cut makes (R104). -/
def newCollection (s : State) (slot key : Nat) (t : Terminal) : Collection :=
  { number := s.cash.nextCollection, slot := slot, key := key, periodStart := t.cash.lastCut,
    periodEnd := s.calendar.zoneTime, expected := t.cash.tally, value := t.cash.tally.value s.cash.denominations }

/-- The cut's effect on the cash fields (R96, R104). DESIGN CHOICE (log entry 39): the lifetime counts run on past the range of R96, which
gives neither a wrap nor a stop. -/
def CashFields.cut (c : CashFields) (now : Nat) : CashFields :=
  { c with collected := c.collected.add c.tally, tally := .zero, lastCut := now }

/-- A cut of a terminal's tally, but for the end of BOX_FULL: the record, the journal, the cash fields and the round entry (R104). -/
def cutTally (slot key : Nat) (t : Terminal) (r : Round) (s : State) : State :=
  let record := newCollection s slot key t
  let s := s.onCash fun c =>
    { c with
      collections := c.collections ++ [record]
      nextCollection := advanceCollection (c.collections ++ [record]) record.number
      round := some (r.visit slot) }
  let s := appendReserved (.collection record) s
  onTerminal slot (fun t => { t with cash := t.cash.cut s.calendar.zoneTime }) s

/-- A cut at a door opening, its effects in the order of R104; BOX_FULL ends if it held. -/
def cut (slot key : Nat) (t : Terminal) (r : Round) (s : State) : State :=
  conditionEnds slot .boxFull (cutTally slot key t r s)

/-- A door opening with a collector's key, by the first case of R102 that applies. -/
def collectorOpening (slot key : Nat) (s : State) : State :=
  match terminal s slot with
  | none => s
  | some t =>
    match s.cash.round with
    | none => raiseEventFault slot .doorUnscheduled s
    | some r =>
      match roundEntry r slot with
      | none => raiseEventFault slot .doorUnscheduled s
      | some e =>
        if key ≠ r.key then raiseEventFault slot .doorUnscheduled s
        else if e.state = .pending then cut slot key t r s
        else s

/-! ### Opening and closing a round (R101, R107) -/

/-- The round that a ROUND_START opens (R101). -/
def newRound (collector key : Nat) (entries : List RoundEntry) (s : State) : Round :=
  { number := s.cash.nextRound, collector := collector, key := key, start := s.calendar.zoneTime, entries := entries }

/-- A round is recorded, its journal entries are reserved and its deadline is registered (R101). -/
def recordRound (collector key : Nat) (entries : List RoundEntry) (s : State) : State :=
  let r := newRound collector key entries s
  let s := s.onCash fun c => { c with round := some r, nextRound := nextCounter c.nextRound }
  (reserve (entries.length + 1) s).onCalendar fun c => { c with deadline := some (r.start + Config.roundSeconds) }

/-- Open a round over the list for a collector: it is recorded, ROUND is set, and a halt of sales may follow (R101, R158). -/
def openRound (collector key : Nat) (entries : List RoundEntry) (s : State) : State :=
  haltChanged (salesHalted s) (raise .round (recordRound collector key entries s))

/-- PENDING entries become MISSED at the close (R107). -/
def RoundEntry.close (e : RoundEntry) : RoundEntry := if e.state = .pending then { e with state := .missed } else e

/-- Each entry's slot with VISITED or MISSED, in the round's order (R105, R107). -/
def closedEntries (r : Round) : List (Nat × EntryState) := (r.entries.map RoundEntry.close).map fun e => (e.slot, e.state)

/-- The close of a round, but for what the rise of the free space sets off: ROUND_CLOSED from the last reserved entry, the remaining
reservations released, the round discarded, the deadline gone, and ROUND set (R105, R107, R11). -/
def closeRoundCore (r : Round) (s : State) : State :=
  let s := appendReserved
    (.roundClosed r.number r.collector r.start s.calendar.zoneTime (closedEntries r)) s
  let s := reserve 0 s
  let s := s.onCash fun c => { c with round := none }
  let s := s.onCalendar fun c => { c with deadline := none }
  raise .round s

/-- The close of a round in running: the owed cover records and the end of a halt follow (R107, R131, R158). -/
def closeRound (r : Round) (s : State) : State := spaceRose (freeSpace s) (salesHalted s) (closeRoundCore r s)

/-- The registered deadline is delivered to the Cash Unit, which closes the open round, and is removed (R11, R106). -/
def deliverDeadline (s : State) : State :=
  match s.cash.round with
  | some r => closeRound r s
  | none => s.onCalendar fun c => { c with deadline := none }

/-! ### Reconciliation (R110) -/

/-- The outcome of a discrepancy under a tolerance (R110 step 3). -/
def balanceOf (discrepancy : Int) (tolerance : Nat) : Balance :=
  if discrepancy < -(tolerance : Int) then .short else if (tolerance : Int) < discrepancy then .over else .balanced

end Sys2Proof.Machine
end

