-- ==== Sys2Proof/Machine/PortOps.lean ====
section
/-!
DEFINITION. The discipline of the two UART ports: taking a whole frame, BUSY answers, overruns, and the checks of identity and role
(R161, R162, R169, R170, R174).
-/

namespace Sys2Proof.Machine

/-! ### Responses -/

/-- OK with no fields. -/
def ok : Response := { code := .ok, body := .empty }

/-- A code with no fields: a refusal. -/
def refusal (c : Code) : Response := { code := c, body := .empty }

/-- A refusal that names a number: a position, a slot, a field's order, a profile or a permit kind (R185). -/
def refusalAt (c : Code) (n : Nat) : Response := { code := c, body := .number n }

/-- OK with fields. -/
def okWith (b : Body) : Response := { code := .ok, body := b }

/-! ### The office port -/

/-- A request frame that has arrived whole (R162). With no request in progress it is taken: its owner acts and its response is sent at
once, ahead of BUSY answers that still wait (log entry 6). Otherwise it is answered BUSY, or discarded with the overrun count raised where four
BUSY answers already wait. The receiver then hunts (R161). -/
def officeArrival (kind tag : Nat) (act : State → State × Response) (s : State) : State :=
  let s := s.onOffice fun o => { o with reading := false }
  match s.office.current with
  | none =>
    let (s', r) := act s
    s'.onOffice fun o => { o with current := some { kind := kind, tag := tag, response := r } }
  | some _ =>
    if s.office.busy.length < Config.maxBusy then s.onOffice fun o => { o with busy := o.busy ++ [(kind, tag)] }
    else s.onOffice fun o => { o with overruns := min 255 (o.overruns + 1) }

/-- An office request: taken while the part is RUNNING. -/
def officeRequest (kind tag : Nat) (act : State → State × Response) (s : State) : Host.Outcome State Fault Refusal :=
  whileRunning (officeArrival kind tag act) s

/-- A request that changes nothing and answers from the state. -/
def answering (f : State → Response) (s : State) : State × Response := (s, f s)

/-! ### The service link -/

/-- The link takes frames: the latched SVC strap is high (R169). -/
def linkEnabled (s : State) : Bool := s.supply.straps.svc

/-- A whole service frame (R170): taken where no request is in progress, its response ahead of BUSY answers that still wait (log entry 6),
else answered BUSY, or discarded behind four BUSY answers. While the link is disabled every frame is ignored (R169). `act` gives the response with its effect. -/
def serviceArrival (identity kind tag : Nat) (act : State → State × Response) (s : State) : State :=
  if linkEnabled s then
    let s := s.onService fun p => { p with reading := false }
    match s.service.current with
    | none =>
      let (s', r) := act s
      s'.onService fun p =>
        { p with current := some { identity := identity, kind := kind, tag := tag, response := r } }
    | some _ =>
      if s.service.busy.length < Config.maxBusy then s.onService fun p => { p with busy := p.busy ++ [(identity, kind, tag)] }
      else s
  else s

/-- The checks of identity and role of R174 (2 and 4), and then the owner's act with the sender's entry. -/
def withSender (identity : Nat) (allowed : Role → Bool) (act : RosterEntry → State → State × Response) (s : State) :
    State × Response :=
  match Table.find? identity s.roster with
  | none => (s, refusal .notAuthorised)
  | some e => if allowed e.role then act e s else (s, { code := .wrongRole, body := .role e.role })

/-- A service request: taken while the part is RUNNING and the link enabled. -/
def serviceRequest (identity kind tag : Nat) (allowed : Role → Bool) (act : RosterEntry → State → State × Response)
    (s : State) : Host.Outcome State Fault Refusal :=
  whileRunning (serviceArrival identity kind tag (withSender identity allowed act)) s

/-- The requests of each role, by kind (section 10.4, R185). -/
def roleMayAsk (kind : Nat) (role : Role) : Bool :=
  match role with
  | .officer => kind = 0x40 || kind = 0x41 || kind = 0x42
  | .collector => kind = 0x43 || kind = 0x44 || kind = 0x45
  | .engineer => kind = 0x46 || kind = 0x14 || kind = 0x47 || kind = 0x01 || kind = 0x45

/-- A kind that some role may ask: a service request (section 10.4). -/
def isServiceKind (kind : Nat) : Bool :=
  roleMayAsk kind .officer || roleMayAsk kind .collector || roleMayAsk kind .engineer

/-- A request that both ports take: from the office, or from an ENGINEER (R175). -/
def eitherPort (src : Source) (kind : Nat) (act : State → State × Response)
    (engineer : State → State × Response) (s : State) : Host.Outcome State Fault Refusal :=
  match src with
  | .office tag => officeRequest kind tag act s
  | .handheld identity tag => serviceRequest identity kind tag (roleMayAsk kind) (fun _ => engineer) s

end Sys2Proof.Machine
end

