-- ==== Sys2Proof/Machine/CashCommands.lean ====
section
/-!
DEFINITION. The Cash Unit's requests (chapter 6): DENOMINATIONS_PUT, TOLERANCE_PUT, COUNT_RESULT, ROUND_START, ROUND_LIST and
ROUND_END.
-/

namespace Sys2Proof.Machine

open Sys2Proof

/-! ### Settings -/

/-- The first offending position of a denomination list, counted from `position`, given the value before it (R95). -/
def badDenomination (before : Nat) : Nat → List Nat → Option Nat
  | _, [] => none
  | position, v :: rest =>
    if v < 1 ∨ 1000 < v ∨ v ≤ before then some position else badDenomination v (position + 1) rest

/-- How many configured terminals' tallies hold a nonzero count (R95). -/
def nonzeroTallies (s : State) : Nat := (s.terminals.filter fun e => e.2.cash.tally ≠ .zero).length

/-- A DENOMINATIONS_PUT is taken (R95). -/
def takeDenominationsPut (values : Six) (s : State) : State × Response :=
  match badDenomination 0 1 values.toList with
  | some position => (s, refusalAt .badDenominations position)
  | none =>
    if nonzeroTallies s ≠ 0 ∨ s.cash.collections ≠ [] then
      (s, { code := .denominationsInUse, body := .inUse (nonzeroTallies s) s.cash.collections.length })
    else (s.onCash fun c => { c with denominations := values }, ok)

/-- DENOMINATIONS_PUT (R95). -/
def execDenominationsPut (tag : Nat) (values : Six) (s : State) : Host.Outcome State Fault Refusal :=
  officeRequest 0x10 tag (takeDenominationsPut values) s

/-- A TOLERANCE_PUT is taken (R109). -/
def takeTolerancePut (tolerance : Nat) (s : State) : State × Response :=
  if 1000 < tolerance then (s, refusal .badTolerance) else (s.onCash fun c => { c with tolerance := tolerance }, ok)

/-- TOLERANCE_PUT (R109). -/
def execTolerancePut (tag tolerance : Nat) (s : State) : Host.Outcome State Fault Refusal :=
  officeRequest 0x11 tag (takeTolerancePut tolerance) s

/-! ### Reconciliation -/

/-- The collection record of a number. -/
def collectionOf (number : Nat) (s : State) : Option Collection := s.cash.collections.find? fun c => c.number = number

/-- The discrepancy of a record: the counted value less its expected value (R110). -/
def discrepancyOf (s : State) (c : Collection) (counted : Six) : Int :=
  (counted.value s.cash.denominations : Int) - (c.value : Int)

/-- The outcome of a record's reconciliation (R110). -/
def outcomeFor (s : State) (c : Collection) (counted : Six) : Balance :=
  balanceOf (discrepancyOf s c counted) s.cash.tolerance

/-- A record is reconciled: RECONCILED is appended, the record leaves the list, and a SHORT outcome raises CASH_SHORT where the slot is
configured (R110, R111). The RECONCILED record carries the counted counts alone (log entry 37). -/
def reconcile (c : Collection) (counted : Six) (s : State) : State :=
  let outcome := outcomeFor s c counted
  let s1 := haltChanged (salesHalted s)
    (append
      (.reconciled c.number counted c.value (counted.value s.cash.denominations) (discrepancyOf s c counted) outcome) s)
  let s2 := s1.onCash fun k => { k with collections := k.collections.filter fun x => x.number ≠ c.number }
  if outcome = .short then raiseEventFault c.slot .cashShort s2 else s2

/-- A COUNT_RESULT is taken (R110). -/
def takeCountResult (number : Nat) (counted : Six) (s : State) : State × Response :=
  match collectionOf number s with
  | none => (s, refusal .notFound)
  | some c =>
    if freeSpace s = 0 then (s, refusal .journalFull)
    else
      (reconcile c counted s,
        okWith
          (.reconciled (outcomeFor s c counted) c.value (counted.value s.cash.denominations) (discrepancyOf s c counted)))

/-- COUNT_RESULT (R110, R111). -/
def execCountResult (tag number : Nat) (counted : Six) (s : State) : Host.Outcome State Fault Refusal :=
  officeRequest 0x12 tag (takeCountResult number counted) s

/-! ### Rounds -/

/-- A ROUND_START is taken from a collector (R101). -/
def takeRoundStart (identity : Nat) (sender : RosterEntry) (s : State) : State × Response :=
  if !s.calendar.clockSet then (s, refusal .noClock)
  else
    match s.cash.round with
    | some r => (s, { code := .roundOpen, body := .roundBusy r.number r.collector })
    | none =>
      let entries := roundList s
      let n := entries.length
      if n = 0 then (s, refusal .nothingDue)
      else if !roundFits s n then (s, { code := .noSpace, body := .space n (freeCollections s) (freeSpace s) })
      else (openRound identity (sender.key.getD 0) entries s, okWith (.roundOpened s.cash.nextRound entries))

/-- ROUND_START (R101). -/
def execRoundStart (identity tag : Nat) (s : State) : Host.Outcome State Fault Refusal :=
  serviceRequest identity 0x43 tag (roleMayAsk 0x43) (takeRoundStart identity) s

/-- A round entry with its terminal's present link state, service state and tally (R94, R99). DESIGN CHOICE (log entry 38): the value that
R94 reports alongside counts is that of the tally. -/
def listedBox (s : State) (e : RoundEntry) : ListedBox :=
  match terminal s e.slot with
  | none => { entry := e, link := .absent, service := .outOfService, tallyTotal := 0, tallyValue := 0 }
  | some t =>
    { entry := e, link := t.link.state, service := t.watch.service, tallyTotal := t.cash.tally.total,
      tallyValue := t.cash.tally.value s.cash.denominations }

/-- What ROUND_LIST answers: the open round, or a preview of the list (R99). The answer holds every entry; what
its frame carries where they do not fit the 256 bytes of R169 is a free value (`Response.sent`, log entry 42). -/
def roundListAnswer (s : State) : Response :=
  match s.cash.round with
  | some r =>
    okWith
      (.roundNow r.number r.collector r.key r.start (r.start + Config.roundSeconds) (r.entries.map (listedBox s)))
  | none =>
    let entries := roundList s
    okWith (.roundPreview (entries.map (listedBox s)) entries.length (roundFits s entries.length))

/-- ROUND_LIST (R99). -/
def execRoundList (identity tag : Nat) (s : State) : Host.Outcome State Fault Refusal :=
  serviceRequest identity 0x44 tag (roleMayAsk 0x44) (fun _ => answering roundListAnswer) s

/-- A ROUND_END is taken from a collector or an engineer (R105). -/
def takeRoundEnd (identity : Nat) (sender : RosterEntry) (s : State) : State × Response :=
  match s.cash.round with
  | none => (s, refusal .noRound)
  | some r =>
    if sender.role = .collector ∧ identity ≠ r.collector then (s, refusal .notYours)
    else (closeRound r s, okWith (.roundEnded r.number (closedEntries r)))

/-- ROUND_END (R105, R107). -/
def execRoundEnd (identity tag : Nat) (s : State) : Host.Outcome State Fault Refusal :=
  serviceRequest identity 0x45 tag (roleMayAsk 0x45) (takeRoundEnd identity) s

end Sys2Proof.Machine
end

