-- ==== Sys2Proof/Machine/PermitOps.lean ====
section
/-!
DEFINITION. The allowance account and the holds of the Permit Register (R79, R85 to R91).
-/

namespace Sys2Proof.Machine

/-- The minutes of a permit's hold, or 0 (R79). -/
def heldMinutes (p : Permit) : Nat := (p.hold.map (·.minutes)).getD 0

/-- The remaining allowance: the greater of 0 and daily allowance − consumed today − held (R79; the subtraction stops at 0). -/
def remaining (p : Permit) : Nat := p.allowance - p.consumed - heldMinutes p

/-- The permit's dates, inclusive, hold a local day (R78). -/
def withinDates (p : Permit) (day : Nat) : Bool := p.firstDay ≤ day && day ≤ p.lastDay

/-- The permit's plate admits a quote's: the permit has none, or the quote carries the same one (R60, R85). -/
def plateAdmits (p : Permit) (plate : Option Plate) : Bool := p.plate = none || p.plate = plate

/-- The permit checks of a QUOTE, in order: the first that fails gives its code, else the permit's kind is handed over (R85). -/
def permitChecks (s : State) (number slot group : Nat) (plate : Option Plate) : Code ⊕ PermitKind :=
  match Table.find? number s.permits with
  | none => .inl .permitUnknown
  | some p =>
    if p.suspended || !withinDates p (today s) then .inl .permitNotValid
    else if !p.zones.contains group then .inl .permitNotInZone
    else if !plateAdmits p plate then .inl .permitPlate
    else if (p.hold.map fun h => h.owner != slot).getD false then .inl .permitBusy
    else .inr p.kind

/-- The remaining allowance that a walk takes as a0: 0 where the permit has no record or is SUSPENDED (R40, R86). -/
def walkAllowance (s : State) (number : Nat) : Nat :=
  match Table.find? number s.permits with
  | none => 0
  | some p => if p.suspended then 0 else remaining p

/-- The re-check at a walk's completion, in order: the code of the first failing check (R60, R86). -/
def recheck (s : State) (number group used : Nat) (plate : Option Plate) : Option Code :=
  match Table.find? number s.permits with
  | none => some .permitChanged
  | some p =>
    if p.suspended || !withinDates p (today s) then some .permitChanged
    else if !p.zones.contains group || !plateAdmits p plate then some .permitChanged
    else if p.hold.isSome then some .permitBusy
    else if remaining p < used then some .permitChanged
    else none

/-- The permit has a hold of this owner and quote id (R86, R89, R90). -/
def ownsHold (p : Permit) (slot quoteId : Nat) : Bool :=
  (p.hold.map fun h => h.owner == slot && h.quoteId == quoteId).getD false

/-- Place a hold (R88). -/
def placeHold (number slot quoteId minutes : Nat) (s : State) : State :=
  s.onPermits (Table.modify number fun p =>
    { p with hold := some { owner := slot, quoteId := quoteId, minutes := minutes } })

/-- Consume a hold that matches: its minutes pass to consumed today and it is removed (R89). -/
def consumeHold (number slot quoteId : Nat) (s : State) : State :=
  s.onPermits (Table.modify number fun p =>
    if ownsHold p slot quoteId then { p with consumed := p.consumed + heldMinutes p, hold := none } else p)

/-- Release a hold that matches; where none matches nothing changes (R90). -/
def releaseHold (number slot quoteId : Nat) (s : State) : State :=
  s.onPermits (Table.modify number fun p => if ownsHold p slot quoteId then { p with hold := none } else p)

/-- The permit still stands for an open quote at its CONFIRM: a record of the number is held and, where the quote used allowance,
its hold with this owner and quote id (check 6 of R66). -/
def permitStands (s : State) (number used slot quoteId : Nat) : Bool :=
  match Table.find? number s.permits with
  | none => false
  | some p => used = 0 || ownsHold p slot quoteId

/-- The day roll: consumed today becomes 0 for every permit, and holds stay (R91). -/
def clearConsumed (s : State) : State := s.onPermits (Table.mapAll fun p => { p with consumed := 0 })

/-- Every hold is released (R93). -/
def releaseAllHolds (s : State) : State := s.onPermits (Table.mapAll fun p => { p with hold := none })

end Sys2Proof.Machine
end

