-- ==== Sys2Proof/Machine/SegmentOps.lean ====
section
/-!
DEFINITION. Finding a segment (R13, R42), the sleep of a terminal and its waking (R146, R148), and the delivery of segment
boundaries (R14).
-/

namespace Sys2Proof.Machine

/-! ### Finding a segment -/

/-- The profiles and discounts of a READY plan slot. -/
def readyPlan (plans : Table PlanSlot) (p : Nat) : Option (Table (List Band) × Discounts) :=
  match Table.find? p plans with
  | some (.ready profiles discounts) => some (profiles, discounts)
  | _ => none

/-- The last band whose start minute is at or below the minute, with its index (counted from `i`) and the start of the band after
it, if there is one (R13 step 3). -/
def bandAt (minute : Nat) : Nat → List Band → Option (Nat × Band × Option Nat)
  | _, [] => none
  | i, b :: rest =>
    match bandAt minute (i + 1) rest with
    | some found => some found
    | none => if b.start ≤ minute then some (i, b, rest.head?.map (·.start)) else none

/-- The profile of a local day: HOLIDAY when the day is in the holiday list, else the weekday's (R13 step 2, R42 step 3). -/
def profileOf (holidays : List Nat) (day : Nat) : Profile :=
  if holidays.contains day then .holiday else weekdayProfile (weekday day)

/-- The plan in force at `t` for the given plan fields, and the switch time that still lies ahead of it (R13 steps 1 and 5, R42
steps 1 and 5). -/
def planAt (current : Option Nat) (pending : Option (Nat × Nat)) (t : Nat) : Option Nat × Option Nat :=
  match pending with
  | some (p, switch) => if switch ≤ t then (some p, none) else (current, some switch)
  | none => (current, none)

/-- A segment found, with its band's fields and its plan's discounts. -/
structure FoundSegment where
  segment : Segment
  band : BandKind
  discounts : Discounts
  deriving DecidableEq, Repr

/-- The kind of a band, as a segment's kind. -/
def BandKind.segKind : BandKind → SegKind
  | .charged _ _ _ _ _ => .charged
  | .free => .free
  | .noStay => .noStay

/-- The segment that contains zone time `t` under plan slot `p`: the local start of the next band, the next local midnight or the
switch time ends it, whichever is earliest (R13, R42). -/
def findUnder (plans : Table PlanSlot) (holidays : List Nat) (offset : Int) (p : Nat) (switch : Option Nat) (t : Nat) :
    Option FoundSegment :=
  match readyPlan plans p with
  | none => none
  | some (profiles, discounts) =>
    let day := localDay offset t
    let profile := profileOf holidays day
    match Table.find? profile.number profiles with
    | none => none
    | some bands =>
      match bandAt (minuteOfDay offset t) 1 bands with
      | none => none
      | some (index, band, next) =>
        let second := secondOfDay offset t
        let bandEnd := t + ((next.map (· * 60)).getD Config.daySeconds - second)
        some
          { segment :=
              { kind := band.kind.segKind, plan := p, profile := profile, band := index, day := day,
                ends := min bandEnd (switch.getD bandEnd) }
            band := band.kind
            discounts := discounts }

/-- The segment that contains `t` for given plan fields; none where no plan is found (R13, R42). -/
def findSegment (plans : Table PlanSlot) (holidays : List Nat) (offset : Int) (current : Option Nat)
    (pending : Option (Nat × Nat)) (t : Nat) : Option FoundSegment :=
  match planAt current pending t with
  | (some p, switch) => findUnder plans holidays offset p switch t
  | (none, _) => none

/-- A terminal's current segment at the present zone time; kind NONE while the clock-set flag is UNSET or no plan is found (R12,
R13). -/
def segmentNow (s : State) (f : PlanFields) : Option Segment :=
  if s.calendar.clockSet then
    (findSegment s.plans s.calendar.holidays s.calendar.offset f.current f.pending s.calendar.zoneTime).map (·.segment)
  else none

/-! ### Sleep and waking -/

/-- The segment conditions of sleep: FREE, with at least 1800 seconds to its end (R146). -/
def sleepSegment (now : Nat) : Option Segment → Bool
  | some g => g.kind = .free && now + Config.sleepSeconds ≤ g.ends
  | none => false

/-- Every condition on which a slot considered for sleep gets SLEEP (R146). -/
def maySleep (now : Nat) (t : Terminal) : Bool :=
  t.link.state = .active && (t.link.caps.map (·.keyWake)).getD false && sleepSegment now t.segment && t.quote = .none
    && t.watch.door = .closed && !holds NoticeBody.isSleep t.link.queue && !holds NoticeBody.isReset t.link.queue

/-- The Line Controller considers a slot for sleep (R146). -/
def considerSleep (slot : Nat) (s : State) : State :=
  match terminal s slot with
  | none => s
  | some t =>
    if maySleep s.calendar.zoneTime t then onQueue slot (joinQueue NoticeBody.isSleep .sleep) s else s

/-- A SLEEP still in the queue is withdrawn (R146). -/
def withdrawSleep (slot : Nat) (s : State) : State := onQueue slot (withdraw NoticeBody.isSleep) s

/-- What a boundary into the new segment does to a slot's queue: a SLEEPING slot entering CHARGED gets WAKE at the head; a WAKE is
withdrawn at a boundary into a segment that is not CHARGED; a SLEEP is withdrawn where the segment conditions no longer hold
(R146, R148). -/
def boundaryQueue (now : Nat) (state : LinkState) (segment : Option Segment) (q : List Notice) : List Notice :=
  let charged := segment.map (·.kind) = some SegKind.charged
  let q := if charged then (if state = .sleeping then joinWake q else q) else withdraw NoticeBody.isWake q
  if sleepSegment now segment then q else withdraw NoticeBody.isSleep q

/-! ### Boundaries -/

/-- A segment boundary is delivered: to the Line Controller, which wakes the slot or considers it for sleep, and to the Fault
Monitor, which recomputes the cover of its group (R14). -/
def deliverBoundary (slot : Nat) (s : State) : State :=
  match terminal s slot with
  | none => s
  | some t =>
    cover t.config.group
      (considerSleep slot (onQueue slot (boundaryQueue s.calendar.zoneTime t.link.state t.segment) s))

/-- A slot's current segment is found afresh, and a boundary delivered where it differs from the one held (R14). -/
def refind (slot : Nat) (s : State) : State :=
  match terminal s slot with
  | none => s
  | some t =>
    let found := segmentNow s t.plans
    if found = t.segment then s
    else deliverBoundary slot (onTerminal slot (fun t => { t with segment := found }) s)

/-- Every configured terminal's segment is found afresh, boundaries delivered where they differ (R6, R8). -/
def refindAll (s : State) : State := forEachSlot refind s

/-- The switch-time arrival of a slot: a pending plan whose switch time has come becomes the current plan, the pending fields
become absent and PLAN_SWITCHED is set; otherwise the arrival is discarded (R30, R31). The finding that follows is the
caller's. -/
def takeSwitch (slot : Nat) (s : State) : State :=
  match terminal s slot with
  | none => s
  | some t =>
    match t.plans.pending with
    | some (p, switch) =>
      if switch ≤ s.calendar.zoneTime then
        raise .planSwitched (onTerminal slot (fun t => { t with plans := { current := some p, pending := none } }) s)
      else s
    | none => s

end Sys2Proof.Machine
end

