-- ==== Sys2Proof/Machine/Walk.lean ====
section
/-!
DEFINITION. The tariff walk (chapter 3): its inputs, its rounds and its outcome. A pure computation: it changes nothing.
-/

namespace Sys2Proof.Machine

/-- What a walk reads and does not change (R39 to R42). -/
structure WalkInput where
  plans : Table PlanSlot
  walk : Walk

/-- The holiday list that the `i`-th segment finding of a walk reads: the lists of `past` in turn, each for its number of
findings, then the list it reads now (R41; log entries 13 and 14). -/
def readingAt (now : List Nat) : List (Nat × List Nat) → Nat → List Nat
  | [], _ => now
  | (n, days) :: rest, i => if i < n then days else readingAt now rest (i - n)

/-- The segment that contains `t`, found as the walk's finding number `i` (R42). -/
def WalkInput.find (w : WalkInput) (i t : Nat) : Option FoundSegment :=
  findSegment w.plans (readingAt w.walk.reading w.walk.past i) w.walk.offset w.walk.current w.walk.pending t

/-- Why a walk ended (R43). -/
inductive EndCause where
  | horizon | noStay | maxStay | limit | target
  deriving DecidableEq, Repr

/-- The state a walk holds (R43). `finding` counts the segments found, `lastPlan` is the plan slot of the last bought step, and `tried`
the cost of the step that was tried and not bought (R52, R59). -/
structure WalkState where
  t : Nat
  cost : Nat
  bought : Nat
  allowance : Nat
  k : Nat
  segment : Option FoundSegment
  finding : Nat
  lastPlan : Option Nat
  tried : Nat
  deriving DecidableEq, Repr

/-- The horizon h: t0 + 1440 minutes, or the last whole minute of zone time (R39). -/
def horizon (t0 : Nat) : Nat := min (t0 + 1440 * 60) Config.lastMinute

/-- The limit: A, or 65 535 (R39). -/
def walkLimit : Ask → Nat
  | .byAmount amount => amount
  | .byDuration _ => Config.maxPence

/-- The target of a BY_DURATION walk: t0 + D minutes (R39). -/
def walkTarget (t0 : Nat) : Ask → Option Nat
  | .byAmount _ => none
  | .byDuration minutes => some (t0 + minutes * 60)

/-- Move to `t`: where that is the segment's end, the next segment is found and k is set to 0 (R43). -/
def WalkInput.moveTo (w : WalkInput) (t : Nat) (g : FoundSegment) (st : WalkState) : WalkState :=
  if t = g.segment.ends then
    { st with t := t, k := 0, segment := w.find st.finding t, finding := st.finding + 1 }
  else { st with t := t }

/-- The free pass (R44): while t is before h and the segment is FREE, t moves to the segment's end or to h. `fuel` is an upper bound
on the segments that can lie between t and h, one a minute. -/
def WalkInput.freePass (w : WalkInput) (h : Nat) : Nat → WalkState → WalkState
  | 0, st => st
  | fuel + 1, st =>
    match st.segment with
    | none => st
    | some g =>
      if st.t < h ∧ g.segment.kind = .free then w.freePass h fuel (w.moveTo (min g.segment.ends h) g st) else st

/-- Enough fuel for any walk: every round and every free pass moves t by at least a minute, and h is 1440 minutes from t0. -/
def walkFuel : Nat := 1442

/-- The length of the next step in minutes (R46): the least of L, the minutes to the segment's end, the minutes to h and, where
M is greater than 0, M − B. -/
def stepMinutes (step stay toEnd toHorizon bought : Nat) : Nat :=
  let m := min step (min toEnd toHorizon)
  if 0 < stay then min m (stay - bought) else m

/-- The nominal step price c (R47). -/
def nominalPrice (price increment cap k : Nat) : Nat := min (price + increment * k) cap

/-- The discounted step price d, rounded half up (R47). -/
def discountedPrice (c percent : Nat) : Nat := (c * (100 - percent) + 50) / 100

/-- The step cost: d as a share of a whole step for the payable minutes, rounded up (R49). -/
def stepCost (d payable step : Nat) : Nat := (d * payable + step - 1) / step

/-- The discount of a plan for a permit kind; 0 where the quote names no permit (R19, R40). -/
def discountFor (d : Discounts) : Option PermitKind → Nat
  | none => 0
  | some .resident => d.resident
  | some .visitor => d.visitor
  | some .business => d.business

/-- The rounds of a walk (R44 to R50), until one sets its end cause. -/
def WalkInput.rounds (w : WalkInput) (h limit : Nat) (target : Option Nat) (kind : Option PermitKind) :
    Nat → WalkState → WalkState × EndCause
  | 0, st => (st, .horizon)
  | fuel + 1, st =>
    let st := w.freePass h walkFuel st
    if st.t = h then (st, .horizon)
    else
      match st.segment with
      | none => (st, .noStay)
      | some g =>
        match g.band with
        | .noStay => (st, .noStay)
        | .free => (st, .horizon)
        | .charged step price increment cap stay =>
          let m := stepMinutes step stay ((g.segment.ends - st.t) / 60) ((h - st.t) / 60) st.bought
          if m = 0 then (st, .maxStay)
          else
            let d := discountedPrice (nominalPrice price increment cap st.k) (discountFor g.discounts kind)
            let c := stepCost d (m - st.allowance) step
            if limit < st.cost + c then ({ st with tried := c }, .limit)
            else
              let st :=
                w.moveTo (st.t + m * 60) g
                  { st with
                    cost := st.cost + c, bought := st.bought + m, allowance := st.allowance - m, k := st.k + 1,
                    lastPlan := some g.segment.plan }
              match target with
              | none => w.rounds h limit target kind fuel st
              | some goal =>
                if goal ≤ st.t then (w.freePass h walkFuel st, .target)
                else w.rounds h limit target kind fuel st

/-- A walk's outcome (R51, R52). -/
inductive Outcome where
  | ok | clamped | noTender | noSale | belowMinimum
  deriving DecidableEq, Repr

/-- The result of a walk: its outcome and figures (R51, R52). -/
structure WalkResult where
  outcome : Outcome
  expiry : Nat
  cost : Nat
  minutes : Nat
  used : Nat
  cause : EndCause
  firstPlan : Nat
  lastPlan : Nat
  tried : Nat
  deriving DecidableEq, Repr

/-- The outcome that an end cause and the figures at the end give (R51, R52). -/
def outcomeOf (ask : Ask) (t0 : Nat) (st : WalkState) (cause : EndCause) : Outcome :=
  if cause = .noStay ∧ st.t = t0 then .noSale
  else
    match ask with
    | .byAmount _ => if st.bought = 0 then .belowMinimum else .ok
    | .byDuration _ => if cause = .target then .ok else if st.bought = 0 then .noSale else .clamped

/-- A walk from its beginning to its completion (R38, R39, R43, R51, R52). DESIGN CHOICE (log entry 41): a NO_TENDER walk, which ends
before any round and has no end cause in R39, R43 or R51, carries the cause LIMIT; nothing reads it. -/
def WalkInput.run (w : WalkInput) : WalkResult :=
  let e := w.walk.entry
  let first := w.find 0 e.start
  let firstPlan := (first.map (·.segment.plan)).getD (w.walk.current.getD 0)
  if e.ask = .byAmount 0 ∧ w.walk.a0 = 0 then
    { outcome := .noTender, expiry := e.start, cost := 0, minutes := 0, used := 0, cause := .limit, firstPlan := firstPlan,
      lastPlan := firstPlan, tried := 0 }
  else
    let (st, cause) :=
      w.rounds (horizon e.start) (walkLimit e.ask) (walkTarget e.start e.ask) (e.permit.map (·.2)) walkFuel
        { t := e.start, cost := 0, bought := 0, allowance := w.walk.a0, k := 0, segment := first, finding := 1, lastPlan := none,
          tried := 0 }
    { outcome := outcomeOf e.ask e.start st cause
      expiry := st.t
      cost := st.cost
      minutes := st.bought
      used := w.walk.a0 - st.allowance
      cause := cause
      firstPlan := firstPlan
      lastPlan := st.lastPlan.getD firstPlan
      tried := st.tried }

end Sys2Proof.Machine
end

