-- ==== Sys2Proof/Machine/QuoteOps.lean ====
section
/-!
DEFINITION. The life of a quote (chapter 4): arrival, the walk queue, completion, expiry, cancellation, CONFIRM and the sale, and
the live ticket table.
-/

namespace Sys2Proof.Machine

/-- Give a terminal's quote slot a new state. -/
def setQuote (slot : Nat) (q : QuoteSlot) (s : State) : State := onTerminal slot (fun t => { t with quote := q }) s

/-- Give a terminal a new closed quote record (R55). -/
def setClosed (slot : Nat) (c : Option ClosedQuote) (s : State) : State := onTerminal slot (fun t => { t with closed := c }) s

/-! ### The walk queue (R35 to R37) -/

/-- Where no walk is in flight and the queue is not empty, the head entry's walk begins: it takes the terminal's plan fields, the
offset and the permit's remaining allowance as they stand, and the quote slot moves to WALKING (R37, R32, R40). -/
def beginWalk (s : State) : State :=
  match s.engine.walk, s.engine.queue with
  | none, e :: rest =>
    let plans := ((terminal s e.slot).map (·.plans)).getD { current := none, pending := none }
    let walk : Walk :=
      { entry := e, current := plans.current, pending := plans.pending, offset := s.calendar.offset,
        a0 := (e.permit.map fun p => walkAllowance s p.1).getD 0, discard := false, reading := s.calendar.holidays, past := [] }
    setQuote e.slot (.walking e.quoteId) (s.onEngine fun _ => { queue := rest, walk := some walk })
  | _, _ => s

/-- Mark the walk in flight for discard, where it is the slot's (R36). -/
def markDiscard (slot : Nat) (s : State) : State :=
  s.onEngine fun e =>
    { e with walk := e.walk.map fun w => if w.entry.slot = slot then { w with discard := true } else w }

/-- Withdraw the slot's entry from the queue; the entries behind it close up (R36). -/
def withdrawEntry (slot : Nat) (s : State) : State :=
  s.onEngine fun e => { e with queue := e.queue.filter fun x => x.slot ≠ slot }

/-- An entry joins at the tail, or is rewritten in place where the slot already has one (R35). -/
def placeEntry (x : QueueEntry) (q : List QueueEntry) : List QueueEntry :=
  if q.any fun y => y.slot = x.slot then q.map fun y => if y.slot = x.slot then x else y else q ++ [x]

/-! ### Ending a quote -/

/-- A quote is released: its hold, if any, returns to the permit's remaining allowance (R90). -/
def releaseQuote (slot : Nat) (q : OpenQuote) (s : State) : State :=
  match q.permit with
  | some (number, _) => releaseHold number slot q.quoteId s
  | none => s

/-- CANCEL, and every event of R65: the quote ends in whatever stage it stands, the slot is NONE and any undelivered result notice is
withdrawn (R64). A slot becoming NONE is considered for sleep (R146). -/
def endQuote (slot : Nat) (s : State) : State :=
  match terminal s slot with
  | none => s
  | some t =>
    let s := withdrawResult slot s
    match t.quote with
    | .none => s
    | .queued _ => considerSleep slot (setQuote slot .none (withdrawEntry slot s))
    | .walking _ => considerSleep slot (setQuote slot .none (markDiscard slot s))
    | .opened q => considerSleep slot (setQuote slot .none (releaseQuote slot q s))

/-- Expiry of validity (R63): the hold returns, the slot is NONE, the closed quote record says EXPIRED, and an undelivered
QUOTE_RESULT of the quote is withdrawn. -/
def expireQuote (slot : Nat) (q : OpenQuote) (s : State) : State :=
  considerSleep slot
    (onQueue slot (withdraw (NoticeBody.isResultOf q.quoteId))
      (setClosed slot (some (.expired q.quoteId)) (setQuote slot .none (releaseQuote slot q s))))

/-! ### A QUOTE's arrival (R56, R57) -/

/-- The checks of R56 in order: the code of the first that fails, or what the quote asks for and the permit it names with its kind. -/
def quoteChecks (s : State) (slot : Nat) (t : Terminal) (kind amount permit : Nat) (plate : Plate) :
    Code ⊕ (Ask × Option (Nat × PermitKind)) :=
  if !s.calendar.clockSet then .inl .noClock
  else if salesHalted s then .inl .salesHalted
  else if t.watch.service = .outOfService then .inl .outOfService
  else
    match askOf kind amount with
    | none => .inl .badQuote
    | some ask =>
      let level := t.link.level.getD 0
      if !plateGood plate then .inl .badQuote
      else if level < 2 && kind = 2 || level < 3 && ((permitOf permit).isSome || !plate.isEmpty) then .inl .notAtLevel
      else if t.plans.current = none then .inl .noPlan
      else if ask = .byAmount 0 && permitOf permit = none then .inl .noTender
      else
        match permitOf permit with
        | none => .inr (ask, none)
        | some number =>
          match permitChecks s number slot t.config.group (plateOf plate) with
          | .inl code => .inl code
          | .inr k => .inr (ask, some (number, k))

/-- The quote id after this one, from 255 to 1 (R55). -/
def nextQuoteId (n : Nat) : Nat := if 255 ≤ n then 1 else n + 1

/-- What acceptance does to the quote that stood before (R57). -/
def supersede (slot : Nat) (q : QuoteSlot) (s : State) : State :=
  match q with
  | .none => s
  | .queued _ => s
  | .walking _ => markDiscard slot s
  | .opened q => releaseQuote slot q s

/-- A QUOTE that passed its checks is accepted: it takes its id and its t0, the closed quote record becomes absent, an undelivered
result and a SLEEP are withdrawn, and its entry is placed in the walk queue (R35, R55, R57, R146). -/
def acceptQuote (slot : Nat) (t : Terminal) (ask : Ask) (permit : Option (Nat × PermitKind)) (plate : Option Plate)
    (s : State) : State :=
  let entry : QueueEntry :=
    { slot := slot, quoteId := t.nextQuoteId, start := s.calendar.zoneTime / 60 * 60, ask := ask, permit := permit,
      plate := plate }
  let s := onTerminal slot
    (fun t => { t with quote := .queued t.nextQuoteId, nextQuoteId := nextQuoteId t.nextQuoteId, closed := none })
    (supersede slot t.quote (withdrawSleep slot (withdrawResult slot s)))
  beginWalk (s.onEngine fun e => { e with queue := placeEntry entry e.queue })

/-- A QUOTE is taken (R56, R57). A refusal changes nothing but the notice queue, where it says its code with quote id 0. -/
def takeQuote (slot kind amount permit : Nat) (plate : Plate) (s : State) : State :=
  match terminal s slot with
  | none => s
  | some t =>
    match quoteChecks s slot t kind amount permit plate with
    | .inl code => queueResult slot (.quoteResult { quoteId := 0, code := code }) s
    | .inr (ask, named) => acceptQuote slot t ask named (plateOf plate) s

/-! ### Completion of a walk (R38, R58 to R61) -/

/-- The code of a walk's outcome. -/
def Outcome.code : Outcome → Code
  | .ok => .ok
  | .clamped => .clamped
  | .noTender => .noTender
  | .noSale => .noSale
  | .belowMinimum => .belowMinimum

/-- A kept result becomes a refusal: the slot is NONE and a QUOTE_RESULT says why (R59, R60). DESIGN CHOICE (log entry 7): the QUOTE_RESULT
joins the queue before the slot is considered for sleep (R146). -/
def refuseResult (slot quoteId firstStep : Nat) (code : Code) (s : State) : State :=
  considerSleep slot
    (queueResult slot (.quoteResult { quoteId := quoteId, code := code, firstStep := firstStep }) (setQuote slot .none s))

/-- The unspent amount of a BY_AMOUNT quote: A less the charged cost (R51, R54). -/
def unspentOf (ask : Ask) (cost : Nat) : Option Nat :=
  match ask with
  | .byAmount amount => some (amount - cost)
  | .byDuration _ => none

/-- The open quote that a result makes (R54, R61). -/
def quoteOf (e : QueueEntry) (r : WalkResult) (uptime : Nat) : OpenQuote :=
  { quoteId := e.quoteId, ask := e.ask, start := e.start, expiry := r.expiry, cost := r.cost, minutes := r.minutes,
    unspent := unspentOf e.ask r.cost, clamped := r.outcome = .clamped, permit := e.permit.map fun p => (p.1, r.used),
    plate := e.plate, firstPlan := r.firstPlan, lastPlan := r.lastPlan, completedAt := uptime,
    validUntil := uptime + Config.quoteValidity }

/-- A kept OK or CLAMPED result opens the quote: a hold of the allowance used is placed where that is greater than 0, the slot is
OPEN, and a QUOTE_RESULT carries the terms (R61, R88). -/
def openQuote (e : QueueEntry) (r : WalkResult) (s : State) : State :=
  let s :=
    match e.permit with
    | some (number, _) => if 0 < r.used then placeHold number e.slot e.quoteId r.used s else s
    | none => s
  queueResult e.slot
    (.quoteResult
      { quoteId := e.quoteId, code := r.outcome.code, start := e.start, expiry := r.expiry, cost := r.cost,
        unspent := (unspentOf e.ask r.cost).getD 0, minutes := r.minutes, allowance := r.used,
        validity := Config.quoteValidity })
    (setQuote e.slot (.opened (quoteOf e r s.calendar.uptime)) s)

/-- A result that is kept is taken by R59, R60 and R61 in turn. -/
def keepResult (e : QueueEntry) (group : Nat) (r : WalkResult) (s : State) : State :=
  match r.outcome with
  | .noTender => refuseResult e.slot e.quoteId 0 .noTender s
  | .noSale => refuseResult e.slot e.quoteId 0 .noSale s
  | .belowMinimum => refuseResult e.slot e.quoteId r.tried .belowMinimum s
  | _ =>
    match e.permit with
    | none => openQuote e r s
    | some (number, _) =>
      match recheck s number group r.used e.plate with
      | some code => refuseResult e.slot e.quoteId 0 code s
      | none => openQuote e r s

/-- The walk in flight completes: its result is handed over, dropped where it is marked for discard and kept otherwise, the walk is
cleared, and the next one begins (R38, R58). -/
def completeWalk (w : Walk) (s : State) : State :=
  let handed :=
    if w.discard then s
    else
      match terminal s w.entry.slot with
      | none => s
      | some t => keepResult w.entry t.config.group (WalkInput.run { plans := s.plans, walk := w }) s
  beginWalk (handed.onEngine fun e => { e with walk := none })

/-! ### The live ticket table (R71 to R73) -/

/-- The earliest expiry of a table. -/
def earliestExpiry : List LiveTicket → Nat
  | [] => 0
  | [x] => x.expiry
  | x :: y :: rest => min x.expiry (earliestExpiry (y :: rest))

/-- Remove the entry with the earliest expiry; among equal ones the one added earliest (R72). -/
def evict (live : List LiveTicket) : List LiveTicket := live.eraseP fun x => x.expiry = earliestExpiry live

/-- A ticket is added: an entry of the same number is removed first, then one entry where the table is full (R72). -/
def addTicket (x : LiveTicket) (live : List LiveTicket) : List LiveTicket :=
  let others := live.filter fun y => y.ticket ≠ x.ticket
  (if Config.maxLiveTickets ≤ others.length then evict others else others) ++ [x]

/-- The minute roll at zone time `now`: every entry whose expiry plus the grace is at or before it is removed (R73). -/
def pruneTickets (now grace : Nat) (live : List LiveTicket) : List LiveTicket :=
  live.filter fun x => now < x.expiry + grace * 60

/-- A minute roll (R9, R73). -/
def minuteRoll (s : State) : State :=
  s.onSales fun q => { q with live := pruneTickets s.calendar.zoneTime q.grace q.live }

/-! ### CONFIRM and the sale (R66 to R70) -/

/-- The tender value under the denomination list (R67). -/
def tenderValue (s : State) (coins : Six) (card : Nat) : Nat := coins.value s.cash.denominations + card

/-- Check 4: for BY_AMOUNT the value equals A; for BY_DURATION it is at least the charged cost and not above 65 535 (R67). -/
def tenderFits (q : OpenQuote) (value : Nat) : Bool :=
  match q.ask with
  | .byAmount amount => value = amount
  | .byDuration _ => q.cost ≤ value && value ≤ Config.maxPence

/-- Check 5: every method that the tender uses is usable (R67). -/
def methodsUsable (t : Terminal) (coins : Six) (card : Nat) : Bool :=
  (coins = .zero || cashUsable t) && (card = 0 || cardUsable t)

/-- The checks of R66 on an OPEN slot, in order: the code of the first that fails. -/
def confirmChecks (s : State) (slot : Nat) (t : Terminal) (q : OpenQuote) (quoteId : Nat) (coins : Six) (card : Nat) :
    Option Code :=
  if quoteId ≠ q.quoteId then some .quoteUnknown
  else if q.validUntil ≤ s.calendar.uptime then some .quoteExpired
  else if salesHalted s then some .salesHalted
  else if t.watch.service = .outOfService then some .outOfService
  else if !tenderFits q (tenderValue s coins card) then some .tenderMismatch
  else if !methodsUsable t coins card then some .tenderRefused
  else
    match q.permit with
    | none => none
    | some (number, used) => if permitStands s number used slot q.quoteId then none else some .permitRevoked

/-- The ticket number after this one, from 999 999 to 1 (R69). -/
def nextTicket (n : Nat) : Nat := if Config.maxTicket ≤ n then 1 else n + 1

/-- The silence sample's new estimate (R128): s is the lesser of the counter and 14 400, and E moves by (s − E) div 8, truncated toward
zero. -/
def newEstimate (estimate : Option Nat) (counter : Nat) : Nat :=
  let sample := min counter Config.silenceEstimateMax
  match estimate with
  | none => sample
  | some e => ((e : Int) + ((sample : Int) - (e : Int)).tdiv 8).toNat

/-- The silence limit (R128). -/
def silenceLimit : Option Nat → Nat
  | none => Config.silenceLimitMin
  | some e => min Config.silenceEstimateMax (max Config.silenceLimitMin (4 * e))

/-- The silence sample: the estimate takes it, the counter is reset and SILENT ends (R128). -/
def silenceSample (slot : Nat) (s : State) : State :=
  conditionEnds slot .silent
    (onWatch slot (fun w => { w with estimate := some (newEstimate w.estimate w.silence), silence := 0 }) s)

/-- The Cash Unit's part of a sale: tally and lifetime accepted gain the coins, the card total the card amount (R96). DESIGN CHOICE (log
entry 39): the lifetime counts and the card total run on past the range of R96, which gives neither a wrap nor a stop. -/
def CashFields.sale (c : CashFields) (coins : Six) (card : Nat) : CashFields :=
  { c with tally := c.tally.add coins, accepted := c.accepted.add coins, cardTotal := c.cardTotal + card }

/-- BOX_FULL is evaluated for a slot and reported (R97). -/
def evaluateBox (slot : Nat) (s : State) : State :=
  match terminal s slot with
  | none => s
  | some t => reportCondition slot .boxFull (boxFull t) s

/-- The unspent amount of a sale: A − charged cost, or tender value − charged cost (R70). -/
def saleUnspent (q : OpenQuote) (value : Nat) : Nat :=
  match q.ask with
  | .byAmount amount => amount - q.cost
  | .byDuration _ => value - q.cost

/-- The SALE record's body (R70). -/
def saleBody (slot ticket : Nat) (q : OpenQuote) (coins : Six) (card value : Nat) : SaleBody :=
  { slot := slot, ticket := ticket, byDuration := q.unspent = none, start := q.start, expiry := q.expiry, cost := q.cost,
    coins := coins, card := card, unspent := saleUnspent q value, permit := q.permit.map (·.1),
    allowance := (q.permit.map (·.2)).getD 0, firstPlan := q.firstPlan, lastPlan := q.lastPlan, plate := q.plate }

/-- The sale's hold is consumed (R70, R89). -/
def consumeQuoteHold (slot : Nat) (q : OpenQuote) (s : State) : State :=
  match q.permit with
  | some (number, _) => consumeHold number slot q.quoteId s
  | none => s

/-- A CONFIRM that is SOLD: the effects of R70 in the order of its list, then the consideration for sleep (log entry 7). -/
def sell (slot : Nat) (t : Terminal) (q : OpenQuote) (coins : Six) (card : Nat) (s : State) : State :=
  let ticket := s.sales.nextTicket
  let value := tenderValue s coins card
  let unspent := saleUnspent q value
  let s := s.onSales fun x => { x with nextTicket := nextTicket x.nextTicket }
  let s := haltChanged (salesHalted s) (append (.sale (saleBody slot ticket q coins card value)) s)
  let s := onTerminal slot (fun t => { t with cash := t.cash.sale coins card }) s
  let s := if coins = .zero then s else evaluateBox slot s
  let s := consumeQuoteHold slot q s
  let s := s.onSales fun x =>
    { x with
      live := addTicket
        { ticket := ticket, slot := slot, group := t.config.group, start := q.start, expiry := q.expiry,
          permit := q.permit.map (·.1), plate := q.plate } x.live }
  let s := silenceSample slot s
  let s := setClosed slot (some (.sold q.quoteId ticket q.start q.expiry q.cost unspent)) (setQuote slot .none s)
  considerSleep slot
    (queueResult slot
      (.saleResult
        { quoteId := q.quoteId, code := .sold, ticket := ticket, start := q.start, expiry := q.expiry, cost := q.cost,
          unspent := unspent }) s)

/-- A SALE_RESULT that only says a code (R66; it carries the quote id of the CONFIRM, log entry 24). -/
def refuseSale (slot quoteId : Nat) (code : Code) (s : State) : State :=
  queueResult slot (.saleResult { quoteId := quoteId, code := code }) s

/-- A CONFIRM on a slot in NONE is answered from the closed quote record (R66). -/
def confirmClosed (slot quoteId : Nat) (closed : Option ClosedQuote) (s : State) : State :=
  match closed with
  | some (.sold i ticket start expiry cost unspent) =>
    if i = quoteId then
      queueResult slot
        (.saleResult
          { quoteId := quoteId, code := .sold, ticket := ticket, start := start, expiry := expiry, cost := cost,
            unspent := unspent }) s
    else refuseSale slot quoteId .quoteUnknown s
  | some (.expired i) => refuseSale slot quoteId (if i = quoteId then .quoteExpired else .quoteUnknown) s
  | none => refuseSale slot quoteId .quoteUnknown s

/-- A CONFIRM is taken (R66). -/
def takeConfirm (slot quoteId : Nat) (coins : Six) (card : Nat) (s : State) : State :=
  match terminal s slot with
  | none => s
  | some t =>
    match t.quote with
    | .none => confirmClosed slot quoteId t.closed s
    | .queued _ => refuseSale slot quoteId .quotePending s
    | .walking _ => refuseSale slot quoteId .quotePending s
    | .opened q =>
      match confirmChecks s slot t q quoteId coins card with
      | none => sell slot t q coins card s
      | some .quoteExpired => refuseSale slot quoteId .quoteExpired (expireQuote slot q s)
      | some code => refuseSale slot quoteId code s

end Sys2Proof.Machine
end

