-- ==== Sys2Proof/Machine/LinkOps.lean ====
section
/-!
DEFINITION. Link states (R138, R139), enrolment (R143, R144), sleep and waking (R147, R149), the jabber bar (R145), and what
a status word does (R121 to R123, R152).
-/

namespace Sys2Proof.Machine

/-! ### Leaving a called state -/

/-- The link fields on entering ABSENT, LOST or BARRED (R137 to R139, R145): the level and the capability set become absent with
ABSENT, the miss count is 0 on ABSENT and LOST, the queue is emptied, and the link-lost deadline starts where the slot comes from
a called state and stands otherwise. DESIGN CHOICE (log entry 43): a jabber adds nothing to the miss count. -/
def Link.leave (l : Link) (uptime : Nat) (new : LinkState) : Link :=
  { state := new
    level := if new = .absent then none else l.level
    caps := if new = .absent then none else l.caps
    misses := if new = .barred then l.misses else 0
    barExpiry := if new = .barred then some (uptime + Config.barSeconds) else none
    lostDeadline := if l.state.called then some (uptime + Config.linkLostDelay) else l.lostDeadline
    queue := []
    timeOwed := false }

/-- A slot enters ABSENT, LOST or BARRED: its quote in progress ends, its queue is emptied and the Fault Monitor is told (R65,
R139). -/
def leaveTo (slot : Nat) (new : LinkState) (s : State) : State :=
  deriveService slot (endQuote slot (onLink slot (fun l => l.leave s.calendar.uptime new) s))

/-- The called slot is barred (R145). -/
def barSlot (slot : Nat) (s : State) : State := conditionRises slot .jabber (leaveTo slot .barred s)

/-- The bar ends: ABSENT, the bar expiry absent, and the end of JABBER reported (R145, R153). -/
def endBar (slot : Nat) (s : State) : State := conditionEnds slot .jabber (leaveTo slot .absent s)

/-! ### Enrolment, sleep and waking -/

/-- The link fields at the sending of a GRANT (R143). -/
def Link.granted (form : OfferForm) : Link :=
  { state := .granted, level := some (chosenLevel form), caps := some (offerTerms form).1, misses := 0, barExpiry := none,
    lostDeadline := none, queue := [], timeOwed := false }

/-- A GRANT is sent to the slot: a slot in ACTIVE or SLEEPING first leaves its state, its quote ended and its notices emptied (R141);
the last reported values become absent, and the end of LINK_LOST is reported (R121, R139, R143). -/
def grantSlot (slot : Nat) (form : OfferForm) (s : State) : State :=
  let s := onLink slot (fun _ => Link.granted form) s
  let s := endQuote slot s
  let s := onWatch slot (fun w => { w with lastReports := none, lastPower := none }) s
  deriveService slot (conditionEnds slot .linkLost s)

/-- What follows the status word of an ACCEPT at the negotiated level (R144): the service state is derived, with a SERVICE notice where the
slot is now in service, a TIME owed is queued, and the slot is considered for sleep. -/
def acceptSlot (slot : Nat) (owed : Bool) (s : State) : State :=
  let s := deriveService slot s
  considerSleep slot (if owed then queueTime slot s else s)

/-- The slot becomes SLEEPING; it keeps its queue, level and capabilities, and its miss count is 0 (R147). A SLEEP that joined anew while
the one that rode was under way goes: SLEEP stands in an ACTIVE slot's queue alone (R150; log entry 36). -/
def fallAsleep (slot : Nat) (s : State) : State :=
  deriveService slot
    (onLink slot (fun l => { l with state := .sleeping, misses := 0, queue := withdraw NoticeBody.isSleep l.queue }) s)

/-- The slot becomes ACTIVE from SLEEPING: a WAKE left is withdrawn, the slot is considered for sleep and the Fault Monitor is
told (R149). -/
def wakeSlot (slot : Nat) (s : State) : State :=
  deriveService slot
    (considerSleep slot
      (onLink slot (fun l => { l with state := .active, queue := withdraw NoticeBody.isWake l.queue }) s))

/-! ### The status word (R121 to R123) -/

/-- The four filtered reports. -/
inductive ReportKind where
  | paperLow | paperOut | coinJam | cardFault
  deriving DecidableEq, Repr

def Reports.get (r : Reports) : ReportKind → Bool
  | .paperLow => r.paperLow
  | .paperOut => r.paperOut
  | .coinJam => r.coinJam
  | .cardFault => r.cardFault

def Reports.set (r : Reports) (v : Bool) : ReportKind → Reports
  | .paperLow => { r with paperLow := v }
  | .paperOut => { r with paperOut := v }
  | .coinJam => { r with coinJam := v }
  | .cardFault => { r with cardFault := v }

/-- The matching fault of a report (R121). -/
def ReportKind.fault : ReportKind → FaultKind
  | .paperLow => .paperLow
  | .paperOut => .paperOut
  | .coinJam => .coinJam
  | .cardFault => .cardFault

/-- Step 1 of R121 for one report: where it equals the last reported value and differs from the filtered one, the filtered value
takes it and the matching condition rises or ends. -/
def takeReport (slot : Nat) (k : ReportKind) (report : Bool) (s : State) : State :=
  match terminal s slot with
  | none => s
  | some t =>
    if t.watch.lastReports.map (·.get k) = some report ∧ report ≠ t.watch.filtered.get k then
      reportCondition slot k.fault report (onWatch slot (fun w => { w with filtered := w.filtered.set report k }) s)
    else s

/-- The four reports of a status word (R121). DESIGN CHOICE (log entry 8): they are taken in the order in which R121 names them. -/
def takeReports (slot : Nat) (r : Reports) (s : State) : State :=
  let s := takeReport slot .paperLow r.paperLow s
  let s := takeReport slot .paperOut r.paperOut s
  let s := takeReport slot .coinJam r.coinJam s
  let s := takeReport slot .cardFault r.cardFault s
  onWatch slot (fun w => { w with lastReports := some r }) s

/-- The filter of the power class: it takes a class that two consecutive status words report, and POWER_LOW is present while it is
LOW (R122). -/
def filterPower (slot : Nat) (c : PowerClass) (s : State) : State :=
  match terminal s slot with
  | none => s
  | some t =>
    let s := onWatch slot (fun w => { w with lastPower := some c }) s
    if t.watch.lastPower = some c ∧ c ≠ t.watch.power then
      reportCondition slot .powerLow (c = .low) (onWatch slot (fun w => { w with power := c }) s)
    else s

/-- POWER_CRITICAL's hysteresis (R122): CRITICAL sets the clear run to 0 and the condition rises at once; OK or LOW adds one while the
condition is present, and at 10 it ends, the clear run standing at 0 again while it is absent (log entry 8). -/
def criticalRun (slot : Nat) (c : PowerClass) (s : State) : State :=
  match terminal s slot with
  | none => s
  | some t =>
    if c = .critical then conditionRises slot .powerCritical (onWatch slot (fun w => { w with clearRun := 0 }) s)
    else if t.watch.faults.present .powerCritical then
      if Config.clearRunMax ≤ t.watch.clearRun + 1 then
        conditionEnds slot .powerCritical (onWatch slot (fun w => { w with clearRun := 0 }) s)
      else onWatch slot (fun w => { w with clearRun := w.clearRun + 1 }) s
    else s

/-- An opening (R123): the quote in progress ends, a SLEEP is withdrawn (R146), the Cash Unit acts on a collector's key (R102), DOOR_FORCED
rises where there was no key, and the service state is derived afresh. -/
def openDoor (slot : Nat) (key : DoorKey) (s : State) : State :=
  let s := onWatch slot (fun w => { w with door := .opened key }) s
  let s := endQuote slot (withdrawSleep slot s)
  let s :=
    match key with
    | .collector n => collectorOpening slot n s
    | .none => conditionRises slot .doorForced s
    | .engineer => s
  deriveService slot s

/-- A closing (R123): DOOR_FORCED ends if it was present, the service state is derived afresh, and the slot is considered for sleep
(R146). DESIGN CHOICE (log entry 7): in that order, so a SERVICE notice joins the queue before a SLEEP. -/
def closeDoor (slot : Nat) (s : State) : State :=
  let s := onWatch slot (fun w => { w with door := .closed }) s
  considerSleep slot (deriveService slot (conditionEnds slot .doorForced s))

/-- The door of a status word is compared with the held one; the same state changes nothing, whatever the key (R123). -/
def takeDoor (slot : Nat) (reported : Door) (s : State) : State :=
  match terminal s slot with
  | none => s
  | some t =>
    match t.watch.door, reported with
    | .closed, .opened key => openDoor slot key s
    | .opened _, .closed => closeDoor slot s
    | _, _ => s

/-- The status word is handed to the Fault Monitor: the reports, the power class and the door, in the order of R121 to R123 (log
entry 8). -/
def takeStatus (slot : Nat) (w : StatusWord) (s : State) : State :=
  takeDoor slot w.door (criticalRun slot w.power (filterPower slot w.power (takeReports slot w.reports s)))

end Sys2Proof.Machine
end

