-- ==== Sys2Proof/Machine/CalendarOps.lean ====
section
/-!
DEFINITION. The Calendar's events: the day roll (R10), a jump of the clock (R6), the end of a second and the wrap of zone time (R1, R3,
R127), and due deadlines (R11).
-/

namespace Sys2Proof.Machine

/-- A day roll is due: the clock is set and the local day is past the last-rolled date (R10). -/
def dayRollDue (s : State) : Bool :=
  s.calendar.clockSet && (s.calendar.lastRolled.map fun d => decide (d < today s)).getD false

/-- A day roll (R10): the last-rolled date, the holiday list's past entries, consumed today (R91), and TIME notices. -/
def dayRoll (s : State) : State :=
  timeForAll
    (clearConsumed
      (s.onCalendar fun c =>
        { c with lastRolled := some (today s), holidays := c.holidays.filter fun d => today s ≤ d }))

/-- The registered deadline is at or before the present zone time (R11). -/
def deadlineDue (s : State) : Bool :=
  (s.calendar.deadline.map fun d => decide (d ≤ s.calendar.zoneTime)).getD false

/-- Deliver the deadline where it is due (R11). -/
def deliverIfDue (s : State) : State := if deadlineDue s then deliverDeadline s else s

/-- The last-rolled date after a set: the new local day where it was absent, moved by one day roll where the new day is greater, and
unchanged otherwise (R6 step 3). -/
def rollAfterSet (s : State) : State :=
  match s.calendar.lastRolled with
  | none => s.onCalendar fun c => { c with lastRolled := some (today s) }
  | some d => if d < today s then dayRoll s else s

/-- An accepted CLOCK_SET: a jump of the zone clock, its seven effects in the order of R6. The covers that the fresh segments derive
(step 4) come before the service states that a change of the clock-set flag derives (R126, R130): DESIGN CHOICE, log entry 7. -/
def setClock (time : Nat) (offset : Int) (s : State) : State :=
  let s := s.onCalendar fun c => { c with zoneTime := time, offset := offset, clockSet := true }
  let s := rollAfterSet (forEachSlot takeSwitch s)
  let s := timeForAll (deriveAll (refindAll s))
  deliverIfDue (minuteRoll s)

/-- The silence counters at the end of a second of uptime: one more where the segment is CHARGED and the terminal is in service, up to
86 400 (R127). -/
def countSilence (t : Terminal) : Terminal :=
  if t.segment.map (·.kind) = some .charged ∧ t.watch.service ≠ .outOfService ∧ t.watch.silence < Config.silenceCounterMax then
    { t with watch := { t.watch with silence := t.watch.silence + 1 } }
  else t

/-- Zone time becomes 0 and the clock becomes unset (R1, R4): the last-rolled date is absent, every segment has kind NONE with
boundaries delivered, service and cover are derived, the registered deadline is delivered, and the live ticket table is
emptied. DESIGN CHOICE (log entry 7): in that order, so the COVER_CHANGE records come before the ROUND_CLOSED. -/
def wrapZoneTime (s : State) : State :=
  let s := refresh (s.onCalendar fun c => { c with zoneTime := 0, clockSet := false, lastRolled := none })
  let s := deriveAll (refindAll s)
  let s := if s.calendar.deadline.isSome then deliverDeadline s else s
  s.onSales fun q => { q with live := [] }

/-- The zone clock advances by one second, or wraps (R1). -/
def advanceZoneTime (s : State) : State :=
  if s.calendar.zoneTime = Config.maxZoneTime then wrapZoneTime s
  else s.onCalendar fun c => { c with zoneTime := c.zoneTime + 1 }

/-- The end of a second while the part is RUNNING: silence counters, uptime, zone clock (R1, R3, R127). -/
def endSecond (s : State) : State :=
  advanceZoneTime ((s.onTerminals (Table.mapAll countSilence)).onCalendar fun c => { c with uptime := c.uptime + 1 })

/-- Zone time wraps in BACKUP (R1, R4): zone time 0, the clock unset, the last-rolled date absent, every segment of kind NONE, and no
live ticket. The registered deadline stands as R177 has it, and the next start's catch-up delivers it (log entry 16). -/
def wrapInBackup (s : State) : State :=
  ((s.onCalendar fun c => { c with zoneTime := 0, clockSet := false, lastRolled := none }).onTerminals
    (Table.mapAll fun t => { t with segment := none })).onSales fun q => { q with live := [] }

/-- The end of a second in BACKUP: the zone clock alone counts, on the cell, and no event is delivered (R1, R3, R177). -/
def endSecondInBackup (s : State) : State :=
  if s.calendar.zoneTime = Config.maxZoneTime then wrapInBackup s
  else s.onCalendar fun c => { c with zoneTime := c.zoneTime + 1 }

/-- A HOLIDAYS_PUT falls into the walk in flight: from here on the walk reads the new list. How many segments it has found under the
list before is a free value, at least one where that list is the one it began with (R41, R43; log entry 13). -/
def holidaysDuringWalk (days : List Nat) (s : State) : State :=
  match s.engine.walk with
  | none => s
  | some w =>
    let found := Config.walkFindings s.freeIndex + (if w.past = [] then 1 else 0)
    (s.onEngine fun e => { e with walk := some { w with past := w.past ++ [(found, w.reading)], reading := days } }).setFreeIndex
      (s.freeIndex + 1)

/-- An accepted HOLIDAYS_PUT: the list is replaced whole and every segment is found afresh (R8). -/
def putHolidays (days : List Nat) (s : State) : State :=
  refindAll (holidaysDuringWalk days (s.onCalendar fun c => { c with holidays := days }))

end Sys2Proof.Machine
end

