-- ==== Sys2Proof/Machine/Clock.lean ====
section
/-!
DEFINITION. The Calendar's commands (chapter 1): CLOCK_SET, CLOCK_GET, HOLIDAYS_PUT, and the events of time.
-/

namespace Sys2Proof.Machine

open Sys2Proof

/-! ### Setting and reading the clock -/

/-- The checks of a CLOCK_SET that may be taken, in order (R5): the zone time, then the offset. -/
def clockRefusal (time : Nat) (offset : Int) : Option Code :=
  if time < Config.minSetTime ∨ Config.maxSetTime < time then some .badTime
  else if offset < -840 ∨ 840 < offset ∨ offset % 15 ≠ 0 then some .badOffset
  else none

/-- A day roll is taken by a set to this time and offset: the last-rolled date is present and the new local day is past it (R6). -/
def rollsAtSet (time : Nat) (offset : Int) (s : State) : Bool :=
  (s.calendar.lastRolled.map fun d => decide (d < localDay offset time)).getD false

/-- A CLOCK_SET that may be taken (R5, R6). -/
def takeClockSet (time : Nat) (offset : Int) (s : State) : State × Response :=
  match clockRefusal time offset with
  | some code => (s, refusal code)
  | none =>
    (setClock time offset s,
      okWith (.clockWas s.calendar.zoneTime time (localDay offset time) (rollsAtSet time offset s)))

/-- An engineer's CLOCK_SET is taken only while the clock-set flag is UNSET (R5). -/
def engineerClockSet (time : Nat) (offset : Int) (s : State) : State × Response :=
  if s.calendar.clockSet then (s, refusal .clockHeld) else takeClockSet time offset s

/-- CLOCK_SET, from either port (R5, R6, R175). -/
def execClockSet (src : Source) (time : Nat) (offset : Int) (s : State) : Host.Outcome State Fault Refusal :=
  eitherPort src 0x01 (takeClockSet time offset) (engineerClockSet time offset) s

/-- What CLOCK_GET answers (R7). -/
def clockAnswer (s : State) : Response :=
  okWith
    (.clock s.calendar.zoneTime s.calendar.offset s.calendar.clockSet s.calendar.uptime (today s) (weekday (today s))
      s.calendar.lastRolled)

/-- CLOCK_GET (R7). -/
def execClockGet (tag : Nat) (s : State) : Host.Outcome State Fault Refusal :=
  officeRequest 0x02 tag (answering clockAnswer) s

/-! ### The holiday list -/

/-- The position of the first offending entry of a list, counted from `position`, given the entry before it (R8). A 33rd entry
offends by its position (log entry 25). -/
def badHoliday (before : Nat) : Nat → List Nat → Option Nat
  | _, [] => none
  | position, d :: rest =>
    if Config.maxHolidays < position ∨ d < 1 ∨ Config.maxLocalDay < d ∨ d ≤ before then some position
    else badHoliday d (position + 1) rest

/-- A HOLIDAYS_PUT is taken (R8). -/
def takeHolidaysPut (days : List Nat) (s : State) : State × Response :=
  match badHoliday 0 1 days with
  | some position => (s, refusalAt .badList position)
  | none => (putHolidays days s, ok)

/-- HOLIDAYS_PUT (R8). -/
def execHolidaysPut (tag : Nat) (days : List Nat) (s : State) : Host.Outcome State Fault Refusal :=
  officeRequest 0x03 tag (takeHolidaysPut days) s

/-! ### Time -/

/-- SECOND_TICK: a second ends (R1, R3, R127). In BACKUP the zone clock alone counts (R177). -/
def execSecondTick (s : State) : Host.Outcome State Fault Refusal :=
  .next (if s.supply.part = .running then endSecond s else endSecondInBackup s)

/-- ZONE_TIME_WRAP: the second that ends with zone time at its greatest value (R1, R4). At any other zone time it is not due. -/
def execZoneTimeWrap (s : State) : Host.Outcome State Fault Refusal :=
  .next
    (if s.calendar.zoneTime = Config.maxZoneTime then
      (if s.supply.part = .running then endSecond s else endSecondInBackup s)
    else s)

/-- MINUTE_ROLL, due while zone time is a multiple of 60 (R9, R73). -/
def execMinuteRoll (s : State) : Host.Outcome State Fault Refusal :=
  whileRunning (fun s => if s.calendar.zoneTime % 60 = 0 then minuteRoll s else s) s

/-- DAY_ROLL, due while the clock is set and the local day is past the last-rolled date (R10). -/
def execDayRoll (s : State) : Host.Outcome State Fault Refusal :=
  whileRunning (fun s => if dayRollDue s then dayRoll s else s) s

/-- A slot's segment boundary is due: the clock is set and zone time has reached the end of the segment held (R4, R14). -/
def boundaryDue (slot : Nat) (s : State) : Bool :=
  s.calendar.clockSet
    && (((terminal s slot).bind (·.segment)).map fun g => decide (g.ends ≤ s.calendar.zoneTime)).getD false

/-- SEGMENT_BOUNDARY of a slot (R14). -/
def execSegmentBoundary (slot : Nat) (s : State) : Host.Outcome State Fault Refusal :=
  whileRunning (fun s => if boundaryDue slot s then refind slot s else s) s

/-- A slot's switch time has come, with the clock set (R15, R30). -/
def switchDue (slot : Nat) (s : State) : Bool :=
  s.calendar.clockSet
    && (((terminal s slot).bind (·.plans.pending)).map fun p => decide (p.2 ≤ s.calendar.zoneTime)).getD false

/-- SWITCH_TIME_ARRIVAL of a slot: the switch is taken and the segment found afresh, or the arrival is discarded (R15, R30). -/
def execSwitchTimeArrival (slot : Nat) (s : State) : Host.Outcome State Fault Refusal :=
  whileRunning (fun s => if switchDue slot s then refind slot (takeSwitch slot s) else s) s

/-- ROUND_AUTO_CLOSE: the registered deadline is delivered once zone time has reached it (R11, R106). -/
def execRoundAutoClose (s : State) : Host.Outcome State Fault Refusal := whileRunning deliverIfDue s

end Sys2Proof.Machine
end

