-- ==== Sys2Proof/Machine/Faults.lean ====
section
/-!
DEFINITION. The Fault Monitor's requests (chapter 7): FAULT_LIST, TERMINAL_STATUS, FAULT_ACK, GROUP_STATUS and GROUP_CHECK.
-/

namespace Sys2Proof.Machine

open Sys2Proof

/-! ### Fault states -/

/-- What FAULT_LIST and TERMINAL_STATUS tell of a configured slot (R120). -/
def faultView (t : Terminal) : FaultView :=
  { faults := faultKinds.map fun k => (t.watch.faults.get k, t.watch.faults.present k)
    service := t.watch.service
    impacts := impacts t.watch.faults
    power := t.watch.power
    clearRun := t.watch.clearRun
    filtered := t.watch.filtered
    door := t.watch.door
    silence := t.watch.silence
    estimate := t.watch.estimate
    limit := silenceLimit t.watch.estimate }

/-- The checks of FAULT_LIST and TERMINAL_STATUS, and the answer that `body` gives for a configured slot (R120). -/
def slotAnswer (body : Terminal → Body) (slot : Nat) (s : State) : Response :=
  if !slotNumber slot then refusal .badSlot
  else
    match terminal s slot with
    | none => okWith .slotIsEmpty
    | some t => okWith (body t)

/-- FAULT_LIST (R120). -/
def execFaultList (tag slot : Nat) (s : State) : Host.Outcome State Fault Refusal :=
  officeRequest 0x13 tag (answering (slotAnswer (fun t => .faults (faultView t)) slot)) s

/-- TERMINAL_STATUS (R120). -/
def execTerminalStatus (identity tag slot : Nat) (s : State) : Host.Outcome State Fault Refusal :=
  serviceRequest identity 0x46 tag (roleMayAsk 0x46)
    (fun _ => answering (slotAnswer (fun t => .terminalStatus (faultView t) t.link.state) slot)) s

/-! ### Acknowledgement -/

/-- An acknowledgement is applied to one fault (R116, R117, R119): ACTIVE goes to HELD and LATCHED to CLEAR, and the service state is
derived afresh; CLEAR and HELD are answered ALREADY. -/
def acknowledge (slot : Nat) (k : FaultKind) (t : Terminal) (s : State) : State × Response :=
  let before := (t.watch.faults.get k).state
  let after := before.acknowledge
  if after = before then (s, { code := .already, body := .faultState before })
  else (deriveService slot (setFault slot k after s), okWith (.faultState after))

/-- A FAULT_ACK is taken (R119). -/
def takeFaultAck (slot fault : Nat) (s : State) : State × Response :=
  if !slotNumber slot then (s, refusal .badSlot)
  else
    match terminal s slot with
    | none => (s, refusal .slotEmpty)
    | some t =>
      match faultKindOf fault with
      | none => (s, refusal .badFault)
      | some k => acknowledge slot k t s

/-- FAULT_ACK, from either port (R119, R175). -/
def execFaultAck (src : Source) (slot fault : Nat) (s : State) : Host.Outcome State Fault Refusal :=
  eitherPort src 0x14 (takeFaultAck slot fault) (takeFaultAck slot fault) s

/-! ### Bay groups -/

/-- What GROUP_STATUS tells of one group (R132). -/
def groupView (s : State) (g : Nat) (r : GroupRecord) : GroupView :=
  let ms := members g s
  { record := r
    members := ms.map (·.1)
    chargedMembers := (ms.filter fun e => (e.2.segment.map (·.kind)) = some .charged).length
    servingMembers := (ms.filter fun e => e.2.watch.service ≠ .outOfService).length }

/-- What GROUP_STATUS answers (R132). -/
def groupsAnswer (s : State) : Response := okWith (.groups (s.groups.map fun e => groupView s e.1 e.2))

/-- GROUP_STATUS (R132). -/
def execGroupStatus (tag : Nat) (s : State) : Host.Outcome State Fault Refusal :=
  officeRequest 0x15 tag (answering groupsAnswer) s

/-- What GROUP_CHECK answers (R132). -/
def groupAnswer (g : Nat) (s : State) : Response :=
  if !groupNumber g then refusal .badGroup
  else
    match Table.find? g s.groups with
    | none => refusal .badGroup
    | some r => okWith (.group r.cover r.since (members g s).length s.calendar.clockSet)

/-- GROUP_CHECK (R132). -/
def execGroupCheck (identity tag group : Nat) (s : State) : Host.Outcome State Fault Refusal :=
  serviceRequest identity 0x42 tag (roleMayAsk 0x42) (fun _ => answering (groupAnswer group)) s

end Sys2Proof.Machine
end

