-- ==== Sys2Proof/Machine/JournalCommands.lean ====
section
/-!
DEFINITION. The Journal's requests (chapter 9): JOURNAL_READ and JOURNAL_ACK.
-/

namespace Sys2Proof.Machine

open Sys2Proof

/-! ### JOURNAL_READ -/

/-- The bytes of a record's body, by the layouts of section 12.4. -/
def RecordBody.size : RecordBody → Nat
  | .sale b => 33 + (b.plate.map (·.length)).getD 0
  | .collection _ => 28
  | .reconciled _ _ _ _ _ _ => 27
  | .roundClosed _ _ _ _ entries => 15 + 2 * entries.length
  | .coverChange _ _ _ => 6

/-- The bytes of a record: a header of thirteen bytes and its body (section 12.4). -/
def Record.size (r : Record) : Nat := 13 + r.body.size

/-- The records that fit a response body of which `taken` bytes are used, from the head on (R159). -/
def fitting (taken : Nat) : List Record → List Record
  | [] => []
  | r :: rest => if taken + r.size ≤ Config.officeBodyMax then r :: fitting (taken + r.size) rest else []

/-- The records that a JOURNAL_READ of `n` returns (R159). -/
def readRecords (n : Nat) (s : State) : List Record := fitting Config.journalReadOverhead (s.journal.records.take n)

/-- What JOURNAL_READ answers (R159). -/
def journalReadAnswer (n : Nat) (s : State) : Response :=
  if n < 1 ∨ 16 < n then refusal .badCount
  else okWith (.records (readRecords n s) (figures s) s.journal.nextSequence)

/-- JOURNAL_READ (R159). -/
def execJournalRead (tag count : Nat) (s : State) : Host.Outcome State Fault Refusal :=
  officeRequest 0x16 tag (answering (journalReadAnswer count)) s

/-! ### JOURNAL_ACK -/

/-- How far behind the next sequence number a sequence number stands, counted back across the wrap and past 0: from 1 for the last
number before it (R160). -/
def placeBehind (next sequence : Nat) : Nat :=
  if sequence < next then next - sequence else next + Config.maxSequence - sequence

/-- The acknowledgement is judged by its place behind the next number, within 2 147 483 648 of it (R160; log entry 15). -/
def ackTaken (next sequence : Nat) : Bool :=
  1 ≤ sequence && sequence ≤ Config.maxSequence && placeBehind next sequence ≤ Config.ackWindow

/-- How many records an acknowledgement removes: all up to the record of the number, or none where the queue does not hold it
(R160). -/
def ackCount (sequence : Nat) (records : List Record) : Nat :=
  match records.findIdx? fun r => r.sequence = sequence with
  | some i => i + 1
  | none => 0

/-- Remove records from the head; the conditions are derived afresh, owed cover records follow a rise from 0, and a halt may end
(R131, R158, R160). -/
def removeRecords (n : Nat) (s : State) : State :=
  spaceRose (freeSpace s) (salesHalted s) (s.onJournal fun j => { j with records := j.records.drop n })

/-- A JOURNAL_ACK is taken (R160). -/
def takeJournalAck (sequence : Nat) (s : State) : State × Response :=
  let n := ackCount sequence s.journal.records
  if n ≠ 0 then
    let s' := removeRecords n s
    (s', okWith (.acked n (figures s')))
  else if ackTaken s.journal.nextSequence sequence then (s, okWith (.acked 0 (figures s)))
  else (s, { code := .badSequence, body := .ackRefused (figures s) })

/-- JOURNAL_ACK (R160). -/
def execJournalAck (tag sequence : Nat) (s : State) : Host.Outcome State Fault Refusal :=
  officeRequest 0x17 tag (takeJournalAck sequence) s

end Sys2Proof.Machine
end

