-- ==== Sys2Proof/Machine/LineOps.lean ====
section
/-!
DEFINITION. The call cycle (R135), answer windows and what ends them (R136, R137, R145), the reply windows and the GRANTs they
earn (R140, R141).
-/

namespace Sys2Proof.Machine

/-! ### Sending calls -/

/-- The link states that a call of this kind goes to (R135). -/
def CallKind.calls : CallKind → LinkState → Bool
  | .normal, .active => true
  | .normal, .granted => true
  | .slow, .sleeping => true
  | _, _ => false

/-- The next slot after `after` whose link state is called in this part of the cycle, read now (R135). -/
def nextCalled (after : Nat) (kind : CallKind) (s : State) : Option Nat :=
  (List.find? (fun e : Nat × Terminal => decide (after < e.1) && kind.calls e.2.link.state) s.terminals).map (·.1)

/-- Record the line's mode and the frames a line step sends. -/
def setLine (mode : LineMode) (frames : List KerbFrame) (s : State) : State :=
  s.onLine fun l => { l with mode := mode, out := l.out ++ frames }

/-- A CALL to a slot: the notice at the head of its queue rides on it, and the answer window opens (R135, R136, R151). -/
def sendCall (slot : Nat) (kind : CallKind) (s : State) : State :=
  match terminal s slot with
  | none => s
  | some t =>
    let notice := t.link.queue.head?.map (·.body)
    onQueue slot markHead (setLine (.window slot kind t.link.state notice) [.call slot kind notice] s)

/-- Part 3 of a cycle: a SEEK in a cycle whose number is a multiple of 8; then the line is idle until the next cycle (R135, R140). -/
def seekPhase (s : State) : State :=
  if s.line.cycle % 8 = 0 then setLine (.reply 1 false [] []) [.seek s.line.cycle] s else setLine .idle [] s

/-- Part 2: a SLOW CALL to every SLEEPING slot in a cycle whose number leaves 4 when divided by 16 (R135). -/
def slowPhase (after : Nat) (s : State) : State :=
  if s.line.cycle % 16 = 4 then
    match nextCalled after .slow s with
    | some slot => sendCall slot .slow s
    | none => seekPhase s
  else seekPhase s

/-- Part 1: a NORMAL CALL to every ACTIVE or GRANTED slot (R135). -/
def normalPhase (after : Nat) (s : State) : State :=
  match nextCalled after .normal s with
  | some slot => sendCall slot .normal s
  | none => slowPhase 0 s

/-- A line step begins: nothing sent yet, and no answer window has just ended. -/
def clearOut (s : State) : State := s.onLine fun l => { l with out := [], ended := none }

/-- The window of a slot is over and the cycle goes on with the next call it has (R135). -/
def afterWindow (slot : Nat) (kind : CallKind) (s : State) : State :=
  match kind with
  | .normal => normalPhase slot (clearOut s)
  | .slow => slowPhase slot (clearOut s)

/-- An answer window ends with what was heard in it, and the cycle goes on; the line may still be held driven by that slot (R145). -/
def windowOver (slot : Nat) (kind : CallKind) (s : State) : State :=
  (afterWindow slot kind s).onLine fun l => { l with ended := some (slot, kind) }

/-- A cycle starts with this number (R135). -/
def startCycle (number : Nat) (s : State) : State :=
  normalPhase 0 (clearOut (s.onLine fun l => { l with cycle := number }))

/-! ### Misses -/

/-- A miss (R137): the count rises by one and the notice that rode stays; a GRANTED slot becomes ABSENT, an ACTIVE or SLEEPING one LOST
at a count of 3. A slot that is in no called state any more has no call to miss (log entry 12). -/
def missSlot (slot : Nat) (calledAs : LinkState) (s : State) : State :=
  match terminal s slot with
  | none => s
  | some t =>
    if t.link.state.called then
      let s := onLink slot (fun l => { l with misses := l.misses + 1, queue := unmark l.queue }) s
      if calledAs = .granted then leaveTo slot .absent s
      else if 3 ≤ t.link.misses + 1 then leaveTo slot .lost s
      else s
    else s

/-! ### Answers -/

/-- The request an answer carries (R136). -/
inductive AnswerRequest where
  | none
  | quote (kind amount permit : Nat) (plate : Plate)
  | confirm (quoteId : Nat) (coins : Six) (card : Nat)
  | cancel
  | accept (level : Nat)
  | wakeReq
  deriving DecidableEq, Repr

/-- A valid answer to a SLOW CALL makes a SLEEPING slot ACTIVE: the call carried WAKE, or the answer carries a request, or it
reports AWAKE while carrying none (R149, R152). -/
def wakes (rode : Option NoticeBody) (asleep : Bool) (request : AnswerRequest) : Bool :=
  rode = some .wake || request ≠ .none || !asleep

/-- The answer of a GRANTED slot carries ACCEPT at the negotiated level (R144). -/
def enrols (t : Terminal) : AnswerRequest → Bool
  | .accept level => t.link.state = .granted && t.link.level = some level
  | _ => false

/-- Step 3 of R136: the link-state change that the answer makes. -/
def answerLink (slot : Nat) (t : Terminal) (rode : Option NoticeBody) (asleep : Bool) (w : StatusWord)
    (request : AnswerRequest) (s : State) : State :=
  match t.link.state with
  | .granted =>
    if enrols t request then onLink slot (fun l => { l with state := .active, timeOwed := false }) s
    else leaveTo slot .absent s
  | .active =>
    if rode = some .reset then leaveTo slot .absent s
    else if rode = some .sleep ∧ request = .none ∧ w.door = .closed then fallAsleep slot s
    else s
  | .sleeping =>
    if rode = some .reset then leaveTo slot .absent s
    else if wakes rode asleep request then wakeSlot slot s
    else s
  | _ => s

/-- Step 5 of R136: QUOTE, CONFIRM and CANCEL go to the Quote and Sale Unit; ACCEPT and WAKE_REQ are spent or discarded. -/
def handRequest (slot : Nat) (request : AnswerRequest) (s : State) : State :=
  match request with
  | .quote kind amount permit plate => takeQuote slot kind amount permit plate s
  | .confirm quoteId coins card => takeConfirm slot quoteId coins card s
  | .cancel => endQuote slot s
  | _ => s

/-- A valid ANSWER is taken whole, in the five steps of R136; what an ACCEPT sets off follows its status word (R144; log entry 45). The
request of a GRANTED slot, and of an answer to a call that carried RESET, is discarded (R144, R153). -/
def validAnswer (slot : Nat) (t : Terminal) (rode : Option NoticeBody) (asleep : Bool) (w : StatusWord)
    (request : AnswerRequest) (s : State) : State :=
  let s := onLink slot (fun l => { l with queue := removeRidden l.queue, misses := 0 }) s
  let s := answerLink slot t rode asleep w request s
  let s := takeStatus slot w s
  let s := if enrols t request then acceptSlot slot t.link.timeOwed s else s
  if t.link.state = .granted ∨ rode = some .reset then s else handRequest slot request s

/-- An ANSWER in an open window (R136): a malformed status word or the wrong slot is a miss; an answer taken when its slot is in no
called state any more is discarded whole. -/
def windowAnswer (slot : Nat) (calledAs : LinkState) (rode : Option NoticeBody) (head : AnswerHead) (request : AnswerRequest)
    (s : State) : State :=
  match readStatus head.status with
  | none => missSlot slot calledAs s
  | some w =>
    if head.slot ≠ slot then missSlot slot calledAs s
    else
      match terminal s slot with
      | none => s
      | some t => if t.link.state.called then validAnswer slot t rode head.asleep w request s else s

/-- An ANSWER arrives. Outside an answer window nobody may speak, and nothing is heard (R134; log entry 10). -/
def takeAnswer (head : AnswerHead) (request : AnswerRequest) (s : State) : State :=
  match s.line.mode with
  | .window slot kind calledAs rode => windowOver slot kind (windowAnswer slot calledAs rode head request s)
  | _ => s

/-! ### Reply windows -/

/-- The slot whose configured identity is the one offered (R141). -/
def slotOfIdentity (identity : Nat) (s : State) : Option (Nat × Terminal) :=
  List.find? (fun e : Nat × Terminal => e.2.config.identity = identity) s.terminals

/-- A valid OFFER is taken in its window (R140, R141): the first of its identity in this SEEK, and the first of its window (log entry
19). An unknown identity is recorded and sets UNKNOWN_TERMINAL; a BARRED slot's OFFER is discarded; any other earns a GRANT. -/
def takeOffer (identity : Nat) (form : OfferForm) (s : State) : State :=
  match s.line.mode with
  | .reply number taken offered earned =>
    if !offerValid form || taken || offered.contains identity then s
    else
      match slotOfIdentity identity s with
      | none =>
        raise .unknownTerminal
          (s.onLine fun l =>
            { l with mode := .reply number true (identity :: offered) earned, lastUnknown := some identity, ended := none })
      | some (slot, t) =>
        let earned :=
          if t.link.state = .barred then earned else earned ++ [{ identity := identity, slot := slot, form := form }]
        s.onLine fun l => { l with mode := .reply number true (identity :: offered) earned, ended := none }
  | _ => s

/-- A GRANT that an OFFER earned is sent, by the slot as it stands now: none where the slot no longer holds the identity, or is EMPTY
or BARRED (R141, R143). -/
def sendGrant (e : EarnedOffer) (s : State) : State :=
  match terminal s e.slot with
  | none => s
  | some t =>
    if t.config.identity ≠ e.identity ∨ t.link.state = .barred then s
    else
      grantSlot e.slot e.form
        (s.onLine fun l =>
          { l with
            out := l.out ++
              [.grant e.identity e.slot (chosenLevel e.form) s.calendar.zoneTime s.calendar.offset s.calendar.clockSet] })

/-- A reply window ends: the next one opens, or after the fourth the GRANTs are sent in window order and the cycle is over (R140,
R141). -/
def endReplyWindow (number : Nat) (offered : List Nat) (earned : List EarnedOffer) (s : State) : State :=
  let s := clearOut s
  if number < 4 then setLine (.reply (number + 1) false offered earned) [] s
  else setLine .idle [] (earned.foldl (fun s e => sendGrant e s) s)

end Sys2Proof.Machine
end

