-- ==== Sys2Proof/Machine/LineEvents.lean ====
section
/-!
DEFINITION. The kerb line's events (chapter 8): cycles, answers with each of the five requests, misses, jabbers, offers, reply
windows, and the two deadlines that run on uptime.
-/

namespace Sys2Proof.Machine

open Sys2Proof

/-- The number of the next cycle (R135). -/
def nextCycle (n : Nat) : Nat := (n + 1) % 65536

/-- CYCLE_START, due once the cycle before has ended (R135). -/
def execCycleStart (s : State) : Host.Outcome State Fault Refusal :=
  whileRunning (fun s => if s.line.mode = .idle then startCycle (nextCycle s.line.cycle) s else s) s

/-! ### Answers -/

/-- ANSWER: an answer that carries no request (R136). -/
def execAnswer (head : AnswerHead) (s : State) : Host.Outcome State Fault Refusal := whileRunning (takeAnswer head .none) s

/-- QUOTE: an answer that carries a QUOTE (R56, R57, R136). -/
def execQuote (head : AnswerHead) (kind amount permit : Nat) (plate : Plate) (s : State) : Host.Outcome State Fault Refusal :=
  whileRunning (takeAnswer head (.quote kind amount permit plate)) s

/-- CONFIRM: an answer that carries a CONFIRM (R66 to R70, R136). -/
def execConfirm (head : AnswerHead) (quoteId : Nat) (coins : Six) (card : Nat) (s : State) :
    Host.Outcome State Fault Refusal :=
  whileRunning (takeAnswer head (.confirm quoteId coins card)) s

/-- CANCEL: an answer that carries a CANCEL (R64, R136). -/
def execCancel (head : AnswerHead) (s : State) : Host.Outcome State Fault Refusal := whileRunning (takeAnswer head .cancel) s

/-- ACCEPT: an answer that carries an ACCEPT (R136, R144). -/
def execAccept (head : AnswerHead) (level : Nat) (s : State) : Host.Outcome State Fault Refusal :=
  whileRunning (takeAnswer head (.accept level)) s

/-- WAKE_REQ: an answer that carries a WAKE_REQ (R136, R149). -/
def execWakeReq (head : AnswerHead) (s : State) : Host.Outcome State Fault Refusal := whileRunning (takeAnswer head .wakeReq) s

/-! ### Windows that end otherwise -/

/-- A window ends with no valid answer (R136, R137). -/
def takeMiss (s : State) : State :=
  match s.line.mode with
  | .window slot kind calledAs _ => windowOver slot kind (missSlot slot calledAs s)
  | _ => s

/-- MISS, due in an answer window (R137). -/
def execMiss (s : State) : Host.Outcome State Fault Refusal := whileRunning takeMiss s

/-- A jabber within an answer window bars the called slot, and the part waits for quiet; in a reply window it bars no slot (R140,
R145). -/
def takeJabber (s : State) : State :=
  match s.line.mode with
  | .window slot kind _ _ => setLine (.quiet slot kind) [] (barSlot slot (clearOut s))
  | _ => s

/-- The frame that followed an ended window has not been sent after all: the part waits for the line to fall quiet before it sends the
next frame (R145), so a notice that was to ride on it has not ridden (log entry 34). -/
def takeBack (s : State) : State :=
  match s.line.mode with
  | .window slot _ _ _ => onQueue slot unmark s
  | _ => s

/-- A jabber after an answer window: the line is held driven by the slot whose window has just ended. That slot is barred, and the part
waits for quiet (R145; log entry 34). With no window just ended the line is not held by a called slot, and nothing happens. -/
def takeLateJabber (s : State) : State :=
  match s.line.ended with
  | some (slot, kind) => setLine (.quiet slot kind) [] (barSlot slot (clearOut (takeBack s)))
  | none => s

/-- JABBER, due in an answer window (R145). -/
def execJabber (s : State) : Host.Outcome State Fault Refusal := whileRunning takeJabber s

/-- JABBER of a line held driven after the answer window (R145; log entry 34). -/
def execJabberLate (s : State) : Host.Outcome State Fault Refusal := whileRunning takeLateJabber s

/-- The line falls quiet after a jabber, and the cycle goes on (R145). -/
def takeQuiet (s : State) : State :=
  match s.line.mode with
  | .quiet slot kind => afterWindow slot kind s
  | _ => s

/-- LINE_FALLS_QUIET, due after a jabber (R145). -/
def execLineFallsQuiet (s : State) : Host.Outcome State Fault Refusal := whileRunning takeQuiet s

/-! ### Offers -/

/-- OFFER: a valid OFFER in a reply window (R140, R141). -/
def execOffer (identity : Nat) (form : OfferForm) (s : State) : Host.Outcome State Fault Refusal :=
  whileRunning (takeOffer identity form) s

/-- A reply window is over (R140, R141). -/
def takeWindowEnd (s : State) : State :=
  match s.line.mode with
  | .reply number _ offered earned => endReplyWindow number offered earned s
  | _ => s

/-- REPLY_WINDOW_END, due in a reply window (R140). -/
def execReplyWindowEnd (s : State) : Host.Outcome State Fault Refusal := whileRunning takeWindowEnd s

/-! ### Deadlines on uptime -/

/-- A slot's link-lost deadline has come (R139). -/
def lostDue (slot : Nat) (s : State) : Bool :=
  (((terminal s slot).bind (·.link.lostDeadline)).map fun d => decide (d ≤ s.calendar.uptime)).getD false

/-- LINK_LOST_DEADLINE of a slot: LINK_LOST rises and the deadline becomes absent (R139). -/
def execLinkLostDeadline (slot : Nat) (s : State) : Host.Outcome State Fault Refusal :=
  whileRunning (fun s =>
    if lostDue slot s then conditionRises slot .linkLost (onLink slot (fun l => { l with lostDeadline := none }) s) else s) s

/-- A slot is BARRED and its bar expiry has come (R145). -/
def barDue (slot : Nat) (s : State) : Bool :=
  ((terminal s slot).map fun t =>
    decide (t.link.state = .barred) && (t.link.barExpiry.map fun d => decide (d ≤ s.calendar.uptime)).getD false).getD false

/-- BAR_EXPIRY of a slot: the bar ends (R145). -/
def execBarExpiry (slot : Nat) (s : State) : Host.Outcome State Fault Refusal :=
  whileRunning (fun s => if barDue slot s then endBar slot s else s) s

end Sys2Proof.Machine
end

