-- ==== Sys2Proof/Machine/StartOps.lean ====
section
/-!
DEFINITION. The starts: cold, warm and office (R16, R33, R76, R93, R114, R133, R154, R168, R176, R179 to R181), and the entry to
backup (R177, R178).
-/

namespace Sys2Proof.Machine

/-- Filtered values set to agree with the fault states (R133). -/
def agreedReports (f : FaultTable) : Reports :=
  { paperLow := f.present .paperLow, paperOut := f.present .paperOut, coinJam := f.present .coinJam,
    cardFault := f.present .cardFault }

/-- A configured slot's record after step 1 of a warm start or an office restart (R76, R133, R154). -/
def Terminal.restarted (t : Terminal) : Terminal :=
  { t with
    link :=
      { state := .absent, level := none, caps := none, misses := 0, barExpiry := none,
        lostDeadline := some Config.linkLostDelay, queue := [], timeOwed := false }
    quote := .none
    nextQuoteId := 1
    closed := none
    watch :=
      { t.watch with
        filtered := agreedReports t.watch.faults
        lastReports := none
        power := if t.watch.faults.present .powerLow then .low else .ok
        lastPower := none
        clearRun := 0
        door := .closed
        silence := 0 } }

/-- The attention flags at step 2 of a start: event flags cleared, RESTARTED set, each condition flag as its condition stands. A start
begun again after an abandoned one clears no event flag that the abandoned one set (R168). -/
def startFlags (keep : Bool) (before conditions : Flags) : Flags :=
  ((if keep then before.eventsOnly else Flags.none).set .restarted).or conditions

/-- Step 1 of a warm start or an office restart (R181): uptime 0, RUNNING, every block clears what its chapter clears. -/
def startValues (straps : Straps) (s : State) : State :=
  let s := releaseAllHolds (s.onTerminals (Table.mapAll Terminal.restarted))
  let s := s.onCalendar fun c => { c with uptime := 0 }
  let s := s.onEngine fun _ => { queue := [], walk := none }
  let s := s.onOffice fun _ => { reading := false, current := none, busy := [], overruns := 0 }
  let s := s.onService fun _ => { reading := false, current := none, busy := [] }
  s.onSupply fun p => { p with part := .running, main := .above, cell := .standby, straps := straps, startAbandoned := false }

/-- Step 2: attention (R168). -/
def startAttention (keep : Bool) (s : State) : State :=
  s.onAttention fun a => { flags := startFlags keep a.flags (conditions s), mask := Flags.all }

/-- The close of a round in the catch-up: the owed cover records follow, and the service states are derived in step 4 (R16, R107,
R131). -/
def closeAtStart (s : State) : State :=
  match s.cash.round with
  | none => s.onCalendar fun c => { c with deadline := none }
  | some r =>
    let closed := closeRoundCore r s
    if freeSpace s = 0 ∧ freeSpace closed ≠ 0 then appendOwed closed else closed

/-- Step 3: the Calendar's catch-up (R16): due switches, one day roll, due deadlines; then every segment is found afresh, not as a
boundary, and one minute roll is delivered. With the flag UNSET a deadline is registered only where zone time wrapped in BACKUP, and
that wrap's delivery is made here (R1, R11, R177; log entry 16). -/
def catchUp (s : State) : State :=
  let s :=
    if s.calendar.clockSet then
      let s := forEachSlot takeSwitch s
      let s := if dayRollDue s then dayRoll s else s
      if deadlineDue s then closeAtStart s else s
    else if s.calendar.deadline.isSome then closeAtStart s
    else s
  minuteRoll (s.onTerminals (Table.mapAll fun t => { t with segment := segmentNow s t.plans }))

/-- A condition known at the start is taken: a disagreement with the state is a rise or an end (R133). -/
def startCondition (slot : Nat) (k : FaultKind) (present : Bool) (s : State) : State :=
  match terminal s slot with
  | none => s
  | some t =>
    if t.watch.faults.present k = present then s
    else if present then raise .fault (setFault slot k (t.watch.faults.get k).state.rise s)
    else setFault slot k (t.watch.faults.get k).state.fall s

/-- The conditions known at the start for one slot: JABBER and DOOR_FORCED end, BOX_FULL is as the Cash Unit finds it (R114, R133). -/
def startConditions (slot : Nat) (s : State) : State :=
  match terminal s slot with
  | none => s
  | some t =>
    startCondition slot .boxFull (boxFull t) (startCondition slot .doorForced false (startCondition slot .jabber false s))

/-- Step 4: starting conditions, then every service state, then every group's cover (R133, R181). -/
def startFaults (s : State) : State := deriveAll (forEachSlot startConditions s)

/-- Step 5: the ports. Cycle 0 opens with its SEEK (R135, R154, R181; log entry 18). -/
def startPorts (s : State) : State :=
  s.onLine fun _ => { cycle := 0, lastUnknown := none, mode := .reply 1 false [] [], out := [.seek 0], ended := none }

/-- A warm start, or an office restart with the straps it already holds (R180, R181). -/
def warmStart (straps : Straps) (keep : Bool) (s : State) : State :=
  startPorts (startFaults (catchUp (startAttention keep (startValues straps s))))

/-- A cold start: every block takes its cold values and the latch is cleared (R179, R181). A cold start begun again after an abandoned
start keeps the event flags of that start, as R168 says of every start; R178 and R179 leave open whether a latch set in between discards
them (DESIGN CHOICE, log entry 17). The queue of commands and the count of free values are the model's own and stay. -/
def coldStart (straps : Straps) (keep : Bool) (s : State) : State :=
  let c := State.cold straps
  ((c.onAttention fun _ => { flags := startFlags keep s.attention.flags (conditions c), mask := Flags.all }).setFreeIndex
    s.freeIndex).setPending s.pending

/-- A start by power-up or by the reset pin takes its kind from the retention-lost latch (R179). -/
def startBy (straps : Straps) (keep : Bool) (s : State) : State :=
  if s.supply.latch then coldStart straps keep s else warmStart straps keep s

/-- A power-fail entry (R177, R178): the line stops, both UARTs lose what they had, a walk in flight is abandoned, and the part state is
BACKUP. A cell already below its retention level sets the latch. -/
def enterBackup (cellBelow duringStart : Bool) (s : State) : State :=
  let s := s.onLine fun l => { l with mode := .stopped, out := [], ended := none }
  let s := s.onOffice fun o => { o with reading := false, current := none, busy := [] }
  let s := s.onService fun _ => { reading := false, current := none, busy := [] }
  let s := s.onEngine fun e => { e with walk := none }
  s.onSupply fun p =>
    { p with part := .backup, main := .below, cell := .carrying, latch := p.latch || cellBelow, startAbandoned := duringStart }

end Sys2Proof.Machine
end

