-- ==== Sys2Proof/Machine/OfficeCommands.lean ====
section
/-!
DEFINITION. The Office Port's own requests and events (chapter 9): STATUS, ATTENTION_MASK, frames that are not taken, the end of a
response; the roster's requests (ROSTER_PUT and ROSTER_REMOVE, chapter 10); and RESTART (R180).
-/

namespace Sys2Proof.Machine

open Sys2Proof

/-! ### Attention -/

/-- What STATUS answers: the flags as they stood when it was taken (R166). -/
def statusAnswer (s : State) : Response :=
  okWith
    (.attention s.attention.flags s.attention.mask s.line.lastUnknown (figures s)
      (s.journal.records.head?.map (·.sequence)) s.journal.nextSequence s.office.overruns)

/-- On taking STATUS every flag is cleared, the overrun count is 0, and every condition flag whose condition holds is set again
(R166). -/
def takeStatusRead (s : State) : State × Response :=
  (refresh ((s.onOffice fun o => { o with overruns := 0 }).onAttention fun a => { a with flags := Flags.none }),
    statusAnswer s)

/-- STATUS (R166). -/
def execStatus (tag : Nat) (s : State) : Host.Outcome State Fault Refusal := officeRequest 0x18 tag takeStatusRead s

/-- An ATTENTION_MASK is taken: a set bit from 10 on names no flag (R167, R185). -/
def takeAttentionMask (mask : Nat) (s : State) : State × Response :=
  if 1024 ≤ mask then (s, refusal .badMask)
  else (s.onAttention fun a => { a with mask := maskOf mask }, okWith (.mask (maskOf mask)))

/-- ATTENTION_MASK (R167). -/
def execAttentionMask (tag mask : Nat) (s : State) : Host.Outcome State Fault Refusal :=
  officeRequest 0x19 tag (takeAttentionMask mask) s

/-! ### The roster -/

/-- The first field of a ROSTER_PUT that fails, by its order in the table of R172. -/
def badRosterField (identity role key : Nat) : Option Nat :=
  if identity = 0 then some 1
  else if (roleOf role).isNone then some 2
  else if role = 2 ∧ key = 0 then some 3
  else none

/-- The entry that an accepted ROSTER_PUT leaves; the key number of an OFFICER or ENGINEER is discarded (R171, R172). -/
def rosterEntry (role key : Nat) : RosterEntry :=
  { role := (roleOf role).getD .officer, key := if role = 2 then some key else none }

/-- A ROSTER_PUT is taken (R172). -/
def takeRosterPut (identity role key : Nat) (s : State) : State × Response :=
  match badRosterField identity role key with
  | some field => (s, refusalAt .badRoster field)
  | none =>
    let held := (Table.find? identity s.roster).isSome
    if !held ∧ Config.maxRoster ≤ s.roster.length then (s, refusal .rosterFull)
    else
      let roster := Table.put identity (rosterEntry role key) s.roster
      (s.onRoster fun _ => roster, okWith (.wordCount (if held then .replaced else .added) roster.length))

/-- ROSTER_PUT (R172). -/
def execRosterPut (tag identity role key : Nat) (s : State) : Host.Outcome State Fault Refusal :=
  officeRequest 0x1A tag (takeRosterPut identity role key) s

/-- A ROSTER_REMOVE is taken (R173). -/
def takeRosterRemove (identity : Nat) (s : State) : State × Response :=
  match Table.find? identity s.roster with
  | none => (s, refusal .notFound)
  | some e =>
    let roster := Table.erase identity s.roster
    (s.onRoster fun _ => roster, okWith (.rosterRemoved e.role roster.length))

/-- ROSTER_REMOVE (R173). -/
def execRosterRemove (tag identity : Nat) (s : State) : Host.Outcome State Fault Refusal :=
  officeRequest 0x1B tag (takeRosterRemove identity) s

/-! ### RESTART and the end of a response -/

/-- RESTART is answered OK; the start follows once the response has been sent (R180). -/
def execRestart (tag : Nat) (s : State) : Host.Outcome State Fault Refusal :=
  officeRequest 0x1C tag (answering fun _ => ok) s

/-- An office restart: a warm start that keeps the straps it holds and reads no latch (R180, R181). -/
def officeRestart (s : State) : State := warmStart s.supply.straps false s

/-- The last byte of the response in progress has been sent: after a RESTART taken the part makes its office restart; otherwise the
request is over, and the BUSY answers that wait behind it go next, one after another (R162, R180; log entry 6). -/
def responseSent (r : OfficeReply) (s : State) : State :=
  if r.kind = 0x1C ∧ r.response.code = .ok then officeRestart s
  else s.onOffice fun o => { o with current := none }

/-- OFFICE_RESPONSE_SENT (R162, R180): the response in progress has been sent, or with none in progress the BUSY answer that has waited
longest, which counts as waiting until this command (log entry 6). -/
def execOfficeResponseSent (s : State) : Host.Outcome State Fault Refusal :=
  whileRunning (fun s =>
    match s.office.current with
    | none => s.onOffice fun o => { o with busy := o.busy.tail }
    | some r => responseSent r s) s

/-! ### Frames that carry no request that is taken -/

/-- OFFICE_BAD_REQUEST: a whole frame of an unknown kind, or whose body does not fit its kind (R162, R184, R185). -/
def execOfficeBadRequest (kind tag : Nat) (s : State) : Host.Outcome State Fault Refusal :=
  officeRequest kind tag (answering fun _ => refusal .badRequest) s

/-- OFFICE_BUSY: a whole frame of any kind while a request is in progress is answered BUSY, or discarded with the overrun count raised
(R162). Without a request in progress it is not due. -/
def execOfficeBusy (kind tag : Nat) (s : State) : Host.Outcome State Fault Refusal :=
  whileRunning (fun s =>
    if s.office.current.isNone then s else officeArrival kind tag (answering fun _ => refusal .busy) s) s

/-- The office receiver hunts again. -/
def officeHunts (s : State) : State := s.onOffice fun o => { o with reading := false }

/-- OFFICE_FRAME_DISCARD: too great a length or a bad CRC; the receiver hunts again (R161, R183). -/
def execOfficeFrameDiscard (s : State) : Host.Outcome State Fault Refusal := whileRunning officeHunts s

/-- OFFICE_BYTE_TIMEOUT: more than 50 ms between two bytes of a frame; the receiver hunts again (R161). -/
def execOfficeByteTimeout (s : State) : Host.Outcome State Fault Refusal := whileRunning (fun s => officeHunts s) s

/-- OFFICE_FRAME_START: the start byte begins a frame, and the receiver is reading (R161). -/
def execOfficeFrameStart (s : State) : Host.Outcome State Fault Refusal :=
  whileRunning (fun s => s.onOffice fun o => { o with reading := true }) s

end Sys2Proof.Machine
end

