-- ==== Sys2Proof/Machine/Permits.lean ====
section
/-!
DEFINITION. The Permit Register's requests (chapter 5): PERMIT_PUT, PERMIT_REVOKE, PERMIT_GET and PERMIT_CHECK.
-/

namespace Sys2Proof.Machine

open Sys2Proof

/-- The fields that a PERMIT_PUT carries beside the number (R80). -/
structure PermitPut where
  kind : Nat
  firstDay : Nat
  lastDay : Nat
  allowance : Nat
  standing : Nat
  zones : List Nat
  plate : Plate
  deriving DecidableEq, Repr

/-- The first field of a PERMIT_PUT that fails, by its order in the table of R80. -/
def badPermitField (number : Nat) (p : PermitPut) : Option Nat :=
  if number = 0 ∨ Config.maxPermitNumber < number then some 1
  else if (permitKindOf p.kind).isNone then some 2
  else if !zonesGood p.zones then some 3
  else if !plateGood p.plate then some 4
  else if Config.maxLocalDay < p.firstDay ∨ Config.maxLocalDay < p.lastDay ∨ p.lastDay < p.firstDay then some 5
  else if 1440 < p.allowance then some 6
  else if (suspendedOf p.standing).isNone then some 7
  else none

/-- The record that an accepted PERMIT_PUT leaves: the carried fields, with the consumed today and the hold of the record it replaces,
or 0 and none (R81, R82). -/
def permitRecord (p : PermitPut) (before : Option Permit) : Permit :=
  { kind := (permitKindOf p.kind).getD .resident
    zones := zoneSet p.zones
    plate := plateOf p.plate
    firstDay := p.firstDay
    lastDay := p.lastDay
    allowance := p.allowance
    suspended := (suspendedOf p.standing).getD false
    consumed := (before.map (·.consumed)).getD 0
    hold := before.bind (·.hold) }

/-- A PERMIT_PUT is taken (R80 to R82). -/
def takePermitPut (number : Nat) (p : PermitPut) (s : State) : State × Response :=
  match badPermitField number p with
  | some field => (s, refusalAt .badPermit field)
  | none =>
    let before := Table.find? number s.permits
    if before.isNone ∧ Config.maxPermits ≤ s.permits.length then (s, refusal .registerFull)
    else
      let register := Table.put number (permitRecord p before) s.permits
      (s.onPermits fun _ => register,
        okWith (.wordCount (if before.isNone then .added else .replaced) register.length))

/-- PERMIT_PUT (R80 to R82). -/
def execPermitPut (tag number kind firstDay lastDay allowance standing : Nat) (zones : List Nat) (plate : Plate)
    (s : State) : Host.Outcome State Fault Refusal :=
  officeRequest 0x0A tag
    (takePermitPut number
      { kind := kind, firstDay := firstDay, lastDay := lastDay, allowance := allowance, standing := standing, zones := zones,
        plate := plate }) s

/-- A PERMIT_REVOKE is taken: the record goes with its hold, whose owner and quote id the response carries (R83). -/
def takePermitRevoke (number : Nat) (s : State) : State × Response :=
  match Table.find? number s.permits with
  | none => (s, refusal .notFound)
  | some p => (s.onPermits (Table.erase number), okWith (.revoked (p.hold.map fun h => (h.owner, h.quoteId))))

/-- PERMIT_REVOKE (R83). -/
def execPermitRevoke (tag number : Nat) (s : State) : Host.Outcome State Fault Refusal :=
  officeRequest 0x0B tag (takePermitRevoke number) s

/-- What PERMIT_GET answers (R84). -/
def permitAnswer (number : Nat) (s : State) : Response :=
  match Table.find? number s.permits with
  | none => refusal .notFound
  | some p => okWith (.permit number p (remaining p) (today s) s.calendar.clockSet)

/-- PERMIT_GET (R84). -/
def execPermitGet (tag number : Nat) (s : State) : Host.Outcome State Fault Refusal :=
  officeRequest 0x0C tag (answering (permitAnswer number)) s

/-- Two plates differ: both are present and they are not the same (R75, R92). -/
def platesDiffer (carried held : Option Plate) : Bool := carried.isSome && held.isSome && carried != held

/-- The answer word of a PERMIT_CHECK on a record, by the first case of R92 that applies. -/
def permitStanding (p : Permit) (day group : Nat) (plate : Option Plate) : Code :=
  if p.suspended then .suspended
  else if day < p.firstDay then .notYet
  else if p.lastDay < day then .expired
  else if !p.zones.contains group then .notInZone
  else if platesDiffer plate p.plate then .plateMismatch
  else .valid

/-- The fields of a record that PERMIT_CHECK answers (R92). -/
def Permit.view (p : Permit) : PermitView :=
  { kind := p.kind, firstDay := p.firstDay, lastDay := p.lastDay, zones := p.zones, plate := p.plate }

/-- What PERMIT_CHECK answers (R92). R92 lists no refusal of a plate, so a carried plate of a length that no record can hold (R184)
is compared as it was carried (log entry 35). -/
def permitCheckAnswer (number group : Nat) (plate : Option Plate) (s : State) : Response :=
  if !groupNumber group then refusal .badGroup
  else
    match Table.find? number s.permits with
    | none => okWith (.permitStanding .unknown none s.calendar.clockSet)
    | some p => okWith (.permitStanding (permitStanding p (today s) group plate) (some p.view) s.calendar.clockSet)

/-- PERMIT_CHECK (R92). -/
def execPermitCheck (identity tag number group : Nat) (plate : Plate) (s : State) : Host.Outcome State Fault Refusal :=
  serviceRequest identity 0x41 tag (roleMayAsk 0x41) (fun _ => answering (permitCheckAnswer number group (plateOf plate))) s

end Sys2Proof.Machine
end

