-- ==== Sys2Proof/Machine/Plans.lean ====
section
/-!
DEFINITION. The Plan Store's commands (chapter 2): PLAN_BEGIN, PROFILE_PUT, PLAN_CLOSE, PLAN_CLEAR and PLAN_ASSIGN.
-/

namespace Sys2Proof.Machine

open Sys2Proof

/-- A plan slot number is from 1 to 8 (R17). -/
def planNumber (n : Nat) : Bool := 1 ≤ n && n ≤ Config.planSlots

/-- These plan fields name a plan slot, as current or as pending (R20, R32). -/
def namesPlan (plan : Nat) (current : Option Nat) (pending : Option (Nat × Nat)) : Bool :=
  current = some plan || pending.map (·.1) = some plan

/-- A plan slot is in use: a configured terminal or the walk in flight names it (R20). -/
def planInUse (plan : Nat) (s : State) : Bool :=
  (s.terminals.any fun e => namesPlan plan e.2.plans.current e.2.plans.pending)
    || (s.engine.walk.map fun w => namesPlan plan w.current w.pending).getD false

/-- The two checks that begin every request that changes a plan slot: its number, then whether it is in use (R17, R20). -/
def onPlan (plan : Nat) (act : State → State × Response) (s : State) : State × Response :=
  if !planNumber plan then (s, refusal .badPlanSlot)
  else if planInUse plan s then (s, refusal .planInUse)
  else act s

/-- A PLAN_BEGIN is taken (R21). -/
def takePlanBegin (plan : Nat) : State → State × Response :=
  onPlan plan fun s => (s.onPlans (Table.put plan (.building [])), ok)

/-- PLAN_BEGIN (R21). -/
def execPlanBegin (tag plan : Nat) (s : State) : Host.Outcome State Fault Refusal :=
  officeRequest 0x04 tag (takePlanBegin plan) s

/-- The first field of a band entry that fails, by its order in the table of R23, given the start minute of the band before it. -/
def badField (before : Option Nat) (b : BandEntry) : Option Nat :=
  if 1439 < b.start ∨ (before = none ∧ b.start ≠ 0) ∨ (∃ m ∈ before, b.start ≤ m) then some 1
  else if b.kind ≠ 1 ∧ b.kind ≠ 2 ∧ b.kind ≠ 3 then some 2
  else if b.kind ≠ 1 then none
  else if b.step < 1 ∨ 120 < b.step then some 3
  else if b.price < 1 ∨ 2000 < b.price then some 4
  else if 500 < b.increment then some 5
  else if b.cap < b.price ∨ 5000 < b.cap then some 6
  else if 1440 < b.stay then some 7
  else none

/-- The first band that fails and the first of its fields that does, from band `index` on (R23). -/
def badBand : Nat → Option Nat → List BandEntry → Option (Nat × Nat)
  | _, _, [] => none
  | index, before, b :: rest =>
    match badField before b with
    | some field => some (index, field)
    | none => badBand (index + 1) (some b.start) rest

/-- What a PROFILE_PUT does to a plan slot that is not in use (R22). -/
def putProfile (plan profile : Nat) (bands : List BandEntry) (s : State) : State × Response :=
  match Table.find? plan s.plans with
  | some (.building profiles) =>
    if profile < 1 ∨ 8 < profile then (s, refusal .badProfile)
    else if bands.length = 0 ∨ Config.maxBands < bands.length then (s, refusal .badBandCount)
    else
      match badBand 1 none bands with
      | some (band, field) => (s, { code := .badBand, body := .bandField band field })
      | none =>
        let stored := Table.put profile (bands.map storeBand) profiles
        (s.onPlans (Table.put plan (.building stored)), okWith (.profileCount stored.length))
  | _ => (s, refusal .notBuilding)

/-- PROFILE_PUT (R22, R23). -/
def execProfilePut (tag plan profile : Nat) (bands : List BandEntry) (s : State) : Host.Outcome State Fault Refusal :=
  officeRequest 0x05 tag (onPlan plan (putProfile plan profile bands)) s

/-- The profiles that a build still lacks, by number (R24). -/
def missingProfiles (profiles : Table (List Band)) : List Nat :=
  [1, 2, 3, 4, 5, 6, 7, 8].filter fun n => (Table.find? n profiles).isNone

/-- What a PLAN_CLOSE does to a plan slot that is not in use (R24). -/
def closePlan (plan resident visitor business : Nat) (s : State) : State × Response :=
  match Table.find? plan s.plans with
  | some (.building profiles) =>
    match missingProfiles profiles with
    | first :: others => (s, { code := .profilesMissing, body := .missing first (others.length + 1) })
    | [] =>
      if 100 < resident then (s, refusalAt .badDiscount 1)
      else if 100 < visitor then (s, refusalAt .badDiscount 2)
      else if 100 < business then (s, refusalAt .badDiscount 3)
      else
        (s.onPlans (Table.put plan
          (.ready profiles { resident := resident, visitor := visitor, business := business })), ok)
  | _ => (s, refusal .notBuilding)

/-- PLAN_CLOSE (R24). -/
def execPlanClose (tag plan resident visitor business : Nat) (s : State) : Host.Outcome State Fault Refusal :=
  officeRequest 0x06 tag (onPlan plan (closePlan plan resident visitor business)) s

/-- PLAN_CLEAR (R25): a plan slot that is not in use becomes EMPTY, or stays so. -/
def execPlanClear (tag plan : Nat) (s : State) : Host.Outcome State Fault Refusal :=
  officeRequest 0x07 tag (onPlan plan fun s => (s.onPlans (Table.erase plan), ok)) s

/-- The checks of a PLAN_ASSIGN in order (R27). -/
def assignRefusal (plan : Nat) (switch : Option Nat) (slots : List Nat) (s : State) : Option Response :=
  if !planNumber plan then some (refusal .badPlanSlot)
  else if (readyPlan s.plans plan).isNone then some (refusal .planNotReady)
  else if slots = [] ∨ (slots.any fun n => !slotNumber n) ∨ ¬slots.Nodup then some (refusal .badSlotSet)
  else
    match slots.find? fun n => (terminal s n).isNone with
    | some n => some (refusalAt .slotEmpty n)
    | none =>
      match switch with
      | none => none
      | some t =>
        if !s.calendar.clockSet then some (refusal .noClock)
        else if t % 60 ≠ 0 then some (refusal .badSwitchTime)
        else none

/-- The mode is PENDING where the request carries a switch time after the zone time at acceptance (R27). -/
def assignsPending (switch : Option Nat) (s : State) : Bool :=
  (switch.map fun t => decide (s.calendar.zoneTime < t)).getD false

/-- A listed terminal's plan fields after an assignment (R28 for IMMEDIATE, R29 for PENDING). -/
def assignFields (plan : Nat) (pending : Bool) (switch : Option Nat) (f : PlanFields) : PlanFields :=
  if pending then { f with pending := switch.map fun t => (plan, t) } else { current := some plan, pending := none }

/-- One listed terminal is assigned: its plan fields change and its segment is found afresh (R28, R29). -/
def assignSlot (plan : Nat) (pending : Bool) (switch : Option Nat) (s : State) (slot : Nat) : State :=
  refind slot (onTerminal slot (fun t => { t with plans := assignFields plan pending switch t.plans }) s)

/-- A PLAN_ASSIGN is taken (R27). The mode is decided once for the whole set. DESIGN CHOICE (log entry 7): the listed terminals are
taken in the order of the list, which decides the order of the COVER_CHANGE records of several groups; R28 gives none. -/
def takePlanAssign (plan : Nat) (switch : Option Nat) (slots : List Nat) (s : State) : State × Response :=
  match assignRefusal plan switch slots s with
  | some r => (s, r)
  | none =>
    let pending := assignsPending switch s
    (slots.foldl (assignSlot plan pending switch) s, okWith (.word (if pending then .pending else .immediate)))

/-- PLAN_ASSIGN (R27 to R29). -/
def execPlanAssign (tag plan : Nat) (switch : Option Nat) (slots : List Nat) (s : State) :
    Host.Outcome State Fault Refusal :=
  officeRequest 0x08 tag (takePlanAssign plan switch slots) s

end Sys2Proof.Machine
end

