-- ==== Sys2Proof/Machine/ServiceCommands.lean ====
section
/-!
DEFINITION. The Service Link's own frames and events (chapter 10), and LINE_RESTART (R153).
-/

namespace Sys2Proof.Machine

open Sys2Proof

/-! ### LINE_RESTART -/

/-- RESET alone in the queue (R153). -/
def resetQueue (q : List Notice) : List Notice :=
  if holds NoticeBody.isReset q then q else [{ body := .reset, rode := false }]

/-- What LINE_RESTART does by the slot's link state (R153). -/
def restartLine (slot : Nat) (t : Terminal) (s : State) : State × Response :=
  match t.link.state with
  | .active => (onQueue slot resetQueue s, okWith (.word .queued))
  | .sleeping => (onQueue slot resetQueue s, okWith (.word .queued))
  | .barred => (endBar slot s, okWith (.word .done))
  | _ => (leaveTo slot .absent s, okWith (.word .done))

/-- A LINE_RESTART is taken from an engineer (R153). -/
def takeLineRestart (slot : Nat) (s : State) : State × Response :=
  if !slotNumber slot then (s, refusal .badSlot)
  else
    match terminal s slot with
    | none => (s, refusal .slotEmpty)
    | some t => restartLine slot t s

/-- LINE_RESTART (R153). -/
def execLineRestart (identity tag slot : Nat) (s : State) : Host.Outcome State Fault Refusal :=
  serviceRequest identity 0x47 tag (roleMayAsk 0x47) (fun _ => takeLineRestart slot) s

/-! ### Frames that carry no request that is handed on -/

/-- What a frame that fits no form of its kind is answered: the checks of R174 in order. -/
def badServiceAnswer (identity : Option Nat) (kind : Nat) (s : State) : Response :=
  match identity with
  | none => refusal .badRequest
  | some i =>
    match Table.find? i s.roster with
    | none => refusal .notAuthorised
    | some e =>
      if !isServiceKind kind then refusal .badRequest
      else if !roleMayAsk kind e.role then { code := .wrongRole, body := .role e.role }
      else refusal .badRequest

/-- SERVICE_BAD_REQUEST: a whole frame too short for an identity (answered with identity 0), from an unknown sender, of an unknown kind,
or whose body does not fit its kind (R170, R174, R184). -/
def execServiceBadRequest (identity : Option Nat) (kind tag : Nat) (s : State) : Host.Outcome State Fault Refusal :=
  whileRunning (serviceArrival (identity.getD 0) kind tag (answering (badServiceAnswer identity kind))) s

/-- SERVICE_BUSY: a whole frame while a request is in progress is answered BUSY, or discarded behind four BUSY answers (R170). Without a
request in progress it is not due. -/
def execServiceBusy (identity : Option Nat) (kind tag : Nat) (s : State) : Host.Outcome State Fault Refusal :=
  whileRunning (fun s =>
    if s.service.current.isNone then s
    else serviceArrival (identity.getD 0) kind tag (answering fun _ => refusal .busy) s) s

/-- The service receiver is reading or hunting, where the link is enabled (R169). -/
def serviceReads (reading : Bool) (s : State) : State :=
  if linkEnabled s then s.onService fun p => { p with reading := reading } else s

/-- SERVICE_FRAME_DISCARD: too great a length or a bad CRC; the receiver hunts again (R169, R183). -/
def execServiceFrameDiscard (s : State) : Host.Outcome State Fault Refusal := whileRunning (serviceReads false) s

/-- SERVICE_BYTE_TIMEOUT: more than 50 ms between two bytes of a frame; the receiver hunts again (R169). -/
def execServiceByteTimeout (s : State) : Host.Outcome State Fault Refusal := whileRunning (fun s => serviceReads false s) s

/-- SERVICE_FRAME_START: the start byte begins a frame, and the enabled receiver is reading (R169). -/
def execServiceFrameStart (s : State) : Host.Outcome State Fault Refusal := whileRunning (serviceReads true) s

/-- SERVICE_RESPONSE_SENT (R170): the request in progress is over, or with none in progress the BUSY answer that has waited longest has
been sent; BUSY answers go one after another, in order of arrival, and one counts as waiting until its own end is commanded (log entry 6). -/
def execServiceResponseSent (s : State) : Host.Outcome State Fault Refusal :=
  whileRunning (fun s =>
    if s.service.current.isNone then s.onService fun p => { p with busy := p.busy.tail }
    else s.onService fun p => { p with current := none }) s

end Sys2Proof.Machine
end

