-- ==== Sys2Proof/Machine/SupplyCommands.lean ====
section
/-!
DEFINITION. The supply's events (chapter 11): the power-fail entry, the cell below its retention level, power-up and the reset pin.
-/

namespace Sys2Proof.Machine

open Sys2Proof

/-- POWER_FAIL_ENTRY, while the part is RUNNING (R177, R178). `cellBelow` says that the cell is already below its retention level, and
`duringStart` that the entry falls into a start, which it abandons (R179; log entry 17). -/
def execPowerFailEntry (cellBelow duringStart : Bool) (s : State) : Host.Outcome State Fault Refusal :=
  whileRunning (enterBackup cellBelow duringStart) s

/-- CELL_BELOW_RETENTION: the latch is set while the cell is CARRYING; a cell on STANDBY leaves it as it was (R178). -/
def execCellBelowRetention (s : State) : Host.Outcome State Fault Refusal :=
  .next (if s.supply.cell = .carrying then s.onSupply fun p => { p with latch := true } else s)

/-- POWER_UP: in BACKUP the main supply has been ABOVE for 100 ms; the straps are latched and the part starts (R177, R179, R181). A
running part has no power-up to make. -/
def execPowerUp (straps : Straps) (s : State) : Host.Outcome State Fault Refusal :=
  .next (if s.supply.part = .backup then startBy straps s.supply.startAbandoned s else s)

/-- RESET_PIN: while the part is RUNNING, or during a start, which it abandons; the straps are latched and the part starts (R179,
R181). In BACKUP it is not taken (R177). -/
def execResetPin (straps : Straps) (duringStart : Bool) (s : State) : Host.Outcome State Fault Refusal :=
  whileRunning (startBy straps duringStart) s

end Sys2Proof.Machine
end

