-- ==== Sys2Proof/Machine/TerminalTable.lean ====
section
/-!
DEFINITION. The requests of the terminal table: TERMINAL_PUT (R163, R164), TERMINAL_REMOVE (R113) and TERMINAL_AUDIT (R112).
-/

namespace Sys2Proof.Machine

open Sys2Proof

/-! ### TERMINAL_PUT -/

/-- The first field of a TERMINAL_PUT that is out of range, in the order IDENTITY, GROUP, CAPACITY, THRESHOLD (R163). -/
def badTerminalField (c : TerminalConfig) : Option Nat :=
  if c.identity < 1 ∨ 2 ^ 48 ≤ c.identity then some 1
  else if !groupNumber c.group then some 2
  else if c.capacity < 100 ∨ 5000 < c.capacity then some 3
  else if c.threshold < 10 ∨ 100 < c.threshold then some 4
  else none

/-- Another slot that holds an identity (R163). -/
def identityElsewhere (slot identity : Nat) (s : State) : Option Nat :=
  (List.find? (fun e : Nat × Terminal => decide (e.1 ≠ slot) && decide (e.2.config.identity = identity)) s.terminals).map (·.1)

/-- The checks of a TERMINAL_PUT in order (R163). -/
def terminalRefusal (slot : Nat) (c : TerminalConfig) (s : State) : Option Response :=
  if !slotNumber slot then some (refusal .badSlot)
  else
    match badTerminalField c with
    | some field => some (refusalAt .badTerminal field)
    | none =>
      match identityElsewhere slot c.identity s with
      | some other => some (refusalAt .duplicateIdentity other)
      | none =>
        match terminal s slot with
        | none => none
        | some t =>
          if c.identity ≠ t.config.identity ∧ t.link.state ≠ .absent ∧ t.link.state ≠ .lost then some (refusal .slotInUse)
          else if c.capacity < t.cash.tally.total then some (refusal .belowTally)
          else none

/-- The record of a slot configured at this zone time and uptime (R164, R96, R115, R138, R139). -/
def newTerminal (c : TerminalConfig) (zoneTime uptime : Nat) : Terminal :=
  { config := c
    link :=
      { state := .absent, level := none, caps := none, misses := 0, barExpiry := none,
        lostDeadline := some (uptime + Config.linkLostDelay), queue := [], timeOwed := false }
    plans := { current := none, pending := none }
    segment := none
    quote := .none
    nextQuoteId := 1
    closed := none
    cash := { tally := .zero, accepted := .zero, collected := .zero, cardTotal := 0, lastCut := zoneTime }
    watch :=
      { faults := clearFaults zoneTime
        filtered := { paperLow := false, paperOut := false, coinJam := false, cardFault := false }
        lastReports := none
        power := .ok
        lastPower := none
        clearRun := 0
        door := .closed
        service := .outOfService
        silence := 0
        estimate := none } }

/-- TERMINAL_PUT on an EMPTY slot: the slot is configured and its group's cover is derived afresh (R164). -/
def configureSlot (slot : Nat) (c : TerminalConfig) (s : State) : State :=
  cover c.group (s.onTerminals (Table.put slot (newTerminal c s.calendar.zoneTime s.calendar.uptime)))

/-- A new identity: the slot is ABSENT with its level and capabilities absent, and its link-lost deadline runs on (R138, R164). -/
def newIdentity (slot : Nat) (s : State) : State :=
  deriveService slot (onLink slot (fun l => { l with state := .absent, level := none, caps := none }) s)

/-- TERMINAL_PUT on a configured slot: each field that differs acts (R164). DESIGN CHOICE (log entry 7): the identity acts first, then the
group, the cover of the old one derived before that of the new one, and then the capacity. -/
def updateSlot (slot : Nat) (c : TerminalConfig) (t : Terminal) (s : State) : State :=
  let s := onTerminal slot (fun t => { t with config := c }) s
  let s := if c.identity = t.config.identity then s else newIdentity slot s
  let s := if c.group = t.config.group then s else cover c.group (cover t.config.group s)
  if c.capacity = t.config.capacity then s else evaluateBox slot s

/-- A TERMINAL_PUT is taken (R163, R164). -/
def takeTerminalPut (slot : Nat) (c : TerminalConfig) (s : State) : State × Response :=
  match terminalRefusal slot c s with
  | some r => (s, r)
  | none =>
    match terminal s slot with
    | none => (configureSlot slot c s, okWith (.word .configured))
    | some t => (updateSlot slot c t s, okWith (.word .updated))

/-- TERMINAL_PUT (R163, R164). -/
def execTerminalPut (tag slot identity group capacity threshold : Nat) (s : State) : Host.Outcome State Fault Refusal :=
  officeRequest 0x0D tag
    (takeTerminalPut slot { identity := identity, group := group, capacity := capacity, threshold := threshold }) s

/-! ### TERMINAL_REMOVE -/

/-- The open round has an entry for the slot, in any state (R113). -/
def inRound (slot : Nat) (s : State) : Bool := (s.cash.round.bind fun r => roundEntry r slot).isSome

/-- The slot becomes EMPTY: its record goes with every block's fields for it, and its group's cover is derived afresh (R113). -/
def removeSlot (slot : Nat) (t : Terminal) (s : State) : State :=
  cover t.config.group (s.onTerminals (Table.erase slot))

/-- A TERMINAL_REMOVE is taken (R113). -/
def takeTerminalRemove (slot : Nat) (s : State) : State × Response :=
  if !slotNumber slot then (s, refusal .badSlot)
  else
    match terminal s slot with
    | none => (s, refusal .slotEmpty)
    | some t =>
      if t.cash.tally ≠ .zero then (s, { code := .tallyOutstanding, body := .tally t.cash.tally })
      else if inRound slot s then (s, refusal .inRound)
      else if t.quote ≠ .none then (s, refusal .quoteInProgress)
      else (removeSlot slot t s, okWith (.removed t.cash.accepted t.cash.collected t.cash.cardTotal))

/-- TERMINAL_REMOVE (R113). -/
def execTerminalRemove (tag slot : Nat) (s : State) : Host.Outcome State Fault Refusal :=
  officeRequest 0x0E tag (takeTerminalRemove slot) s

/-! ### TERMINAL_AUDIT -/

/-- What TERMINAL_AUDIT tells of a configured slot (R112). DESIGN CHOICE (log entry 38): the value that R94 reports alongside counts is
that of the tally alone. -/
def auditView (slot : Nat) (t : Terminal) (s : State) : AuditView :=
  { config := t.config
    link := t.link.state
    level := t.link.level
    caps := t.link.caps
    service := t.watch.service
    plans := t.plans
    quote := t.quote.state
    cash := t.cash
    tallyValue := t.cash.tally.value s.cash.denominations
    fill := boxFill t
    boxFull := boxFull t
    roundEntry := (s.cash.round.bind fun r => roundEntry r slot).map fun e => (e.reason, e.state)
    collections := (s.cash.collections.filter fun c => c.slot = slot).length }

/-- What TERMINAL_AUDIT answers (R112). -/
def auditAnswer (slot : Nat) (s : State) : Response :=
  if !slotNumber slot then refusal .badSlot
  else
    match terminal s slot with
    | none => okWith .slotIsEmpty
    | some t => okWith (.audit (auditView slot t s))

/-- TERMINAL_AUDIT (R112). -/
def execTerminalAudit (tag slot : Nat) (s : State) : Host.Outcome State Fault Refusal :=
  officeRequest 0x0F tag (answering (auditAnswer slot)) s

end Sys2Proof.Machine
end

