-- ==== Sys2Proof/Machine/Tickets.lean ====
section
/-!
DEFINITION. The Quote and Sale Unit's requests (GRACE_PUT and TICKET_CHECK, chapter 4) and its own events: the completion of a walk,
the expiry of a quote's validity, and the silence of a terminal that sells nothing (R128).
-/

namespace Sys2Proof.Machine

open Sys2Proof

/-- A GRACE_PUT is taken (R74). -/
def takeGracePut (grace : Nat) (s : State) : State × Response :=
  if 15 < grace then (s, refusal .badGrace) else (s.onSales fun q => { q with grace := grace }, ok)

/-- GRACE_PUT (R74). -/
def execGracePut (tag grace : Nat) (s : State) : Host.Outcome State Fault Refusal :=
  officeRequest 0x09 tag (takeGracePut grace) s

/-- The entry that the live ticket table holds of a number. -/
def ticketEntry (ticket : Nat) (s : State) : Option LiveTicket := s.sales.live.find? fun x => x.ticket = ticket

/-- The fields of an entry that TICKET_CHECK answers (R75). -/
def LiveTicket.view (x : LiveTicket) : TicketView :=
  { slot := x.slot, group := x.group, start := x.start, expiry := x.expiry, permit := x.permit }

/-- What TICKET_CHECK answers, by the first case of R75 that applies. R75 lists no refusal, so a carried plate of a length that no entry
can hold (R184) is compared as it was carried (log entry 35). -/
def ticketAnswer (ticket : Nat) (plate : Option Plate) (s : State) : Response :=
  let now := s.calendar.zoneTime
  match ticketEntry ticket s with
  | none => okWith (.ticket .unknown none s.calendar.clockSet)
  | some x =>
    if x.expiry + s.sales.grace * 60 ≤ now then okWith (.ticket .unknown none s.calendar.clockSet)
    else
      let word :=
        if platesDiffer plate x.plate then Code.plateMismatch
        else if now < x.expiry then .valid
        else .inGrace
      okWith (.ticket word (some x.view) s.calendar.clockSet)

/-- TICKET_CHECK (R75). -/
def execTicketCheck (identity tag ticket : Nat) (plate : Plate) (s : State) : Host.Outcome State Fault Refusal :=
  serviceRequest identity 0x40 tag (roleMayAsk 0x40) (fun _ => answering (ticketAnswer ticket (plateOf plate))) s

/-- WALK_COMPLETION, due while a walk is in flight (R38, R58 to R61). -/
def execWalkCompletion (s : State) : Host.Outcome State Fault Refusal :=
  whileRunning (fun s =>
    match s.engine.walk with
    | none => s
    | some w => completeWalk w s) s

/-- The open quote of a slot, where uptime has reached its valid-until value (R63). -/
def lapsedQuote (slot : Nat) (s : State) : Option OpenQuote :=
  match terminal s slot with
  | none => none
  | some t =>
    match t.quote with
    | .opened q => if q.validUntil ≤ s.calendar.uptime then some q else none
    | _ => none

/-- QUOTE_EXPIRY of a slot, due once uptime has reached its open quote's valid-until value (R63). -/
def execQuoteExpiry (slot : Nat) (s : State) : Host.Outcome State Fault Refusal :=
  whileRunning (fun s =>
    match lapsedQuote slot s with
    | none => s
    | some q => expireQuote slot q s) s

/-- A slot's silence counter has passed its silence limit (R128). -/
def silenceDue (slot : Nat) (s : State) : Bool :=
  ((terminal s slot).map fun t => decide (silenceLimit t.watch.estimate < t.watch.silence)).getD false

/-- SILENT of a slot: the condition rises once the counter has passed the limit (R128). -/
def execSilent (slot : Nat) (s : State) : Host.Outcome State Fault Refusal :=
  whileRunning (fun s => if silenceDue slot s then conditionRises slot .silent s else s) s

end Sys2Proof.Machine
end

