-- ==== Sys2Proof/Machine/Dispatch.lean ====
section
/-!
DEFINITION. The dispatcher: one arm for each command, each a direct call of its meaning.
-/

namespace Sys2Proof.Machine

open Sys2Proof

def exec (i : Instr) (s : State) : Host.Outcome State Fault Refusal :=
  match i with
  -- the Calendar
  | .clockSet src time offset => Sys2Proof.Machine.execClockSet src time offset s
  | .clockGet tag => Sys2Proof.Machine.execClockGet tag s
  | .holidaysPut tag days => Sys2Proof.Machine.execHolidaysPut tag days s
  -- the Plan Store
  | .planBegin tag plan => Sys2Proof.Machine.execPlanBegin tag plan s
  | .profilePut tag plan profile bands => Sys2Proof.Machine.execProfilePut tag plan profile bands s
  | .planClose tag plan resident visitor business => Sys2Proof.Machine.execPlanClose tag plan resident visitor business s
  | .planClear tag plan => Sys2Proof.Machine.execPlanClear tag plan s
  | .planAssign tag plan switch slots => Sys2Proof.Machine.execPlanAssign tag plan switch slots s
  -- the Quote and Sale Unit's setting
  | .gracePut tag grace => Sys2Proof.Machine.execGracePut tag grace s
  -- the Permit Register
  | .permitPut tag number kind firstDay lastDay allowance standing zones plate => Sys2Proof.Machine.execPermitPut tag number kind firstDay lastDay allowance standing zones plate s
  | .permitRevoke tag number => Sys2Proof.Machine.execPermitRevoke tag number s
  | .permitGet tag number => Sys2Proof.Machine.execPermitGet tag number s
  -- the terminal table and the Cash Unit
  | .terminalPut tag slot identity group capacity threshold => Sys2Proof.Machine.execTerminalPut tag slot identity group capacity threshold s
  | .terminalRemove tag slot => Sys2Proof.Machine.execTerminalRemove tag slot s
  | .terminalAudit tag slot => Sys2Proof.Machine.execTerminalAudit tag slot s
  | .denominationsPut tag values => Sys2Proof.Machine.execDenominationsPut tag values s
  | .tolerancePut tag tolerance => Sys2Proof.Machine.execTolerancePut tag tolerance s
  | .countResult tag number counted => Sys2Proof.Machine.execCountResult tag number counted s
  -- the Fault Monitor
  | .faultList tag slot => Sys2Proof.Machine.execFaultList tag slot s
  | .faultAck src slot fault => Sys2Proof.Machine.execFaultAck src slot fault s
  | .groupStatus tag => Sys2Proof.Machine.execGroupStatus tag s
  -- the Journal and the Office Port
  | .journalRead tag count => Sys2Proof.Machine.execJournalRead tag count s
  | .journalAck tag sequence => Sys2Proof.Machine.execJournalAck tag sequence s
  | .status tag => Sys2Proof.Machine.execStatus tag s
  | .attentionMask tag mask => Sys2Proof.Machine.execAttentionMask tag mask s
  | .rosterPut tag identity role key => Sys2Proof.Machine.execRosterPut tag identity role key s
  | .rosterRemove tag identity => Sys2Proof.Machine.execRosterRemove tag identity s
  | .restart tag => Sys2Proof.Machine.execRestart tag s
  | .officeBadRequest kind tag => Sys2Proof.Machine.execOfficeBadRequest kind tag s
  | .officeBusy kind tag => Sys2Proof.Machine.execOfficeBusy kind tag s
  | .officeFrameDiscard => Sys2Proof.Machine.execOfficeFrameDiscard s
  | .officeByteTimeout => Sys2Proof.Machine.execOfficeByteTimeout s
  | .officeResponseSent => Sys2Proof.Machine.execOfficeResponseSent s
  -- the Service Link
  | .ticketCheck identity tag ticket plate => Sys2Proof.Machine.execTicketCheck identity tag ticket plate s
  | .permitCheck identity tag number group plate => Sys2Proof.Machine.execPermitCheck identity tag number group plate s
  | .groupCheck identity tag group => Sys2Proof.Machine.execGroupCheck identity tag group s
  | .roundStart identity tag => Sys2Proof.Machine.execRoundStart identity tag s
  | .roundList identity tag => Sys2Proof.Machine.execRoundList identity tag s
  | .roundEnd identity tag => Sys2Proof.Machine.execRoundEnd identity tag s
  | .terminalStatus identity tag slot => Sys2Proof.Machine.execTerminalStatus identity tag slot s
  | .lineRestart identity tag slot => Sys2Proof.Machine.execLineRestart identity tag slot s
  | .serviceBadRequest identity kind tag => Sys2Proof.Machine.execServiceBadRequest identity kind tag s
  | .serviceBusy identity kind tag => Sys2Proof.Machine.execServiceBusy identity kind tag s
  | .serviceFrameDiscard => Sys2Proof.Machine.execServiceFrameDiscard s
  | .serviceByteTimeout => Sys2Proof.Machine.execServiceByteTimeout s
  | .serviceResponseSent => Sys2Proof.Machine.execServiceResponseSent s
  -- the kerb line
  | .cycleStart => Sys2Proof.Machine.execCycleStart s
  | .answer head => Sys2Proof.Machine.execAnswer head s
  | .quote head kind amount permit plate => Sys2Proof.Machine.execQuote head kind amount permit plate s
  | .confirm head quoteId coins card => Sys2Proof.Machine.execConfirm head quoteId coins card s
  | .cancel head => Sys2Proof.Machine.execCancel head s
  | .accept head level => Sys2Proof.Machine.execAccept head level s
  | .wakeReq head => Sys2Proof.Machine.execWakeReq head s
  | .miss => Sys2Proof.Machine.execMiss s
  | .jabber => Sys2Proof.Machine.execJabber s
  | .jabberLate => Sys2Proof.Machine.execJabberLate s
  | .offer identity form => Sys2Proof.Machine.execOffer identity form s
  | .replyWindowEnd => Sys2Proof.Machine.execReplyWindowEnd s
  | .linkLostDeadline slot => Sys2Proof.Machine.execLinkLostDeadline slot s
  | .barExpiry slot => Sys2Proof.Machine.execBarExpiry slot s
  -- quotes and the silence watch
  | .walkCompletion => Sys2Proof.Machine.execWalkCompletion s
  | .quoteExpiry slot => Sys2Proof.Machine.execQuoteExpiry slot s
  | .silent slot => Sys2Proof.Machine.execSilent slot s
  -- time
  | .secondTick => Sys2Proof.Machine.execSecondTick s
  | .zoneTimeWrap => Sys2Proof.Machine.execZoneTimeWrap s
  | .minuteRoll => Sys2Proof.Machine.execMinuteRoll s
  | .dayRoll => Sys2Proof.Machine.execDayRoll s
  | .segmentBoundary slot => Sys2Proof.Machine.execSegmentBoundary slot s
  | .switchTimeArrival slot => Sys2Proof.Machine.execSwitchTimeArrival slot s
  | .roundAutoClose => Sys2Proof.Machine.execRoundAutoClose s
  -- supply
  | .powerFailEntry cellBelow duringStart => Sys2Proof.Machine.execPowerFailEntry cellBelow duringStart s
  | .cellBelowRetention => Sys2Proof.Machine.execCellBelowRetention s
  | .powerUp straps => Sys2Proof.Machine.execPowerUp straps s
  | .resetPin straps duringStart => Sys2Proof.Machine.execResetPin straps duringStart s
  -- receivers and the quiet line
  | .officeFrameStart => Sys2Proof.Machine.execOfficeFrameStart s
  | .serviceFrameStart => Sys2Proof.Machine.execServiceFrameStart s
  | .lineFallsQuiet => Sys2Proof.Machine.execLineFallsQuiet s

end Sys2Proof.Machine
end

