-- ==== Sys2Proof/Machine/Step.lean ====
section
/-!
DEFINITION. One step: the command at the front of the queue is taken (log entry 1).
-/

namespace Sys2Proof.Machine

open Sys2Proof

/-- Take the command at the front of the queue and run it with the queue's rest. On an empty queue the part idles: time moves only by
the commands SECOND_TICK and ZONE_TIME_WRAP, which are rows of the table (log entry 1). -/
def step (s : State) : Host.Outcome State Fault Refusal :=
  match s.pending with
  | [] => .next s
  | c :: rest => exec c (s.setPending rest)

/-- `s` with the command that the word spells at the front of its queue. The table gives no row any bits, so no word spells a command
and `s` stands unchanged (log entry 1). -/
def State.withFetchWord (s : State) (nbits w : Nat) : State :=
  match decodeTableWord nbits w with
  | none => s
  | some c => s.setPending (c :: s.pending)

end Sys2Proof.Machine
end

