-- ==== Sys2Proof/Machine/Frames.lean ====
section
/-!
DEFINITION. The bytes of chapter 12 (R182 to R185): numbers, the CRC-16, the frames of the three ports and of the journal, and
which command a whole frame carries. The commands of `Instr` are what these decoders give; `step` takes them as given.
-/

namespace Sys2Proof.Machine

open Sys2Proof

/-! ### Numbers and the CRC (R182, R183) -/

/-- A number in so many bytes, most significant first (R182). -/
def numBytes : Nat → Nat → List Byte
  | 0, _ => []
  | w + 1, n => BitVec.ofNat 8 (n / 256 ^ w) :: numBytes w n

/-- The number that bytes hold, most significant first (R182). -/
def number (bytes : List Byte) : Nat := bytes.foldl (fun n b => n * 256 + b.toNat) 0

/-- A signed number of so many bytes, in two's complement (PRESUMED, log entry 44: R185 says signed alone). -/
def signedBytes (w : Nat) (n : Int) : List Byte := numBytes w (n % (256 ^ w : Nat)).toNat

/-- The signed number that two bytes hold (PRESUMED, log entry 44). -/
def signed2 (n : Nat) : Int := if n < 32768 then n else (n : Int) - 65536

/-- One bit of the CRC's shift, by the generator x¹⁶ + x¹² + x⁵ + 1 (R183). -/
def crcShift (c : BitVec 16) : BitVec 16 := if c.getLsbD 15 then (c <<< 1) ^^^ 0x1021#16 else c <<< 1

/-- One byte of the CRC, most significant bit first (R183). -/
def crcByte (c : BitVec 16) (b : Byte) : BitVec 16 :=
  crcShift (crcShift (crcShift (crcShift (crcShift (crcShift (crcShift (crcShift
    (c ^^^ (b.setWidth 16 <<< 8)))))))))

/-- The CRC-16 of bytes, from FFFF, without final inversion (R183). -/
def crc16 (bytes : List Byte) : BitVec 16 := bytes.foldl crcByte 0xFFFF#16

/-- The two bytes of a CRC, high byte first (R183). -/
def crcBytes (bytes : List Byte) : List Byte := numBytes 2 (crc16 bytes).toNat

/-- A plate: a length byte and that many characters, or 0 (R182). -/
def plateBytes (p : Plate) : List Byte := BitVec.ofNat 8 p.length :: p

/-- A plate that fills the bytes to their end. -/
def readPlate : List Byte → Option Plate
  | [] => none
  | n :: chars => if n.toNat = chars.length then some chars else none

/-! ### Codes (R185) -/

/-- The number of a result or outcome code (R185). -/
def Code.number : Code → Nat
  | .ok => 0
  | .already => 1 | .badRequest => 2 | .busy => 3 | .notAuthorised => 4 | .wrongRole => 5
  | .badTime => 6 | .badOffset => 7 | .badList => 8 | .clockHeld => 9 | .noClock => 10
  | .badPlanSlot => 11 | .planInUse => 12 | .notBuilding => 13 | .badProfile => 14 | .badBandCount => 15 | .badBand => 16
  | .profilesMissing => 17 | .badDiscount => 18 | .planNotReady => 19 | .badSlotSet => 20 | .slotEmpty => 21
  | .badSwitchTime => 22
  | .badGrace => 23 | .badPermit => 24 | .registerFull => 25 | .notFound => 26 | .badGroup => 27
  | .badDenominations => 28 | .denominationsInUse => 29 | .badTolerance => 30 | .journalFull => 31 | .badSlot => 32
  | .tallyOutstanding => 33 | .inRound => 34 | .quoteInProgress => 35 | .nothingDue => 36 | .roundOpen => 37 | .noSpace => 38
  | .noRound => 39 | .notYours => 40
  | .badFault => 41 | .badCount => 42 | .badSequence => 43 | .badTerminal => 44 | .duplicateIdentity => 45 | .slotInUse => 46
  | .belowTally => 47 | .badMask => 48 | .badRoster => 49 | .rosterFull => 50
  | .clamped => 64 | .sold => 65 | .salesHalted => 66 | .outOfService => 67 | .badQuote => 68 | .notAtLevel => 69
  | .noPlan => 70 | .noTender => 71 | .permitUnknown => 72 | .permitNotValid => 73 | .permitNotInZone => 74
  | .permitPlate => 75 | .permitBusy => 76 | .noSale => 77 | .belowMinimum => 78 | .permitChanged => 79
  | .quoteExpired => 80 | .quoteUnknown => 81 | .quotePending => 82 | .tenderMismatch => 83 | .tenderRefused => 84
  | .permitRevoked => 85
  | .added => 96 | .replaced => 97 | .immediate => 98 | .pending => 99 | .queued => 100 | .done => 101 | .configured => 102
  | .updated => 103 | .unknown => 104 | .valid => 105 | .inGrace => 106 | .plateMismatch => 107 | .suspended => 108
  | .notYet => 109 | .expired => 110 | .notInZone => 111

/-- Service states 1 IN_SERVICE to 4 OUT_OF_SERVICE (R185). -/
def ServiceState.number : ServiceState → Nat
  | .inService => 1
  | .cashOnly => 2
  | .cardOnly => 3
  | .outOfService => 4

/-! ### Kerb frames (section 12.2) -/

/-- A kerb frame: type, length of the contents, contents, CRC over all but the type (section 12.2, R183). -/
def kerbFrame (kind : Nat) (contents : List Byte) : List Byte :=
  let covered := BitVec.ofNat 8 contents.length :: contents
  BitVec.ofNat 8 kind :: covered ++ crcBytes covered

/-- A yes-or-no byte, 1 or 0. Section 12.2 gives the clock-set flag of GRANT and TIME its width alone: 1 for SET and 0 for UNSET is the
model's (DESIGN CHOICE, log entry 46; in a response log entry 26). -/
def flagByte (b : Bool) : Byte := if b then 1 else 0

/-- A notice's kind byte and body (section 12.2). -/
def NoticeBody.bytes : NoticeBody → List Byte
  | .quoteResult f =>
    1 :: numBytes 1 f.quoteId ++ numBytes 1 f.code.number ++ numBytes 4 f.start ++ numBytes 4 f.expiry ++ numBytes 2 f.cost
      ++ numBytes 2 f.unspent ++ numBytes 2 f.minutes ++ numBytes 2 f.allowance ++ numBytes 1 f.validity
      ++ numBytes 2 f.firstStep
  | .saleResult f =>
    2 :: numBytes 1 f.quoteId ++ numBytes 1 f.code.number ++ numBytes 3 f.ticket ++ numBytes 4 f.start ++ numBytes 4 f.expiry
      ++ numBytes 2 f.cost ++ numBytes 2 f.unspent
  | .service state => 3 :: numBytes 1 state.number
  | .time zoneTime offset clockSet => 4 :: numBytes 4 zoneTime ++ signedBytes 2 offset ++ [flagByte clockSet]
  | .sleep => [5]
  | .wake => [6]
  | .reset => [7]

/-- The bytes of a frame the part sends: CALL 01, SEEK 02, GRANT 03 (section 12.2). -/
def KerbFrame.bytes : KerbFrame → List Byte
  | .call slot kind notice =>
    kerbFrame 1 (numBytes 1 slot ++ [match kind with | .normal => 0 | .slow => 1] ++ (notice.map NoticeBody.bytes).getD [0])
  | .seek cycle => kerbFrame 2 (numBytes 2 cycle)
  | .grant identity slot level zoneTime offset clockSet =>
    kerbFrame 3
      (numBytes 6 identity ++ numBytes 1 slot ++ numBytes 1 level ++ numBytes 4 zoneTime ++ signedBytes 2 offset
        ++ [flagByte clockSet])

/-- The contents of a kerb frame of a type, where its length byte and its CRC agree with the bytes received (R136, R183, R184). -/
def kerbContents (kind : Nat) : List Byte → Option (List Byte)
  | k :: n :: rest =>
    if k.toNat ≠ kind ∨ rest.length ≠ n.toNat + 2 then none
    else if rest.drop n.toNat ≠ crcBytes (n :: rest.take n.toNat) then none
    else some (rest.take n.toNat)
  | _ => none

/-- The three bytes of a status word. -/
def statusOf (a b c : Byte) : BitVec 24 := a ++ (b ++ c : BitVec 16)

/-- The command of an answer's request, by its code and body; none where the code is none of the five or the body is shorter or
longer than the request's form (R184, section 12.2). -/
def requestCommand (head : AnswerHead) : Nat → List Byte → Option Instr
  | 0, [] => some (.answer head)
  | 1, k :: a1 :: a0 :: p2 :: p1 :: p0 :: plate =>
    (readPlate plate).map fun p => .quote head k.toNat (number [a1, a0]) (number [p2, p1, p0]) p
  | 2, [q, n1, n2, n3, n4, n5, n6, c1, c0] =>
    some (.confirm head q.toNat ⟨n1.toNat, n2.toNat, n3.toNat, n4.toNat, n5.toNat, n6.toNat⟩ (number [c1, c0]))
  | 3, [] => some (.cancel head)
  | 4, [level] => some (.accept head level.toNat)
  | 5, [] => some (.wakeReq head)
  | _, _ => none

/-- The command that the bytes heard in an answer window make: a jabber beyond 96 bytes, a valid layout's command, or a miss (R136,
R145, R184). A sleep byte of 1 is ASLEEP and any other AWAKE. -/
def answerCommand (bytes : List Byte) : Instr :=
  if Config.jabberBytes < bytes.length then .jabber
  else
    match kerbContents 0x81 bytes with
    | some (slot :: s1 :: s2 :: s3 :: sleep :: code :: body) =>
      (requestCommand { slot := slot.toNat, status := statusOf s1 s2 s3, asleep := sleep = 1 } code.toNat body).getD .miss
    | _ => .miss

/-- The contents of an answer (section 12.2). -/
def answerContents (head : AnswerHead) (code : Nat) (body : List Byte) : List Byte :=
  numBytes 1 head.slot ++ numBytes 3 head.status.toNat ++ [flagByte head.asleep] ++ numBytes 1 code ++ body

/-- The bytes of an answer that carries a command's request (section 12.2); none for a command that is no answer. -/
def answerBytes : Instr → Option (List Byte)
  | .answer head => some (kerbFrame 0x81 (answerContents head 0 []))
  | .quote head kind amount permit plate =>
    some (kerbFrame 0x81
      (answerContents head 1 (numBytes 1 kind ++ numBytes 2 amount ++ numBytes 3 permit ++ plateBytes plate)))
  | .confirm head quoteId coins card =>
    some (kerbFrame 0x81
      (answerContents head 2 (numBytes 1 quoteId ++ coins.toList.flatMap (numBytes 1) ++ numBytes 2 card)))
  | .cancel head => some (kerbFrame 0x81 (answerContents head 3 []))
  | .accept head level => some (kerbFrame 0x81 (answerContents head 4 (numBytes 1 level)))
  | .wakeReq head => some (kerbFrame 0x81 (answerContents head 5 []))
  | _ => none

/-- The command that the bytes heard in a reply window make: an OFFER in either form, or nothing (R140, section 12.2). -/
def offerCommand (bytes : List Byte) : Option Instr :=
  match kerbContents 0x82 bytes with
  | some [a, b, c, d, e, f] => some (.offer (number [a, b, c, d, e, f]) .legacy)
  | some [a, b, c, d, e, f, caps, level] => some (.offer (number [a, b, c, d, e, f]) (.full caps level.toNat))
  | _ => none

/-- The bytes of an OFFER (section 12.2). -/
def offerBytes (identity : Nat) : OfferForm → List Byte
  | .legacy => kerbFrame 0x82 (numBytes 6 identity)
  | .full caps level => kerbFrame 0x82 (numBytes 6 identity ++ [caps] ++ numBytes 1 level)

/-! ### Office and service frames (section 12.3) -/

/-- A frame of the office port or the service link: start byte, body length, kind, tag, body, CRC over all but the start byte. -/
def uartFrame (kind tag : Nat) (body : List Byte) : List Byte :=
  let covered := numBytes 2 body.length ++ numBytes 1 kind ++ numBytes 1 tag ++ body
  0x7E :: covered ++ crcBytes covered

/-- What a receiver makes of the bytes from a start byte on (R161, R169). -/
inductive FrameRead where
  | incomplete
  | discarded
  | whole (kind tag : Nat) (body : List Byte)
  deriving DecidableEq, Repr

/-- Read one frame whose body is at most `most` bytes: discarded where the length is too great or the CRC is wrong (R161, R169,
R183). -/
def readFrame (most : Nat) : List Byte → FrameRead
  | start :: h :: l :: rest =>
    let n := number [h, l]
    if start ≠ 0x7E then .incomplete
    else if most < n then .discarded
    else
      match rest with
      | k :: t :: more =>
        if more.length < n + 2 then .incomplete
        else if (more.drop n).take 2 ≠ crcBytes (h :: l :: k :: t :: more.take n) then .discarded
        else .whole k.toNat t.toNat (more.take n)
      | _ => .incomplete
  | _ => .incomplete

/-- Numbers of two bytes each. -/
def numbers2 : List Byte → List Nat
  | a :: b :: rest => number [a, b] :: numbers2 rest
  | _ => []

/-- Band entries of twelve bytes each (section 12.3). -/
def bandEntries : List Byte → List BandEntry
  | s1 :: s0 :: k :: l :: p1 :: p0 :: d1 :: d0 :: c1 :: c0 :: m1 :: m0 :: rest =>
    { start := number [s1, s0], kind := k.toNat, step := l.toNat, price := number [p1, p0], increment := number [d1, d0],
      cap := number [c1, c0], stay := number [m1, m0] } :: bandEntries rest
  | _ => []

/-- Six numbers of two bytes each. -/
def readSix (bytes : List Byte) : Option Six :=
  match numbers2 bytes with
  | [a, b, c, d, e, f] => if bytes.length = 12 then some ⟨a, b, c, d, e, f⟩ else none
  | _ => none

/-- The command of an office request whose body fits the form of its kind (R185); none where the kind is no office request or the body
does not fit. -/
def officeBody (tag : Nat) : Nat → List Byte → Option Instr
  | 0x01, [a, b, c, d, e, f] => some (.clockSet (.office tag) (number [a, b, c, d]) (signed2 (number [e, f])))
  | 0x02, [] => some (.clockGet tag)
  | 0x03, n :: rest => if rest.length = 2 * n.toNat then some (.holidaysPut tag (numbers2 rest)) else none
  | 0x04, [p] => some (.planBegin tag p.toNat)
  | 0x05, p :: q :: n :: rest =>
    if rest.length = 12 * n.toNat then some (.profilePut tag p.toNat q.toNat (bandEntries rest)) else none
  | 0x06, [p, r, v, b] => some (.planClose tag p.toNat r.toNat v.toNat b.toNat)
  | 0x07, [p] => some (.planClear tag p.toNat)
  | 0x08, p :: mode :: a :: b :: c :: d :: n :: slots =>
    if slots.length = n.toNat then
      some (.planAssign tag p.toNat (if mode = 0 then none else some (number [a, b, c, d])) (slots.map BitVec.toNat))
    else none
  | 0x09, [g] => some (.gracePut tag g.toNat)
  | 0x0A, n2 :: n1 :: n0 :: k :: f1 :: f0 :: l1 :: l0 :: a1 :: a0 :: st :: g :: rest =>
    if g.toNat ≤ rest.length then
      (readPlate (rest.drop g.toNat)).map fun plate =>
        .permitPut tag (number [n2, n1, n0]) k.toNat (number [f1, f0]) (number [l1, l0]) (number [a1, a0]) st.toNat
          ((rest.take g.toNat).map BitVec.toNat) plate
    else none
  | 0x0B, [a, b, c] => some (.permitRevoke tag (number [a, b, c]))
  | 0x0C, [a, b, c] => some (.permitGet tag (number [a, b, c]))
  | 0x0D, [s, a, b, c, d, e, f, g, c1, c0, t] =>
    some (.terminalPut tag s.toNat (number [a, b, c, d, e, f]) g.toNat (number [c1, c0]) t.toNat)
  | 0x0E, [s] => some (.terminalRemove tag s.toNat)
  | 0x0F, [s] => some (.terminalAudit tag s.toNat)
  | 0x10, body => (readSix body).map fun v => .denominationsPut tag v
  | 0x11, [a, b] => some (.tolerancePut tag (number [a, b]))
  | 0x12, a :: b :: rest => (readSix rest).map fun v => .countResult tag (number [a, b]) v
  | 0x13, [s] => some (.faultList tag s.toNat)
  | 0x14, [s, k] => some (.faultAck (.office tag) s.toNat k.toNat)
  | 0x15, [] => some (.groupStatus tag)
  | 0x16, [n] => some (.journalRead tag n.toNat)
  | 0x17, [a, b, c, d] => some (.journalAck tag (number [a, b, c, d]))
  | 0x18, [] => some (.status tag)
  | 0x19, [a, b] => some (.attentionMask tag (number [a, b]))
  | 0x1A, [a, b, c, d, r, k] => some (.rosterPut tag (number [a, b, c, d]) r.toNat k.toNat)
  | 0x1B, [a, b, c, d] => some (.rosterRemove tag (number [a, b, c, d]))
  | 0x1C, [] => some (.restart tag)
  | _, _ => none

/-- The command that the bytes of an office frame make; none while the frame is not whole (R161, R162). -/
def officeCommand (bytes : List Byte) : Option Instr :=
  match readFrame Config.officeBodyMax bytes with
  | .incomplete => none
  | .discarded => some .officeFrameDiscard
  | .whole kind tag body => some ((officeBody tag kind body).getD (.officeBadRequest kind tag))

/-- The command of a service request whose body, after the identity, fits the form of its kind (R185). -/
def serviceBody (identity tag : Nat) : Nat → List Byte → Option Instr
  | 0x01, [a, b, c, d, e, f] =>
    some (.clockSet (.handheld identity tag) (number [a, b, c, d]) (signed2 (number [e, f])))
  | 0x14, [s, k] => some (.faultAck (.handheld identity tag) s.toNat k.toNat)
  | 0x40, a :: b :: c :: plate => (readPlate plate).map fun p => .ticketCheck identity tag (number [a, b, c]) p
  | 0x41, a :: b :: c :: g :: plate => (readPlate plate).map fun p => .permitCheck identity tag (number [a, b, c]) g.toNat p
  | 0x42, [g] => some (.groupCheck identity tag g.toNat)
  | 0x43, [] => some (.roundStart identity tag)
  | 0x44, [] => some (.roundList identity tag)
  | 0x45, [] => some (.roundEnd identity tag)
  | 0x46, [s] => some (.terminalStatus identity tag s.toNat)
  | 0x47, [s] => some (.lineRestart identity tag s.toNat)
  | _, _ => none

/-- The command that the bytes of a service frame make; none while the frame is not whole (R169, R174). -/
def serviceCommand (bytes : List Byte) : Option Instr :=
  match readFrame Config.serviceBodyMax bytes with
  | .incomplete => none
  | .discarded => some .serviceFrameDiscard
  | .whole kind tag (a :: b :: c :: d :: rest) =>
    let identity := number [a, b, c, d]
    some ((serviceBody identity tag kind rest).getD (.serviceBadRequest (some identity) kind tag))
  | .whole kind tag _ => some (.serviceBadRequest none kind tag)

/-! ### The requests as they are sent (R185) -/

/-- The twelve bytes of a band entry (section 12.3). -/
def BandEntry.bytes (b : BandEntry) : List Byte :=
  numBytes 2 b.start ++ numBytes 1 b.kind ++ numBytes 1 b.step ++ numBytes 2 b.price ++ numBytes 2 b.increment
    ++ numBytes 2 b.cap ++ numBytes 2 b.stay

/-- The kind, tag and body of an office request; none for a command that is no office request (R185). -/
def officeRequestBytes : Instr → Option (Nat × Nat × List Byte)
  | .clockSet (.office tag) time offset => some (0x01, tag, numBytes 4 time ++ signedBytes 2 offset)
  | .clockGet tag => some (0x02, tag, [])
  | .holidaysPut tag days => some (0x03, tag, numBytes 1 days.length ++ days.flatMap (numBytes 2))
  | .planBegin tag plan => some (0x04, tag, numBytes 1 plan)
  | .profilePut tag plan profile bands =>
    some (0x05, tag, numBytes 1 plan ++ numBytes 1 profile ++ numBytes 1 bands.length ++ bands.flatMap BandEntry.bytes)
  | .planClose tag plan r v b => some (0x06, tag, numBytes 1 plan ++ numBytes 1 r ++ numBytes 1 v ++ numBytes 1 b)
  | .planClear tag plan => some (0x07, tag, numBytes 1 plan)
  | .planAssign tag plan switch slots =>
    some (0x08, tag, numBytes 1 plan ++ [flagByte switch.isSome] ++ numBytes 4 (switch.getD 0) ++ numBytes 1 slots.length
      ++ slots.flatMap (numBytes 1))
  | .gracePut tag grace => some (0x09, tag, numBytes 1 grace)
  | .permitPut tag number kind firstDay lastDay allowance standing zones plate =>
    some (0x0A, tag, numBytes 3 number ++ numBytes 1 kind ++ numBytes 2 firstDay ++ numBytes 2 lastDay ++ numBytes 2 allowance
      ++ numBytes 1 standing ++ numBytes 1 zones.length ++ zones.flatMap (numBytes 1) ++ plateBytes plate)
  | .permitRevoke tag number => some (0x0B, tag, numBytes 3 number)
  | .permitGet tag number => some (0x0C, tag, numBytes 3 number)
  | .terminalPut tag slot identity group capacity threshold =>
    some (0x0D, tag, numBytes 1 slot ++ numBytes 6 identity ++ numBytes 1 group ++ numBytes 2 capacity ++ numBytes 1 threshold)
  | .terminalRemove tag slot => some (0x0E, tag, numBytes 1 slot)
  | .terminalAudit tag slot => some (0x0F, tag, numBytes 1 slot)
  | .denominationsPut tag values => some (0x10, tag, values.toList.flatMap (numBytes 2))
  | .tolerancePut tag tolerance => some (0x11, tag, numBytes 2 tolerance)
  | .countResult tag number counted => some (0x12, tag, numBytes 2 number ++ counted.toList.flatMap (numBytes 2))
  | .faultList tag slot => some (0x13, tag, numBytes 1 slot)
  | .faultAck (.office tag) slot fault => some (0x14, tag, numBytes 1 slot ++ numBytes 1 fault)
  | .groupStatus tag => some (0x15, tag, [])
  | .journalRead tag count => some (0x16, tag, numBytes 1 count)
  | .journalAck tag sequence => some (0x17, tag, numBytes 4 sequence)
  | .status tag => some (0x18, tag, [])
  | .attentionMask tag mask => some (0x19, tag, numBytes 2 mask)
  | .rosterPut tag identity role key => some (0x1A, tag, numBytes 4 identity ++ numBytes 1 role ++ numBytes 1 key)
  | .rosterRemove tag identity => some (0x1B, tag, numBytes 4 identity)
  | .restart tag => some (0x1C, tag, [])
  | _ => none

/-- The whole frame of an office request. -/
def officeBytes (i : Instr) : Option (List Byte) := (officeRequestBytes i).map fun r => uartFrame r.1 r.2.1 r.2.2

/-- The kind, tag, identity and body of a service request; none for a command that is no service request (R185). -/
def serviceRequestBytes : Instr → Option (Nat × Nat × Nat × List Byte)
  | .clockSet (.handheld identity tag) time offset => some (0x01, tag, identity, numBytes 4 time ++ signedBytes 2 offset)
  | .faultAck (.handheld identity tag) slot fault => some (0x14, tag, identity, numBytes 1 slot ++ numBytes 1 fault)
  | .ticketCheck identity tag ticket plate => some (0x40, tag, identity, numBytes 3 ticket ++ plateBytes plate)
  | .permitCheck identity tag number group plate =>
    some (0x41, tag, identity, numBytes 3 number ++ numBytes 1 group ++ plateBytes plate)
  | .groupCheck identity tag group => some (0x42, tag, identity, numBytes 1 group)
  | .roundStart identity tag => some (0x43, tag, identity, [])
  | .roundList identity tag => some (0x44, tag, identity, [])
  | .roundEnd identity tag => some (0x45, tag, identity, [])
  | .terminalStatus identity tag slot => some (0x46, tag, identity, numBytes 1 slot)
  | .lineRestart identity tag slot => some (0x47, tag, identity, numBytes 1 slot)
  | _ => none

/-- The whole frame of a service request: its body opens with the identity (section 12.3). -/
def serviceBytes (i : Instr) : Option (List Byte) :=
  (serviceRequestBytes i).map fun r => uartFrame r.1 r.2.1 (numBytes 4 r.2.2.1 ++ r.2.2.2)

/-! ### Journal records (section 12.4) -/

/-- The code of a record's kind (section 12.4). -/
def RecordBody.kind : RecordBody → Nat
  | .sale _ => 1
  | .collection _ => 2
  | .reconciled _ _ _ _ _ _ => 3
  | .roundClosed _ _ _ _ _ => 4
  | .coverChange _ _ _ => 5

/-- Outcomes 1 BALANCED, 2 SHORT, 3 OVER (section 12.4). -/
def Balance.number : Balance → Nat
  | .balanced => 1
  | .short => 2
  | .over => 3

/-- Cover states 1 FREE_TIME, 2 COVERED, 3 UNCOVERED (section 12.4). -/
def Cover.number : Cover → Nat
  | .freeTime => 1
  | .covered => 2
  | .uncovered => 3

/-- The bytes of a record's body (section 12.4); an absent permit number is 0 and an absent plate a length of 0 (R182). -/
def RecordBody.bytes : RecordBody → List Byte
  | .sale b =>
    numBytes 1 b.slot ++ numBytes 3 b.ticket ++ numBytes 1 (if b.byDuration then 2 else 1) ++ numBytes 4 b.start
      ++ numBytes 4 b.expiry ++ numBytes 2 b.cost ++ b.coins.toList.flatMap (numBytes 1) ++ numBytes 2 b.card
      ++ numBytes 2 b.unspent ++ numBytes 3 (b.permit.getD 0) ++ numBytes 2 b.allowance ++ numBytes 1 b.firstPlan
      ++ numBytes 1 b.lastPlan ++ plateBytes (b.plate.getD [])
  | .collection c =>
    numBytes 2 c.number ++ numBytes 1 c.slot ++ numBytes 1 c.key ++ numBytes 4 c.periodStart ++ numBytes 4 c.periodEnd
      ++ c.expected.toList.flatMap (numBytes 2) ++ numBytes 4 c.value
  | .reconciled number counted expected countedValue discrepancy outcome =>
    numBytes 2 number ++ counted.toList.flatMap (numBytes 2) ++ numBytes 4 expected ++ numBytes 4 countedValue
      ++ signedBytes 4 discrepancy ++ numBytes 1 outcome.number
  | .roundClosed number collector start finish entries =>
    numBytes 2 number ++ numBytes 4 collector ++ numBytes 4 start ++ numBytes 4 finish ++ numBytes 1 entries.length
      ++ entries.flatMap fun e => numBytes 1 e.1 ++ numBytes 1 (if e.2 = .missed then 2 else 1)
  | .coverChange group cover since => numBytes 1 group ++ numBytes 1 cover.number ++ numBytes 4 since

/-- The bytes of a record: the header of thirteen bytes and the body (section 12.4). -/
def Record.bytes (r : Record) : List Byte :=
  numBytes 4 r.sequence ++ numBytes 1 r.body.kind ++ [flagByte r.unset] ++ numBytes 1 r.zone ++ numBytes 4 r.zoneTime
    ++ numBytes 2 r.body.size ++ r.body.bytes

/-! ### The responses as they are sent (R162, R170, R182, R183, R185) -/

/-- A field to which no table gives a width: its range needs `least` bytes (R182; log entry 13). -/
def answerField (kind field least n : Nat) : List Byte := numBytes (Config.answerWidth kind field least) n

/-- A signed field to which no table gives a width, in two's complement (PRESUMED, log entry 44). -/
def answerSigned (kind field least : Nat) (n : Int) : List Byte := signedBytes (Config.answerWidth kind field least) n

/-- Six counts or values. -/
def answerSix (kind field least : Nat) (v : Six) : List Byte := v.toList.flatMap (answerField kind field least)

/-- A field that may be absent. -/
def answerOption {α : Type} (kind field : Nat) (bytes : α → List Byte) : Option α → List Byte
  | none => Config.answerAbsent kind field
  | some a => bytes a

/-- A name to which chapter 12 gives no code, by its group and its place there (log entry 13). -/
def answerName (group place : Nat) : List Byte := numBytes 1 (Config.answerCode group place)

/-- Roles 1 OFFICER, 2 COLLECTOR, 3 ENGINEER (R185). -/
def Role.number : Role → Nat
  | .officer => 1
  | .collector => 2
  | .engineer => 3

/-- Permit kinds 1 RESIDENT, 2 VISITOR, 3 BUSINESS (R185). -/
def PermitKind.number : PermitKind → Nat
  | .resident => 1
  | .visitor => 2
  | .business => 3

/-- Link states; EMPTY, the state of a slot without a record, is name 0 of the group. -/
def LinkState.bytes : LinkState → List Byte
  | .absent => answerName 1 1
  | .granted => answerName 1 2
  | .active => answerName 1 3
  | .sleeping => answerName 1 4
  | .lost => answerName 1 5
  | .barred => answerName 1 6

def FaultState.bytes : FaultState → List Byte
  | .clear => answerName 2 1
  | .active => answerName 2 2
  | .held => answerName 2 3
  | .latched => answerName 2 4

def DueReason.bytes : DueReason → List Byte
  | .full => answerName 3 1
  | .jam => answerName 3 2
  | .due => answerName 3 3

def EntryState.bytes : EntryState → List Byte
  | .pending => answerName 4 1
  | .visited => answerName 4 2
  | .missed => answerName 4 3

def QuoteState.bytes : QuoteState → List Byte
  | .none => answerName 5 1
  | .queued => answerName 5 2
  | .walking => answerName 5 3
  | .opened => answerName 5 4

/-- Power classes by the numbers of the status word (section 12.2). -/
def PowerClass.number : PowerClass → Nat
  | .ok => 0
  | .low => 1
  | .critical => 2

/-- A door state with its key, by the numbers of the status word: OPEN or not, the key kind and the key number (section 12.2). -/
def Door.bytes : Door → List Byte
  | .closed => [0, 0, 0]
  | .opened .none => [1, 0, 0]
  | .opened (.collector number) => [1, 1] ++ numBytes 1 number
  | .opened .engineer => [1, 2, 0]

/-- A set of flags or a mask, by the bits of an ATTENTION_MASK (R185). -/
def Flags.number (f : Flags) : Nat := f.toList.reverse.foldl (fun n b => 2 * n + b.toNat) 0

/-- A permit number that may be absent: three bytes, 0 for none (R182). -/
def permitBytes (permit : Option Nat) : List Byte := numBytes 3 (permit.getD 0)

/-- A plate that may be absent: its length byte is 0 then (R182). -/
def optionalPlate (plate : Option Plate) : List Byte := plateBytes (plate.getD [])

def CashFields.bytes (kind : Nat) (c : CashFields) : List Byte :=
  answerSix kind 1 2 c.tally ++ answerSix kind 2 6 c.accepted ++ answerSix kind 3 6 c.collected
    ++ answerField kind 4 6 c.cardTotal ++ numBytes 4 c.lastCut

def PlanFields.bytes (kind : Nat) (p : PlanFields) : List Byte :=
  answerOption kind 5 (numBytes 1) p.current
    ++ answerOption kind 6 (fun q => numBytes 1 q.1 ++ numBytes 4 q.2) p.pending

def JournalFigures.bytes (kind : Nat) (f : JournalFigures) : List Byte :=
  answerField kind 2 2 f.used ++ answerField kind 3 1 f.reserved ++ answerField kind 4 2 f.free

/-- A capability set, by the bits of an OFFER (section 12.2). -/
def Caps.number (c : Caps) : Nat :=
  c.coins.toNat + 2 * c.card.toNat + 4 * c.permitEntry.toNat + 8 * c.plateEntry.toNat + 16 * c.keyWake.toNat

/-- What TERMINAL_AUDIT answers, in the order of R112. -/
def AuditView.bytes (kind : Nat) (v : AuditView) : List Byte :=
  numBytes 6 v.config.identity ++ numBytes 1 v.config.group ++ numBytes 2 v.config.capacity ++ numBytes 1 v.config.threshold
    ++ v.link.bytes ++ answerOption kind 7 (numBytes 1) v.level ++ answerOption kind 8 (fun c => numBytes 1 c.number) v.caps
    ++ numBytes 1 v.service.number ++ v.plans.bytes kind ++ v.quote.bytes ++ v.cash.bytes kind
    ++ answerField kind 9 3 v.tallyValue ++ answerField kind 10 2 v.fill ++ [flagByte v.boxFull]
    ++ answerOption kind 11 (fun e => e.1.bytes ++ e.2.bytes) v.roundEntry ++ answerField kind 12 1 v.collections

/-- What FAULT_LIST answers, in the order of R120. -/
def FaultView.bytes (kind : Nat) (v : FaultView) : List Byte :=
  v.faults.flatMap (fun f => f.1.state.bytes ++ [flagByte f.2] ++ numBytes 4 f.1.changed)
    ++ numBytes 1 v.service.number ++ [flagByte v.impacts.total, flagByte v.impacts.cash, flagByte v.impacts.card]
    ++ numBytes 1 v.power.number ++ answerField kind 1 1 v.clearRun
    ++ [flagByte v.filtered.paperLow, flagByte v.filtered.paperOut, flagByte v.filtered.coinJam, flagByte v.filtered.cardFault]
    ++ v.door.bytes ++ answerField kind 2 3 v.silence ++ answerOption kind 3 (answerField kind 4 2) v.estimate
    ++ answerField kind 5 2 v.limit

/-- A round entry: slot, reason, fill at the start, state (R99, R101). -/
def RoundEntry.bytes (kind : Nat) (e : RoundEntry) : List Byte :=
  numBytes 1 e.slot ++ e.reason.bytes ++ answerField kind 1 2 e.fill ++ e.state.bytes

/-- The terminal's link state, service state and tally beside a listed entry (R94, R99). -/
def ListedBox.present (kind : Nat) (b : ListedBox) : List Byte :=
  b.link.bytes ++ numBytes 1 b.service.number ++ answerField kind 2 2 b.tallyTotal ++ answerField kind 3 3 b.tallyValue

/-- What GROUP_STATUS answers for one group, in the order of R132. DEDUCED (log entry 26): the number of member slots stands before them,
because nothing else tells their end. -/
def GroupView.bytes (kind : Nat) (v : GroupView) : List Byte :=
  numBytes 1 v.record.cover.number ++ numBytes 4 v.record.since ++ [flagByte v.record.mark]
    ++ answerField kind 3 1 v.members.length ++ v.members.flatMap (numBytes 1)
    ++ answerField kind 1 1 v.chargedMembers ++ answerField kind 2 1 v.servingMembers

/-- The fields of a response after its result code, in the order in which the owning rule lists them (section 12.3). An answer word, and
a number that a refusal names, is one byte (R185); zone times are four bytes, a handheld's identity four, a terminal's six (R182).
DESIGN CHOICE (log entry 26): the weekday of CLOCK_GET is sent as the remainder of R2, 0 for Monday to 6 for Sunday. -/
def Body.bytes (kind : Nat) : Body → List Byte
  | .empty => []
  | .number n => numBytes 1 n
  | .bandField band field => numBytes 1 band ++ numBytes 1 field
  | .missing first count => numBytes 1 first ++ answerField kind 1 1 count
  | .word answer => numBytes 1 answer.number
  | .wordCount answer count => numBytes 1 answer.number ++ answerField kind 1 (if kind = 0x1A then 1 else 2) count
  | .role who => numBytes 1 who.number
  | .clockWas before after day rolled => numBytes 4 before ++ numBytes 4 after ++ answerField kind 1 2 day ++ [flagByte rolled]
  | .clock zoneTime offset clockSet uptime day weekday lastRolled =>
    numBytes 4 zoneTime ++ answerSigned kind 1 2 offset ++ [flagByte clockSet] ++ answerField kind 2 4 uptime
      ++ answerField kind 3 2 day ++ answerField kind 4 1 weekday ++ answerOption kind 5 (answerField kind 6 2) lastRolled
  | .profileCount count => answerField kind 1 1 count
  | .revoked hold => answerOption kind 1 (fun h => numBytes 1 h.1 ++ numBytes 1 h.2) hold
  | .permit n record remaining day clockSet =>
    numBytes 3 n ++ numBytes 1 record.kind.number ++ answerField kind 9 1 record.zones.length
      ++ record.zones.flatMap (numBytes 1) ++ optionalPlate record.plate ++ answerField kind 1 2 record.firstDay
      ++ answerField kind 2 2 record.lastDay ++ answerField kind 3 2 record.allowance
      ++ numBytes 1 (if record.suspended then 2 else 1) ++ answerField kind 4 2 record.consumed
      ++ answerOption kind 5 (fun h => numBytes 1 h.owner ++ numBytes 1 h.quoteId ++ answerField kind 6 2 h.minutes) record.hold
      ++ answerField kind 7 2 remaining ++ answerField kind 8 2 day ++ [flagByte clockSet]
  | .removed accepted collected cardTotal =>
    answerSix kind 1 6 accepted ++ answerSix kind 2 6 collected ++ answerField kind 3 6 cardTotal
  | .tally counts => answerSix kind 4 2 counts
  | .slotIsEmpty => answerName 1 0
  | .audit view => view.bytes kind
  | .inUse tallies waiting => answerField kind 1 1 tallies ++ answerField kind 2 1 waiting
  | .reconciled outcome expected counted discrepancy =>
    numBytes 1 outcome.number ++ answerField kind 1 3 expected ++ answerField kind 2 4 counted ++ answerSigned kind 3 4 discrepancy
  | .faults view => view.bytes kind
  | .terminalStatus view link => view.bytes kind ++ link.bytes
  | .faultState state => state.bytes
  | .groups views => views.flatMap (GroupView.bytes kind)
  | .group cover since members clockSet =>
    numBytes 1 cover.number ++ numBytes 4 since ++ answerField kind 1 1 members ++ [flagByte clockSet]
  | .records list figures next =>
    list.flatMap Record.bytes ++ answerField kind 1 1 list.length ++ figures.bytes kind ++ answerField kind 5 4 next
  | .acked gone figures => answerField kind 1 2 gone ++ figures.bytes kind
  | .ackRefused figures => figures.bytes kind
  | .attention flags enabled lastUnknown figures head next overruns =>
    answerField kind 5 2 flags.number ++ answerField kind 6 2 enabled.number ++ answerOption kind 7 (numBytes 6) lastUnknown
      ++ figures.bytes kind ++ answerOption kind 8 (answerField kind 9 4) head ++ answerField kind 10 4 next
      ++ answerField kind 11 1 overruns
  | .mask enabled => answerField kind 1 2 enabled.number
  | .rosterRemoved who left => numBytes 1 who.number ++ answerField kind 1 1 left
  | .ticket answer entry clockSet =>
    numBytes 1 answer.number
      ++ answerOption kind 1 (fun x => numBytes 1 x.slot ++ numBytes 1 x.group ++ numBytes 4 x.start ++ numBytes 4 x.expiry
          ++ permitBytes x.permit) entry
      ++ [flagByte clockSet]
  | .permitStanding answer record clockSet =>
    numBytes 1 answer.number
      ++ answerOption kind 1 (fun p => numBytes 1 p.kind.number ++ answerField kind 2 2 p.firstDay ++ answerField kind 3 2 p.lastDay
          ++ answerField kind 4 1 p.zones.length ++ p.zones.flatMap (numBytes 1) ++ optionalPlate p.plate) record
      ++ [flagByte clockSet]
  | .roundBusy n collector => answerField kind 2 2 n ++ numBytes 4 collector
  | .space due freeRecords freeJournal => answerField kind 3 1 due ++ answerField kind 4 1 freeRecords ++ answerField kind 5 2 freeJournal
  | .roundOpened n entries => answerField kind 2 2 n ++ entries.flatMap (RoundEntry.bytes kind)
  | .roundNow n collector key start closes boxes =>
    answerField kind 4 2 n ++ numBytes 4 collector ++ numBytes 1 key ++ numBytes 4 start ++ numBytes 4 closes
      ++ boxes.flatMap fun b => b.entry.bytes kind ++ b.present kind
  | .roundPreview boxes count fits =>
    answerName 6 1
      ++ boxes.flatMap (fun b => numBytes 1 b.entry.slot ++ b.entry.reason.bytes ++ answerField kind 1 2 b.entry.fill ++ b.present kind)
      ++ answerField kind 6 1 count ++ [flagByte fits]
  | .roundEnded n entries => answerField kind 2 2 n ++ entries.flatMap fun e => numBytes 1 e.1 ++ e.2.bytes

/-- A response body after the handheld's identity: the result code in one byte, then the fields (section 12.3). -/
def Response.bytes (kind : Nat) (r : Response) : List Byte := numBytes 1 r.code.number ++ r.body.bytes kind

/-- A response as a body with so much room carries it (R161, R169): the result code and the fields, or, where the fields are longer than the
room left, bytes that no rule gives, as many as there is room for (FREE VALUE, log entry 42). -/
def Response.sent (room kind : Nat) (r : Response) : List Byte :=
  if (r.bytes kind).length ≤ room then r.bytes kind
  else numBytes 1 r.code.number ++ (Config.overlongFields (r.body.bytes kind)).take (room - 1)

/-- The frame of an office response: the kind and tag of its request, and its CRC (R161, R162, R183, R185). -/
def OfficeReply.frame (r : OfficeReply) : List Byte := uartFrame r.kind r.tag (r.response.sent Config.officeBodyMax r.kind)

/-- The frame of a BUSY answer of the office port to a request of this kind and tag (R162). -/
def officeBusyFrame (b : Nat × Nat) : List Byte := OfficeReply.frame { kind := b.1, tag := b.2, response := refusal .busy }

/-- The frame of a service response: its body opens with the identity of its request (R169, R170, section 12.3). -/
def ServiceReply.frame (r : ServiceReply) : List Byte :=
  uartFrame r.kind r.tag (numBytes 4 r.identity ++ r.response.sent (Config.serviceBodyMax - 4) r.kind)

/-- The frame of a BUSY answer of the service link (R170). -/
def serviceBusyFrame (b : Nat × Nat × Nat) : List Byte :=
  ServiceReply.frame { identity := b.1, kind := b.2.1, tag := b.2.2, response := refusal .busy }

end Sys2Proof.Machine
end

