-- ==== Sys2Proof/Safety.lean ====
section
/-!
DEFINITION. What a run of the part must keep: the laws that the spec states of its tables, its journal, its coins, its rounds, its
holds and its derived states, as properties of a state.
-/

namespace Sys2Proof.Machine

open Sys2Proof

/-- A law is kept: from every state that meets it, a step gives a state that meets it. -/
def Kept (law : State → Prop) : Prop := ∀ s t : State, law s → step s = .next t → law t

/-- Every table stands in ascending order of its key with no key twice, and the group records are those of groups 1 to 12 (R77,
R171, spec 00 section 4). -/
abbrev TablesOrdered (s : State) : Prop :=
  Table.wf s.terminals = true ∧ Table.wf s.plans = true ∧ Table.wf s.permits = true ∧ Table.wf s.roster = true
    ∧ Table.keys s.groups = groupNumbers

/-- R96: at every position, lifetime accepted equals the tally plus lifetime collected. -/
abbrev CoinLaw (c : CashFields) : Prop := c.accepted = c.tally.add c.collected

/-- R96, for every configured terminal. -/
abbrev CoinsAccounted (s : State) : Prop := ∀ e ∈ s.terminals, CoinLaw e.2.cash

/-- Records from one of a sequence number on are consecutive, and the number after the last is `next` (R155). -/
def consecutive (next : Nat) : List Record → Bool
  | [] => true
  | [r] => nextSequence r.sequence = next
  | r :: q :: rest => decide (nextSequence r.sequence = q.sequence) && consecutive next (q :: rest)

/-- R155: the records of the queue are consecutive numbers up to the next sequence number. -/
abbrev JournalConsecutive (s : State) : Prop := consecutive s.journal.nextSequence s.journal.records = true

/-- R157: the reservation is the open round's PENDING entries plus one, and 0 with no round open. -/
def owedReservation (round : Option Round) : Nat :=
  match round with
  | none => 0
  | some r => pendingEntries r + 1

/-- The collection records that the open round has reserved: one for each PENDING entry (R101, R104). -/
def reservedCollections (round : Option Round) : Nat := (round.map pendingEntries).getD 0

/-- An open round names no slot twice, holds no MISSED entry, and every slot it names is configured (R98, R100, R113). -/
abbrev RoundSound (s : State) (r : Round) : Prop :=
  (r.entries.map (·.slot)).Nodup ∧ (∀ e ∈ r.entries, e.state ≠ .missed) ∧ ∀ e ∈ r.entries, e.slot ∈ Table.keys s.terminals

/-- The accounts of a round: the journal's reservation (R157), the collection records (R101, R104), the capacity of the journal (R155)
and the one registered deadline (R11, R101). -/
abbrev RoundAccounted (s : State) : Prop :=
  s.journal.reservation = owedReservation s.cash.round
    ∧ used s + s.journal.reservation ≤ Config.journalCapacity
    ∧ s.cash.collections.length + reservedCollections s.cash.round ≤ Config.maxCollections
    ∧ s.calendar.deadline = s.cash.round.map (fun r => r.start + Config.roundSeconds)
    ∧ Table.wf s.terminals = true
    ∧ ∀ r ∈ s.cash.round, RoundSound s r

/-- R87: a hold exists only while its owner's quote slot is OPEN with its quote id. -/
abbrev HoldsOwned (s : State) : Prop :=
  ∀ e ∈ s.permits, ∀ h ∈ e.2.hold, ∃ q ∈ s.terminals, q.1 = h.owner ∧
    match q.2.quote with
    | .opened o => o.quoteId = h.quoteId ∧ o.permit = some (e.1, h.minutes)
    | _ => False

/-- R126 and R130: while the part is RUNNING, every held service state is the derived one, and every held cover is the derived one. -/
abbrev StatesDerived (s : State) : Prop :=
  s.supply.part = .running →
    (∀ e ∈ s.terminals, e.2.watch.service = serviceOf s e.2) ∧ ∀ e ∈ s.groups, e.2.cover = coverOf e.1 s

/-- R131: pending-record marks exist only while the unreserved free space is 0. -/
abbrev MarksOnlyWhenFull (s : State) : Prop := freeSpace s = 0 ∨ ∀ e ∈ s.groups, e.2.mark = false

/-- The engine's accounts with the quote slots: an entry of the walk queue is its slot's QUEUED quote and stands for its slot alone, and
the walk in flight is its slot's WALKING quote unless it is marked for discard, and while the part runs the queue waits only behind a
walk in flight (R34 to R37, R54, R58). -/
abbrev EngineSound (s : State) : Prop :=
  (s.engine.queue.map (·.slot)).Nodup
    ∧ (∀ x ∈ s.engine.queue, (terminal s x.slot).map (·.quote) = some (.queued x.quoteId))
    ∧ (∀ w ∈ s.engine.walk, w.discard = false → (terminal s w.entry.slot).map (·.quote) = some (.walking w.entry.quoteId))
    ∧ (s.supply.part = .running → s.engine.walk = none → s.engine.queue = [])

/-- A plan slot is in use: a configured terminal or the walk in flight names it (R20). -/
abbrev InUse (plan : Nat) (s : State) : Prop :=
  (∃ e ∈ s.terminals, e.2.plans.current = some plan ∨ ∃ p ∈ e.2.plans.pending, p.1 = plan)
    ∨ ∃ w ∈ s.engine.walk, w.current = some plan ∨ ∃ p ∈ w.pending, p.1 = plan

/-- A plan slot in use is READY (R20, R26, R32). -/
abbrev PlansReady (s : State) : Prop := ∀ plan : Nat, InUse plan s → (readyPlan s.plans plan).isSome = true

/-- How many notices of a sort a queue holds. -/
abbrev count (sort : NoticeBody → Bool) (q : List Notice) : Nat := (q.filter fun n => sort n.body).length

/-- A notice queue (R139, R146, R148, R150, R153): at most four notices, and at most one result, one SERVICE, one TIME, one RESET and
one of SLEEP or WAKE; RESET stands alone; only an ACTIVE or SLEEPING slot has notices; SLEEP stands in the queue of an ACTIVE slot with
no quote alone, WAKE in that of a SLEEPING slot alone. -/
abbrev QueueSound (l : Link) (quote : QuoteSlot) : Prop :=
  l.queue.length ≤ 4
    ∧ count NoticeBody.isResult l.queue ≤ 1 ∧ count NoticeBody.isService l.queue ≤ 1 ∧ count NoticeBody.isTime l.queue ≤ 1
    ∧ count NoticeBody.isReset l.queue ≤ 1 ∧ count NoticeBody.isSleep l.queue + count NoticeBody.isWake l.queue ≤ 1
    ∧ (count NoticeBody.isReset l.queue ≠ 0 → l.queue.length = 1)
    ∧ (l.queue ≠ [] → l.state = .active ∨ l.state = .sleeping)
    ∧ (count NoticeBody.isSleep l.queue ≠ 0 → l.state = .active ∧ quote = .none)
    ∧ (count NoticeBody.isWake l.queue ≠ 0 → l.state = .sleeping)

/-- The link fields of a slot: no link-lost deadline in a called state, a bar expiry exactly while BARRED, neither level nor
capabilities while ABSENT, and fewer than three misses (R137 to R139, R145). -/
abbrev LinkSound (l : Link) : Prop :=
  (l.state.called = true → l.lostDeadline = none) ∧ (l.barExpiry.isSome = true ↔ l.state = .barred)
    ∧ (l.state = .absent → l.level = none ∧ l.caps = none) ∧ l.misses < 3

/-- Every configured slot's link fields and notice queue are as R137 to R151 keep them, and a quote is in progress in an ACTIVE slot alone
(R65); while a call that carries SLEEP awaits its answer, its slot has no quote (R146). -/
abbrev LinksSound (s : State) : Prop :=
  (∀ e ∈ s.terminals, LinkSound e.2.link ∧ QueueSound e.2.link e.2.quote ∧ (e.2.quote ≠ .none → e.2.link.state = .active))
    ∧ ∀ (slot : Nat) (kind : CallKind) (calledAs : LinkState), s.line.mode = .window slot kind calledAs (some .sleep) →
        ∀ x ∈ terminal s slot, x.quote = .none

/-! ### What a command leaves as it was -/

/-- The fields of the state, by name. -/
inductive Block where
  | calendar | plans | engine | terminals | sales | permits | cash | groups | line | journal | office | attention | roster
  | service | supply | freeIndex | pending
  deriving DecidableEq, Repr

/-- The field is the same in both states. -/
def Block.same (s t : State) : Block → Prop
  | .calendar => t.calendar = s.calendar
  | .plans => t.plans = s.plans
  | .engine => t.engine = s.engine
  | .terminals => t.terminals = s.terminals
  | .sales => t.sales = s.sales
  | .permits => t.permits = s.permits
  | .cash => t.cash = s.cash
  | .groups => t.groups = s.groups
  | .line => t.line = s.line
  | .journal => t.journal = s.journal
  | .office => t.office = s.office
  | .attention => t.attention = s.attention
  | .roster => t.roster = s.roster
  | .service => t.service = s.service
  | .supply => t.supply = s.supply
  | .freeIndex => t.freeIndex = s.freeIndex
  | .pending => t.pending = s.pending

/-- Every field but those listed is the same. -/
abbrev Keeps (changed : List Block) (s t : State) : Prop := ∀ b : Block, b ∉ changed → b.same s t

/-! ### What deriving afresh may do -/

/-- The SERVICE notices of a queue. -/
abbrev services (q : List Notice) : List Notice := q.filter fun n => n.body.isService

/-- A terminal's record without its service state and its SERVICE notices: what deriving afresh never touches. -/
def Terminal.bare (t : Terminal) : Terminal :=
  { t with
    link := { t.link with queue := t.link.queue.filter fun n => !n.body.isService }
    watch := { t.watch with service := .outOfService } }

/-- A notice is queued (R62, R150, R151): it joins the tail, or takes the place of the waiting one of its sort as a notice that has not
ridden; while RESET waits none joins. -/
def notified (sort : NoticeBody → Bool) (body : NoticeBody) (q : List Notice) : List Notice :=
  if q.any (fun n => n.body = .reset) then q
  else if q.any (fun n => sort n.body) then q.map fun n => if sort n.body then { body := body, rode := false } else n
  else q ++ [{ body := body, rode := false }]

/-- A terminal's service state is derived afresh: `y` is `x` with the state now held, and where that changed for an ACTIVE or SLEEPING
terminal a SERVICE notice that has not ridden tells it, in the place of the one that waited or as a new one (R126, R150). -/
structure Served (x y : Terminal) : Prop where
  rest : y.bare = x.bare
  notice :
    (services y.link.queue = services x.link.queue
        ∧ (y.watch.service = x.watch.service ∨ x.link.state.enrolled = false
          ∨ x.link.queue.any (fun n => n.body = .reset) = true))
      ∨ (x.link.state.enrolled = true ∧ x.link.queue.any (fun n => n.body = .reset) = false
        ∧ services y.link.queue = notified NoticeBody.isService (.service y.watch.service) (services x.link.queue))

/-- The number after a sequence number (R155). -/
def sequenceAfter (n : Nat) : Nat := if n = 4294967295 then 1 else n + 1

/-- The record that an append makes now (R155). -/
def recordNow (body : RecordBody) (s : State) : Record :=
  { sequence := s.journal.nextSequence, zoneTime := s.calendar.zoneTime, unset := !s.calendar.clockSet,
    zone := s.supply.straps.zone, body := body }

/-- One more record stands at the journal's end (R155). -/
def recorded (body : RecordBody) (s : State) : State :=
  { s with
    journal :=
      { s.journal with
        records := s.journal.records ++ [recordNow body s], nextSequence := sequenceAfter s.journal.nextSequence } }

/-- Every condition flag whose condition holds is set; a flag that is set stays so (R158, R165). -/
def shown (s : State) : State :=
  { s with
    attention :=
      { s.attention with
        flags :=
          { s.attention.flags with
            salesHalted :=
              s.attention.flags.salesHalted || decide (1024 - s.journal.records.length - s.journal.reservation ≤ 32)
            journalHigh := s.attention.flags.journalHigh || decide (896 ≤ s.journal.records.length)
            counts := s.attention.flags.counts || decide (s.cash.collections ≠ [])
            clock := s.attention.flags.clock || !s.calendar.clockSet } } }

/-- A group record after its cover has been derived afresh any number of times at one moment, `covers` being those that records tell, in
order (R130, R131): each is a change, from the cover held before on. A changed record began now and COVER is set; its last change is
told by a record, or by the pending-record mark while the unreserved free space is 0. -/
def CoverFollows (covers : List Cover) (now : Nat) (full coverFlag : Prop) (a b : GroupRecord) : Prop :=
  (covers = [] ∧ b = a)
    ∨ (b.since = now ∧ coverFlag ∧ (a.cover :: covers).IsChain (· ≠ ·)
      ∧ ((b.mark = a.mark ∧ (a.cover :: covers).getLast? = some b.cover) ∨ (b.mark = true ∧ full)))

/-- `t` is `u` but for what deriving afresh may do (R126, R130, R131, R158): service states with their SERVICE notices, and covers with
one COVER_CHANGE or one mark for each change. No event flag but COVER changes; a condition flag that is newly set has its condition. -/
structure Reacts (u t : State) : Prop where
  keeps : Keeps [.terminals, .groups, .journal, .attention] u t
  slots : ∀ slot : Nat, (terminal t slot).isSome = (terminal u slot).isSome
  terminals : ∀ (slot : Nat) (x y : Terminal), terminal u slot = some x → terminal t slot = some y → Served x y
  groups : Table.keys t.groups = Table.keys u.groups
  told : ∃ told : List (Nat × Cover),
    t.journal = (told.foldl (fun v e => recorded (.coverChange e.1 e.2 u.calendar.zoneTime) v) u).journal
      ∧ told.length ≤ freeSpace u
      ∧ (∀ (g : Nat) (a b : GroupRecord), Table.find? g u.groups = some a → Table.find? g t.groups = some b →
        CoverFollows ((told.filter fun e => e.1 = g).map (·.2)) u.calendar.zoneTime (freeSpace t = 0)
          (t.attention.flags.cover = true) a b)
      ∧ (t.attention.flags.cover = true → u.attention.flags.cover = true ∨ told ≠ []
        ∨ ∃ (g : Nat) (b : GroupRecord),
            Table.find? g t.groups = some b ∧ b.since = u.calendar.zoneTime ∧ b.mark = true)
      ∧ (told ≠ [] → shown t = t)
  events : t.attention.flags.fault = u.attention.flags.fault ∧ t.attention.flags.round = u.attention.flags.round
    ∧ t.attention.flags.planSwitched = u.attention.flags.planSwitched
    ∧ t.attention.flags.unknownTerminal = u.attention.flags.unknownTerminal
    ∧ t.attention.flags.restarted = u.attention.flags.restarted
  stands : u.attention.flags.or t.attention.flags = t.attention.flags
  conditions : (t.attention.flags.salesHalted = true → u.attention.flags.salesHalted = true ∨ freeSpace t ≤ 32)
    ∧ (t.attention.flags.journalHigh = true → u.attention.flags.journalHigh = true ∨ 896 ≤ t.journal.records.length)
    ∧ (t.attention.flags.counts = true → u.attention.flags.counts = true ∨ t.cash.collections ≠ [])
    ∧ (t.attention.flags.clock = true → u.attention.flags.clock = true ∨ t.calendar.clockSet = false)
  mask : t.attention.mask = u.attention.mask

/-! ### Requests that are taken -/

/-- The office port takes a request: the part runs and no request is in progress (R162). -/
abbrev OfficeFree (s : State) : Prop := s.supply.part = .running ∧ s.office.current = none

/-- The office port has this request in progress with this response, and hunts (R161, R162). -/
def answered (kind tag : Nat) (r : Response) (s : State) : State :=
  { s with office := { s.office with reading := false, current := some { kind := kind, tag := tag, response := r } } }

/-- The service link takes a request of this handheld of the roster: the part runs, the latched SVC strap is high, and no request is in
progress (R169, R170, R174). -/
abbrev LinkFree (identity : Nat) (e : RosterEntry) (s : State) : Prop :=
  s.supply.part = .running ∧ s.supply.straps.svc = true ∧ s.service.current = none
    ∧ Table.find? identity s.roster = some e

/-- The service link has this request in progress with this response, and hunts (R169, R170). -/
def serviceAnswered (identity kind tag : Nat) (r : Response) (s : State) : State :=
  { s with
    service :=
      { s.service with
        reading := false, current := some { identity := identity, kind := kind, tag := tag, response := r } } }

/-- A request that both ports take is taken from its source: the office, or an ENGINEER (R175). -/
def SourceFree : Source → State → Prop
  | .office _, s => OfficeFree s
  | .handheld identity _, s => ∃ e : RosterEntry, e.role = .engineer ∧ LinkFree identity e s

/-- The source of a request has its response in progress. -/
def answeredTo (src : Source) (kind : Nat) (r : Response) (s : State) : State :=
  match src with
  | .office tag => answered kind tag r s
  | .handheld identity tag => serviceAnswered identity kind tag r s

/-- The kinds of request that each role may ask (section 10.4, R185). -/
def roleKinds : Role → List Nat
  | .officer => [0x40, 0x41, 0x42]
  | .collector => [0x43, 0x44, 0x45]
  | .engineer => [0x46, 0x14, 0x47, 0x01, 0x45]

/-- A source is a handheld. -/
def isHandheld : Source → Bool
  | .office _ => false
  | .handheld _ _ => true

/-! ### Checks in order -/

/-- The first check of a list that fails gives this answer. -/
def FirstFails {α : Type} : List (Prop × α) → α → Prop
  | [], _ => False
  | (fails, b) :: rest, a => (fails ∧ a = b) ∨ (¬fails ∧ FirstFails rest a)

/-- No check of a list fails. -/
def NoneFails {α : Type} : List (Prop × α) → Prop
  | [] => True
  | (fails, _) :: rest => ¬fails ∧ NoneFails rest

/-- A refusal with no fields. -/
def refused (c : Code) : Response := { code := c, body := .empty }

/-- A refusal that names a number (R185). -/
def refusedAt (c : Code) (n : Nat) : Response := { code := c, body := .number n }

/-- An acceptance with these fields. -/
def accepted (b : Body) : Response := { code := .ok, body := b }

/-- R5, with the check that an engineer's CLOCK_SET meets first. -/
def clockChecks (src : Source) (time : Nat) (offset : Int) (s : State) : List (Prop × Response) :=
  [(isHandheld src = true ∧ s.calendar.clockSet = true, refused .clockHeld),
    (time < 86400 ∨ 4294000000 < time, refused .badTime),
    (offset < -840 ∨ 840 < offset ∨ ¬(15 : Int) ∣ offset, refused .badOffset)]

/-- R8: every entry of a holiday list, in order; a 33rd entry is refused by its position (log entry 25). -/
def holidayChecks (days : List Nat) : List (Prop × Response) :=
  (List.range days.length).map fun i =>
    let d := days.getD i 0
    (32 ≤ i ∨ d < 1 ∨ 49710 < d ∨ (0 < i ∧ d ≤ days.getD (i - 1) 0), refusedAt .badList (i + 1))

/-- R17, R20: the checks that begin every request that changes a plan slot. -/
def planChecks (plan : Nat) (s : State) : List (Prop × Response) :=
  [(plan < 1 ∨ 8 < plan, refused .badPlanSlot), (InUse plan s, refused .planInUse)]

/-- R22, R23: the checks of a PROFILE_PUT, down to each field of each band. -/
def profileChecks (plan profile : Nat) (bands : List BandEntry) (s : State) : List (Prop × Response) :=
  planChecks plan s
    ++ [((∀ profiles, Table.find? plan s.plans ≠ some (.building profiles)), refused .notBuilding),
      (profile < 1 ∨ 8 < profile, refused .badProfile), (bands.length = 0 ∨ 12 < bands.length, refused .badBandCount)]
    ++ (bands.zipIdx.flatMap fun e =>
      let (b, i) := e
      let bad (field : Nat) : Response := { code := .badBand, body := .bandField (i + 1) field }
      [(1439 < b.start ∨ (i = 0 ∧ b.start ≠ 0) ∨ ∃ a ∈ bands[i - 1]?, 0 < i ∧ b.start ≤ a.start, bad 1),
        (b.kind ≠ 1 ∧ b.kind ≠ 2 ∧ b.kind ≠ 3, bad 2), (b.kind = 1 ∧ (b.step < 1 ∨ 120 < b.step), bad 3),
        (b.kind = 1 ∧ (b.price < 1 ∨ 2000 < b.price), bad 4), (b.kind = 1 ∧ 500 < b.increment, bad 5),
        (b.kind = 1 ∧ (b.cap < b.price ∨ 5000 < b.cap), bad 6), (b.kind = 1 ∧ 1440 < b.stay, bad 7)])

/-- R24: the checks of a PLAN_CLOSE on a build that holds these profiles. -/
def closeChecks (plan resident visitor business : Nat) (profiles : Table (List Band)) (s : State) : List (Prop × Response) :=
  planChecks plan s
    ++ ([1, 2, 3, 4, 5, 6, 7, 8].map fun n =>
      ((Table.find? n profiles).isNone = true,
        { code := .profilesMissing
          body := .missing n (([1, 2, 3, 4, 5, 6, 7, 8].filter fun m => (Table.find? m profiles).isNone).length) }))
    ++ [(100 < resident, refusedAt .badDiscount 1), (100 < visitor, refusedAt .badDiscount 2),
      (100 < business, refusedAt .badDiscount 3)]

/-- R27. -/
def assignChecks (plan : Nat) (switch : Option Nat) (slots : List Nat) (s : State) : List (Prop × Response) :=
  [(plan < 1 ∨ 8 < plan, refused .badPlanSlot), ((readyPlan s.plans plan).isNone = true, refused .planNotReady),
      (slots = [] ∨ (∃ n ∈ slots, n < 1 ∨ 24 < n) ∨ ¬slots.Nodup, refused .badSlotSet)]
    ++ (slots.map fun n => (terminal s n = none, refusedAt .slotEmpty n))
    ++ [(switch.isSome = true ∧ s.calendar.clockSet = false, refused .noClock),
      ((∃ t ∈ switch, t % 60 ≠ 0), refused .badSwitchTime)]

/-- R80: the fields of a PERMIT_PUT in order, and the room in the register. -/
def permitPutChecks (number kind firstDay lastDay allowance standing : Nat) (zones : List Nat) (plate : Plate) (s : State) :
    List (Prop × Response) :=
  [(number = 0 ∨ 16777215 < number, refusedAt .badPermit 1), ((permitKindOf kind).isNone = true, refusedAt .badPermit 2),
    (zones = [] ∨ (∃ g ∈ zones, g < 1 ∨ 12 < g) ∨ ¬zones.Nodup, refusedAt .badPermit 3),
    (plateGood plate = false, refusedAt .badPermit 4),
    (49710 < firstDay ∨ 49710 < lastDay ∨ lastDay < firstDay, refusedAt .badPermit 5),
    (1440 < allowance, refusedAt .badPermit 6), (standing ≠ 1 ∧ standing ≠ 2, refusedAt .badPermit 7),
    (Table.find? number s.permits = none ∧ 4096 ≤ s.permits.length, refused .registerFull)]

/-- R163: the checks of a TERMINAL_PUT. -/
def terminalPutChecks (slot : Nat) (c : TerminalConfig) (s : State) : List (Prop × Response) :=
  [(slot < 1 ∨ 24 < slot, refused .badSlot), (c.identity < 1 ∨ 2 ^ 48 ≤ c.identity, refusedAt .badTerminal 1),
      (c.group < 1 ∨ 12 < c.group, refusedAt .badTerminal 2), (c.capacity < 100 ∨ 5000 < c.capacity, refusedAt .badTerminal 3),
      (c.threshold < 10 ∨ 100 < c.threshold, refusedAt .badTerminal 4)]
    ++ (s.terminals.map fun e => (e.1 ≠ slot ∧ e.2.config.identity = c.identity, refusedAt .duplicateIdentity e.1))
    ++ [((∃ t ∈ terminal s slot, c.identity ≠ t.config.identity ∧ t.link.state ≠ .absent ∧ t.link.state ≠ .lost),
        refused .slotInUse),
      ((∃ t ∈ terminal s slot, c.capacity < t.cash.tally.total), refused .belowTally)]

/-- R113: the checks of a TERMINAL_REMOVE on a slot that is configured. -/
def terminalRemoveChecks (slot : Nat) (t : Terminal) (s : State) : List (Prop × Response) :=
  [(slot < 1 ∨ 24 < slot, refused .badSlot),
    (t.cash.tally ≠ .zero, { code := .tallyOutstanding, body := .tally t.cash.tally }),
    ((∃ r ∈ s.cash.round, slot ∈ r.entries.map (·.slot)), refused .inRound), (t.quote ≠ .none, refused .quoteInProgress)]

/-- R119, R153: the checks of a slot number. -/
def slotChecks (slot : Nat) (s : State) : List (Prop × Response) :=
  [(slot < 1 ∨ 24 < slot, refused .badSlot), (terminal s slot = none, refused .slotEmpty)]

/-- R101: the checks of a ROUND_START. -/
def roundChecks (s : State) : List (Prop × Response) :=
  let n := (roundList s).length
  let free := 64 - s.cash.collections.length
  (s.calendar.clockSet = false, refused .noClock)
    :: (s.cash.round.toList.map fun r => (True, { code := .roundOpen, body := .roundBusy r.number r.collector }))
    ++ [(n = 0, refused .nothingDue),
      (free < n ∨ freeSpace s < n + 1, { code := .noSpace, body := .space n free (freeSpace s) })]

/-- The condition of a fault is present: its state is ACTIVE or HELD (R116), and but for DOOR_FORCED its impact is in force (R118). -/
abbrev InForce (r : FaultRecord) : Prop := r.state = .active ∨ r.state = .held

/-- Cash is usable: the capability set holds COINS and no CASH impact, of COIN_JAM or BOX_FULL, is in force (R67, R115, R125). -/
abbrev CashUsable (t : Terminal) : Prop :=
  (∃ c ∈ t.link.caps, c.coins = true) ∧ ¬InForce t.watch.faults.coinJam ∧ ¬InForce t.watch.faults.boxFull

/-- Card is usable: the capability set holds CARD, the level is 2 or 3, and no CARD impact, of CARD_FAULT, is in force (R67, R115,
R125). -/
abbrev CardUsable (t : Terminal) : Prop :=
  (∃ c ∈ t.link.caps, c.card = true) ∧ (t.link.level = some 2 ∨ t.link.level = some 3) ∧ ¬InForce t.watch.faults.cardFault

/-- What FAULT_LIST and TERMINAL_STATUS tell of a terminal (R120): the thirteen faults in the order of R115, each with whether its
condition is present; the service state; the impacts in force (R115, R118); the filtered values, the door, and the silence watch with its
limit (R128). -/
def toldFaults (t : Terminal) : FaultView :=
  let f := t.watch.faults
  let kinds :=
    [f.linkLost, f.jabber, f.powerLow, f.powerCritical, f.paperLow, f.paperOut, f.coinJam, f.cardFault, f.boxFull, f.doorForced,
      f.doorUnscheduled, f.silent, f.cashShort]
  { faults := kinds.map fun r => (r, decide (InForce r))
    service := t.watch.service
    impacts :=
      { total :=
          decide (InForce f.linkLost ∨ InForce f.jabber ∨ InForce f.powerCritical ∨ InForce f.paperOut ∨ f.doorForced.state ≠ .clear)
        cash := decide (InForce f.coinJam ∨ InForce f.boxFull)
        card := decide (InForce f.cardFault) }
    power := t.watch.power
    clearRun := t.watch.clearRun
    filtered := t.watch.filtered
    door := t.watch.door
    silence := t.watch.silence
    estimate := t.watch.estimate
    limit := match t.watch.estimate with
      | none => 1800
      | some e => min 14400 (max 1800 (4 * e)) }

/-- The a0 that a walk takes at its beginning from this register for a permit number (R40, R79, R86): 0 where there is no record or it is
SUSPENDED, else the greater of 0 and daily allowance − consumed today − held (the subtraction stops at 0). -/
def allowanceTaken (permits : Table Permit) (number : Nat) : Nat :=
  match Table.find? number permits with
  | none => 0
  | some p => if p.suspended = true then 0 else p.allowance - p.consumed - (p.hold.map (·.minutes)).getD 0

/-- R56, R85: the checks of a QUOTE from a terminal. -/
def quoteTable (slot : Nat) (t : Terminal) (kind amount permit : Nat) (plate : Plate) (s : State) : List (Prop × Code) :=
  let level := t.link.level.getD 0
  let record := Table.find? permit s.permits
  [(s.calendar.clockSet = false, .noClock), (freeSpace s ≤ 32, .salesHalted), (t.watch.service = .outOfService, .outOfService),
    (kind ≠ 1 ∧ kind ≠ 2, .badQuote), (kind = 2 ∧ (amount < 1 ∨ 1440 < amount), .badQuote), (plateGood plate = false, .badQuote),
    ((kind = 2 ∧ level < 2) ∨ ((permit ≠ 0 ∨ plate ≠ []) ∧ level < 3), .notAtLevel), (t.plans.current = none, .noPlan),
    (kind = 1 ∧ amount = 0 ∧ permit = 0, .noTender), (permit ≠ 0 ∧ record = none, .permitUnknown),
    (permit ≠ 0 ∧ ∃ p ∈ record, p.suspended = true ∨ today s < p.firstDay ∨ p.lastDay < today s, .permitNotValid),
    (permit ≠ 0 ∧ ∃ p ∈ record, t.config.group ∉ p.zones, .permitNotInZone),
    (permit ≠ 0 ∧ ∃ p ∈ record, p.plate ≠ none ∧ p.plate ≠ plateOf plate, .permitPlate),
    (permit ≠ 0 ∧ ∃ p ∈ record, ∃ h ∈ p.hold, h.owner ≠ slot, .permitBusy)]

/-- R66, R67: the checks of a CONFIRM on an OPEN slot, in order; the second ends the quote. -/
def confirmTable (slot : Nat) (t : Terminal) (q : OpenQuote) (quoteId : Nat) (coins : Six) (card : Nat) (s : State) :
    List (Prop × Code) :=
  let value := coins.value s.cash.denominations + card
  [(quoteId ≠ q.quoteId, .quoteUnknown), (q.validUntil ≤ s.calendar.uptime, .quoteExpired), (freeSpace s ≤ 32, .salesHalted),
    (t.watch.service = .outOfService, .outOfService),
    ((∃ a, q.ask = .byAmount a ∧ value ≠ a) ∨ ∃ d, q.ask = .byDuration d ∧ (value < q.cost ∨ 65535 < value), .tenderMismatch),
    ((coins ≠ .zero ∧ ¬CashUsable t) ∨ (card ≠ 0 ∧ ¬CardUsable t), .tenderRefused),
    ((∃ p ∈ q.permit, Table.find? p.1 s.permits = none
        ∨ (0 < p.2 ∧ ∃ r ∈ Table.find? p.1 s.permits, ∀ h ∈ r.hold, h.owner ≠ slot ∨ h.quoteId ≠ q.quoteId)), .permitRevoked)]

/-! ### Faults, answers and rounds -/

/-- A fault record after its condition is reported as it stands (R116). -/
def FaultRecord.reported (present : Bool) (now : Nat) (r : FaultRecord) : FaultRecord :=
  if r.state.present = present then r
  else { state := if present then .active else if r.state = .active then .latched else .clear, changed := now }

/-- One fault record of a terminal changes. -/
def Terminal.onFault (k : FaultKind) (f : FaultRecord → FaultRecord) (t : Terminal) : Terminal :=
  { t with watch := { t.watch with faults := t.watch.faults.set (f (t.watch.faults.get k)) k } }

/-- FAULT is set. -/
def faultSet (s : State) : State :=
  { s with attention := { s.attention with flags := { s.attention.flags with fault := true } } }

/-- The condition of a slot's fault is reported as it stands: the fault's record moves by R116, and an entry to ACTIVE sets FAULT. -/
def reportFault (slot : Nat) (k : FaultKind) (present : Bool) (s : State) : State :=
  match terminal s slot with
  | none => s
  | some x =>
    let u := onTerminal slot (Terminal.onFault k (FaultRecord.reported present s.calendar.zoneTime)) s
    if present = true ∧ (x.watch.faults.get k).state.present = false then faultSet u else u

/-- An event-kind fault is raised on a slot that is configured: LATCHED at the present zone time, and FAULT set, anew or again (R117; log
entry 40). -/
def raiseFault (slot : Nat) (k : FaultKind) (s : State) : State :=
  match terminal s slot with
  | none => s
  | some _ => faultSet (onTerminal slot (Terminal.onFault k fun _ => { state := .latched, changed := s.calendar.zoneTime }) s)

/-! ### Notice queues (R146, R148, R150) -/

/-- The segment conditions of sleep: FREE, with at least 1800 seconds to its end (R146). -/
abbrev FreeLong (now : Nat) (segment : Option Segment) : Prop := ∃ g ∈ segment, g.kind = .free ∧ now + 1800 ≤ g.ends

/-- A slot is considered for sleep (R146): SLEEP joins an ACTIVE terminal's queue where it advertised KEY_WAKE, its segment is FREE for
1800 seconds more, it has no quote, its door is CLOSED, and neither SLEEP nor RESET waits. -/
def Terminal.considered (now : Nat) (x : Terminal) : Terminal :=
  if x.link.state = .active ∧ (∃ c ∈ x.link.caps, c.keyWake = true) ∧ FreeLong now x.segment ∧ x.quote = .none
      ∧ x.watch.door = .closed ∧ ∀ n ∈ x.link.queue, n.body ≠ .sleep ∧ n.body ≠ .reset then
    { x with link := { x.link with queue := x.link.queue ++ [{ body := .sleep, rode := false }] } }
  else x

/-- A terminal's segment is found (R14, R146, R148): where it is not the one held, WAKE joins at the head for a SLEEPING terminal that
enters CHARGED and is withdrawn otherwise, SLEEP is withdrawn where the segment is not FREE for 1800 seconds more, and the terminal is
considered for sleep. -/
def Terminal.bounded (now : Nat) (found : Option Segment) (x : Terminal) : Terminal :=
  if found = x.segment then x
  else
    let woken : List Notice :=
      if found.map (·.kind) = some .charged then
        if x.link.state = .sleeping ∧ ∀ n ∈ x.link.queue, n.body ≠ .wake ∧ n.body ≠ .reset then
          { body := .wake, rode := false } :: x.link.queue
        else x.link.queue
      else x.link.queue.filter fun n => n.body ≠ .wake
    let queue := if FreeLong now found then woken else woken.filter fun n => n.body ≠ .sleep
    Terminal.considered now { x with segment := found, link := { x.link with queue := queue } }

/-- A notice is queued for a terminal. -/
def Terminal.told (sort : NoticeBody → Bool) (body : NoticeBody) (x : Terminal) : Terminal :=
  { x with link := { x.link with queue := notified sort body x.link.queue } }

/-- TIME with these values goes to an ACTIVE or SLEEPING terminal, and a GRANTED one is owed it at its ACCEPT (R6, R10, R144). -/
def Terminal.timed (c : Calendar) (x : Terminal) : Terminal :=
  if x.link.state = .active ∨ x.link.state = .sleeping then
    x.told NoticeBody.isTime (.time c.zoneTime c.offset c.clockSet)
  else if x.link.state = .granted then { x with link := { x.link with timeOwed := true } }
  else x

/-- The notices of a sort are withdrawn (R62, R146). -/
def Terminal.without (sort : NoticeBody → Bool) (x : Terminal) : Terminal :=
  { x with link := { x.link with queue := x.link.queue.filter fun n => !sort n.body } }

/-- A pending plan whose switch time has come is the current plan (R30). -/
def Terminal.switched (now : Nat) (x : Terminal) : Terminal :=
  match x.plans.pending with
  | some (p, switch) => if switch ≤ now then { x with plans := { current := some p, pending := none } } else x
  | none => x

/-- A switch of the terminal is due (R30). -/
abbrev SwitchDue (now : Nat) (x : Terminal) : Prop := ∃ p ∈ x.plans.pending, p.2 ≤ now

/-! ### Quotes that end (R36, R64, R65, R90) -/

/-- The register after the hold of an open quote is released: a hold of another owner or quote id stays (R90). -/
def released (slot : Nat) (q : OpenQuote) (permits : Table Permit) : Table Permit :=
  match q.permit with
  | none => permits
  | some (number, _) =>
    Table.modify number
      (fun p => if p.hold.any fun h => h.owner == slot && h.quoteId == q.quoteId then { p with hold := none } else p) permits

/-- A slot's quote ends in whatever stage it stands (R36, R64, R65, R90): its undelivered result is withdrawn; its entry leaves the walk
queue, its walk is marked for discard, or its hold is released; a slot that becomes NONE is considered for sleep (R146). -/
def quoteEnded (slot : Nat) (s : State) : State :=
  match terminal s slot with
  | none => s
  | some x =>
    let clear (y : Terminal) : Terminal := y.without NoticeBody.isResult
    let ended (u : State) : State :=
      onTerminal slot (fun y => Terminal.considered s.calendar.zoneTime { clear y with quote := .none }) u
    match x.quote with
    | .none => onTerminal slot clear s
    | .queued _ => ended { s with engine := { s.engine with queue := s.engine.queue.filter fun e => e.slot ≠ slot } }
    | .walking _ =>
      ended
        { s with
          engine :=
            { s.engine with
              walk := s.engine.walk.map fun v => if v.entry.slot = slot then { v with discard := true } else v } }
    | .opened q => ended { s with permits := released slot q s.permits }

/-! ### Answers -/

/-- The part runs, and a call to this slot with this notice riding awaits its answer. -/
abbrev InWindow (slot : Nat) (kind : CallKind) (rode : Option NoticeBody) (t : Terminal) (s : State) : Prop :=
  s.supply.part = .running ∧ (∃ calledAs : LinkState, s.line.mode = .window slot kind calledAs rode) ∧ terminal s slot = some t

/-- The answer is the called slot's, and this is its status word (R136, R184). -/
abbrev Answers (head : AnswerHead) (slot : Nat) (w : StatusWord) : Prop := head.slot = slot ∧ readStatus head.status = some w

/-- Steps 1 and 2 of R136: the notice that rode is gone, and the miss count is 0. -/
def gotAnswer (slot : Nat) (s : State) : State :=
  onTerminal slot (fun y => { y with link := { y.link with misses := 0, queue := y.link.queue.filter fun n => !n.rode } }) s

/-- `h` is the state in which an answer's QUOTE, CONFIRM or CANCEL is handed on, and `y` the slot's record there (R136): the answer has
been got, a SLEEPING slot has become ACTIVE (R149), and the Fault Monitor has taken the status word; the call carried no RESET. -/
def HandsOn (slot : Nat) (rode : Option NoticeBody) (x : Terminal) (w : StatusWord) (s h : State) (y : Terminal) : Prop :=
  rode ≠ some .reset ∧ Table.wf s.terminals = true ∧ terminal h slot = some y
    ∧ ((x.link.state = .active ∧ h = takeStatus slot w (gotAnswer slot s))
      ∨ (x.link.state = .sleeping ∧ h = takeStatus slot w (wakeSlot slot (gotAnswer slot s))))

/-- The link fields of a slot that goes from a called state to ABSENT (R137 to R139). -/
def Link.gone (uptime : Nat) (_ : Link) : Link :=
  { state := .absent, level := none, caps := none, misses := 0, barExpiry := none, lostDeadline := some (uptime + 60),
    queue := [], timeOwed := false }

/-- The line after an answer window: the cycle goes on, and the slot called is the one that a line held driven would bar (R135, R145; log
entries 9 and 34). -/
def lineGoesOn (slot : Nat) (kind : CallKind) (s : State) : State :=
  let u := afterWindow slot kind s
  { u with line := { u.line with ended := some (slot, kind) } }

/-! ### Owed cover records and the close of a round (R107, R131) -/

/-- The owed cover records, where the unreserved free space has risen from 0 (R131): the marked groups in ascending order, while there is
room, each with its cover and the time it began, its mark cleared. -/
def withOwed (s : State) : State :=
  let owing := (s.groups.filter fun e => e.2.mark).take (freeSpace s)
  let u := owing.foldl (fun v e => recorded (.coverChange e.1 e.2.cover e.2.since) v)
    { s with groups := s.groups.map fun e => if e.1 ∈ owing.map (·.1) then (e.1, { e.2 with mark := false }) else e }
  if owing = [] then s else shown u

/-- The entries of a round at its close: those still PENDING are MISSED (R107). -/
def atClose (r : Round) : List (Nat × EntryState) :=
  r.entries.map fun e => (e.slot, if e.state = .pending then .missed else e.state)

/-- The round closed (R11, R107, R131, R157): ROUND_CLOSED stands at the journal's end, no reservation, round and deadline is left, ROUND is
set, and owed cover records follow where the free space was 0. -/
def roundClosed (r : Round) (s : State) : State :=
  let a := shown (recorded (.roundClosed r.number r.collector r.start s.calendar.zoneTime (atClose r)) 
    { s with journal := { s.journal with reservation := s.journal.reservation - 1 } })
  let b : State :=
    { a with
      calendar := { a.calendar with deadline := none }
      cash := { a.cash with round := none }
      journal := { a.journal with reservation := 0 }
      attention := { a.attention with flags := { a.attention.flags with round := true } } }
  if freeSpace s = 0 then withOwed b else b

/-- The registered deadline is delivered (R11, R106): the open round is closed, and the Fault Monitor follows; with no round open the
deadline is removed. -/
def DeadlineDelivered (s t : State) : Prop :=
  match s.cash.round with
  | some r => Reacts (roundClosed r s) t
  | none => t = { s with calendar := { s.calendar with deadline := none } }

/-- The silence counter at the end of a second of uptime (R127). -/
def Terminal.second (t : Terminal) : Terminal :=
  if t.segment.map (·.kind) = some .charged ∧ t.watch.service ≠ .outOfService then
    { t with watch := { t.watch with silence := if t.watch.silence < 86400 then t.watch.silence + 1 else t.watch.silence } }
  else t

/-! ### The jump of the clock and the starts -/

/-- The clock set to a time and an offset (R6), but for its zone-time deadline: clock values, due switches, the last-rolled date with its
day roll, segments with their boundaries, TIME notices, and the minute roll. -/
def jumped (time : Nat) (offset : Int) (s : State) : State :=
  let day : Nat := (((time : Int) + 60 * offset).tdiv 86400).toNat
  let rolled : Bool := decide (∃ d ∈ s.calendar.lastRolled, d < day)
  let calendar : Calendar :=
    { s.calendar with
      zoneTime := time, offset := offset, clockSet := true, lastRolled := some (max day (s.calendar.lastRolled.getD 0))
      holidays := if rolled then s.calendar.holidays.filter fun d => day ≤ d else s.calendar.holidays }
  let set : State := { s with calendar := calendar }
  let placed (x : Terminal) : Terminal :=
    let y := x.switched time
    Terminal.timed calendar
      ((if rolled then Terminal.timed calendar y else y).bounded time (segmentNow set y.plans))
  { set with
    terminals := s.terminals.map fun e => (e.1, placed e.2)
    permits := if rolled then s.permits.map fun e => (e.1, { e.2 with consumed := 0 }) else s.permits
    sales := { s.sales with live := s.sales.live.filter fun x => time < x.expiry + s.sales.grace * 60 }
    attention :=
      { s.attention with
        flags :=
          { s.attention.flags with
            planSwitched := s.attention.flags.planSwitched || s.terminals.any fun e => decide (SwitchDue time e.2) } } }

/-- A configured slot's record at the start of a warm start or an office restart (R76, R133, R154). -/
def Terminal.afresh (x : Terminal) : Terminal :=
  { x with
    link :=
      { state := .absent, level := none, caps := none, misses := 0, barExpiry := none, lostDeadline := some 60, queue := [],
        timeOwed := false }
    quote := .none, nextQuoteId := 1, closed := none
    watch :=
      { x.watch with
        filtered :=
          { paperLow := x.watch.faults.present .paperLow, paperOut := x.watch.faults.present .paperOut,
            coinJam := x.watch.faults.present .coinJam, cardFault := x.watch.faults.present .cardFault }
        lastReports := none, power := if x.watch.faults.present .powerLow then .low else .ok, lastPower := none, clearRun := 0
        door := .closed, silence := 0 } }

/-- Steps 1 and 2 of a warm start or an office restart, with the line as step 5 leaves it (R168, R180, R181; the SEEK of cycle 0: log
entries 18 and 20): every block's own values, and the attention flags; `keep` leaves the event flags that an abandoned start set. -/
def begun (straps : Straps) (keep : Bool) (s : State) : State :=
  let kept : Flags := if keep then s.attention.flags else Flags.none
  shown
    { s with
      calendar := { s.calendar with uptime := 0 }
      engine := { queue := [], walk := none }
      terminals := s.terminals.map fun e => (e.1, e.2.afresh)
      permits := s.permits.map fun e => (e.1, { e.2 with hold := none })
      line := { cycle := 0, lastUnknown := none, mode := .reply 1 false [] [], out := [.seek 0], ended := none }
      office := { reading := false, current := none, busy := [], overruns := 0 }
      service := { reading := false, current := none, busy := [] }
      supply :=
        { part := .running, main := .above, cell := .standby, latch := s.supply.latch, straps := straps, startAbandoned := false }
      attention :=
        { mask := Flags.all
          flags :=
            { kept with salesHalted := false, journalHigh := false, counts := false, clock := false, restarted := true } } }

/-- The first part of the Calendar's catch-up (R16): with the clock set, due switches and one day roll. -/
def caughtUp (s : State) : State :=
  let day := today s
  let rolls : Bool := decide (∃ d ∈ s.calendar.lastRolled, d < day)
  let switched : State :=
    { s with
      terminals := s.terminals.map fun e => (e.1, e.2.switched s.calendar.zoneTime)
      attention :=
        { s.attention with
          flags :=
            { s.attention.flags with
              planSwitched :=
                s.attention.flags.planSwitched || s.terminals.any fun e => decide (SwitchDue s.calendar.zoneTime e.2) } } }
  if s.calendar.clockSet = false then s
  else if rolls = false then switched
  else
    { switched with
      calendar :=
        { s.calendar with lastRolled := some day, holidays := s.calendar.holidays.filter fun d => day ≤ d }
      permits := s.permits.map fun e => (e.1, { e.2 with consumed := 0 }) }

/-- The second part of the catch-up (R1, R11, R16, R177; an UNSET flag with a deadline: log entry 16): a deadline that is due, or that zone
time's wrap in BACKUP left, closes the round. -/
def deadlineCaught (s : State) : State :=
  if ∃ d ∈ s.calendar.deadline, s.calendar.clockSet = true → d ≤ s.calendar.zoneTime then
    match s.cash.round with
    | some r => roundClosed r s
    | none => { s with calendar := { s.calendar with deadline := none } }
  else s

/-- The rest of the catch-up and the starting conditions (R16, R73, R114, R133): segments found afresh, one minute roll, JABBER and
DOOR_FORCED ended, and BOX_FULL as the tally finds it. -/
def settled (s : State) : State :=
  let now := s.calendar.zoneTime
  let full (x : Terminal) : Bool := decide (x.config.capacity ≤ x.cash.tally.total)
  let start (x : Terminal) : Terminal :=
    ((({ x with segment := segmentNow s x.plans }).onFault .jabber (FaultRecord.reported false now)).onFault .doorForced
      (FaultRecord.reported false now)).onFault .boxFull (FaultRecord.reported (full x) now)
  { s with
    terminals := s.terminals.map fun e => (e.1, start e.2)
    sales := { s.sales with live := s.sales.live.filter fun x => now < x.expiry + s.sales.grace * 60 }
    attention :=
      { s.attention with
        flags :=
          { s.attention.flags with
            fault := s.attention.flags.fault || s.terminals.any fun e => full e.2 && !e.2.watch.faults.present .boxFull } } }

/-- What a warm start or an office restart leaves (R16, R33, R76, R93, R114, R133, R154, R168, R176, R181): its steps in order, and then
service states and covers as they are derived. -/
def WarmStarted (straps : Straps) (keep : Bool) (s t : State) : Prop :=
  Reacts (settled (deadlineCaught (caughtUp (begun straps keep s)))) t

/-- The next call of a cycle after a slot (R135): the lowest configured slot above it whose link state is called in this part. -/
abbrev CalledNext (after : Nat) (kind : CallKind) (s : State) (slot : Nat) (t : Terminal) : Prop :=
  after < slot ∧ terminal s slot = some t ∧ kind.calls t.link.state = true
    ∧ ∀ (m : Nat) (x : Terminal), after < m → m < slot → terminal s m = some x → kind.calls x.link.state = false

/-- No slot above this one is called in this part of the cycle. -/
abbrev NoneCalled (after : Nat) (kind : CallKind) (s : State) : Prop :=
  ∀ (m : Nat) (x : Terminal), after < m → terminal s m = some x → kind.calls x.link.state = false

/-- The command is an ANSWER with this head, whatever request it carries (R136). -/
inductive CarriesAnswer (head : AnswerHead) : Instr → Prop
  | answer : CarriesAnswer head (.answer head)
  | quote (kind amount permit : Nat) (plate : Plate) : CarriesAnswer head (.quote head kind amount permit plate)
  | confirm (quoteId : Nat) (coins : Six) (card : Nat) : CarriesAnswer head (.confirm head quoteId coins card)
  | cancel : CarriesAnswer head (.cancel head)
  | accept (level : Nat) : CarriesAnswer head (.accept head level)
  | wakeReq : CarriesAnswer head (.wakeReq head)

/-- The register after the hold of an open quote is consumed (R89). -/
def consumed (slot : Nat) (q : OpenQuote) (permits : Table Permit) : Table Permit :=
  match q.permit with
  | none => permits
  | some (number, _) =>
    Table.modify number
      (fun p =>
        if p.hold.any fun h => h.owner == slot && h.quoteId == q.quoteId then
          { p with consumed := p.consumed + (p.hold.map (·.minutes)).getD 0, hold := none }
        else p) permits

/-- R59, R60: the checks of a walk's result at its completion, with the code and first step cost of the refusal. -/
def resultChecks (e : QueueEntry) (group : Nat) (r : WalkResult) (s : State) : List (Prop × (Code × Nat)) :=
  [(r.outcome = .noTender, (.noTender, 0)), (r.outcome = .noSale, (.noSale, 0)),
      (r.outcome = .belowMinimum, (.belowMinimum, r.tried))]
    ++ (e.permit.toList.flatMap fun n =>
      let record := Table.find? n.1 s.permits
      [(record = none, (.permitChanged, 0)),
        ((∃ p ∈ record, p.suspended = true ∨ today s < p.firstDay ∨ p.lastDay < today s), (.permitChanged, 0)),
        ((∃ p ∈ record, group ∉ p.zones ∨ (p.plate ≠ none ∧ p.plate ≠ e.plate)), (.permitChanged, 0)),
        ((∃ p ∈ record, p.hold ≠ none), (.permitBusy, 0)),
        ((∃ p ∈ record, p.allowance - p.consumed < r.used), (.permitChanged, 0))])

end Sys2Proof.Machine
end

