-- ==== Sys2Proof/WellFormed.lean ====
section
/-!
DEFINITION. Which commands a frame or a pin can carry: every operand fits the bytes that R182, R184 and R185 give its field.
A well-formed command may still be refused by its owner; `exec` is total on the ill-formed ones too.
-/

namespace Sys2Proof

/-- `n` fits in `bytes` bytes. -/
def fits (bytes n : Nat) : Bool := n < 256 ^ bytes

/-- A tag is one byte (R162). -/
def Source.wf : Source → Bool
  | .office tag => fits 1 tag
  | .handheld identity tag => fits 4 identity && fits 1 tag

/-- A band entry is start (2), kind (1), L (1), P (2), ΔP (2), Pmax (2), M (2) (section 12.3). -/
def BandEntry.wf (b : BandEntry) : Bool :=
  fits 2 b.start && fits 1 b.kind && fits 1 b.step && fits 2 b.price && fits 2 b.increment && fits 2 b.cap && fits 2 b.stay

/-- An offset is a signed number of two bytes (R185). -/
def wfOffset (o : Int) : Bool := -32768 ≤ o && o ≤ 32767

/-- A plate travels as a length byte and that many characters (R182). -/
def wfPlate (p : Plate) : Bool := p.length ≤ 255

/-- A kerb answer names its slot in one byte (section 12.2). -/
def AnswerHead.wf (h : AnswerHead) : Bool := fits 1 h.slot

/-- The level of a full OFFER is one byte (section 12.2). -/
def OfferForm.wf : OfferForm → Bool
  | .legacy => true
  | .full _ level => fits 1 level

/-- The ZONE strap is a number from 0 to 63 (R179). -/
def Straps.wf (s : Straps) : Bool := s.zone < 64

/-- The handheld identity of a service frame, where its body is long enough to hold one (R174). -/
def wfIdentity : Option Nat → Bool
  | none => true
  | some i => fits 4 i

/-- Every operand fits the field that carries it. -/
def Instr.wf : Instr → Bool
  | .clockSet src time offset => src.wf && fits 4 time && wfOffset offset
  | .clockGet tag => fits 1 tag
  | .holidaysPut tag days => fits 1 tag && fits 1 days.length && days.all (fits 2)
  | .planBegin tag plan => fits 1 tag && fits 1 plan
  | .profilePut tag plan profile bands =>
      fits 1 tag && fits 1 plan && fits 1 profile && 3 + 12 * bands.length ≤ Config.officeBodyMax && bands.all BandEntry.wf
  | .planClose tag plan r v b => fits 1 tag && fits 1 plan && fits 1 r && fits 1 v && fits 1 b
  | .planClear tag plan => fits 1 tag && fits 1 plan
  | .planAssign tag plan switch slots =>
      fits 1 tag && fits 1 plan && fits 4 (switch.getD 0) && fits 1 slots.length && slots.all (fits 1)
  | .gracePut tag grace => fits 1 tag && fits 1 grace
  | .permitPut tag number kind firstDay lastDay allowance standing zones plate =>
      fits 1 tag && fits 3 number && fits 1 kind && fits 2 firstDay && fits 2 lastDay && fits 2 allowance && fits 1 standing
        && fits 1 zones.length && zones.all (fits 1) && wfPlate plate
  | .permitRevoke tag number => fits 1 tag && fits 3 number
  | .permitGet tag number => fits 1 tag && fits 3 number
  | .terminalPut tag slot identity group capacity threshold =>
      fits 1 tag && fits 1 slot && fits 6 identity && fits 1 group && fits 2 capacity && fits 1 threshold
  | .terminalRemove tag slot => fits 1 tag && fits 1 slot
  | .terminalAudit tag slot => fits 1 tag && fits 1 slot
  | .denominationsPut tag values => fits 1 tag && values.allLe 65535
  | .tolerancePut tag tolerance => fits 1 tag && fits 2 tolerance
  | .countResult tag number counted => fits 1 tag && fits 2 number && counted.allLe 65535
  | .faultList tag slot => fits 1 tag && fits 1 slot
  | .faultAck src slot fault => src.wf && fits 1 slot && fits 1 fault
  | .groupStatus tag => fits 1 tag
  | .journalRead tag count => fits 1 tag && fits 1 count
  | .journalAck tag sequence => fits 1 tag && fits 4 sequence
  | .status tag => fits 1 tag
  | .attentionMask tag mask => fits 1 tag && fits 2 mask
  | .rosterPut tag identity role key => fits 1 tag && fits 4 identity && fits 1 role && fits 1 key
  | .rosterRemove tag identity => fits 1 tag && fits 4 identity
  | .restart tag => fits 1 tag
  | .officeBadRequest kind tag => fits 1 kind && fits 1 tag
  | .officeBusy kind tag => fits 1 kind && fits 1 tag
  | .officeFrameDiscard => true
  | .officeByteTimeout => true
  | .officeResponseSent => true
  | .ticketCheck identity tag ticket plate => fits 4 identity && fits 1 tag && fits 3 ticket && plate.length ≤ 248
  | .permitCheck identity tag number group plate =>
      fits 4 identity && fits 1 tag && fits 3 number && fits 1 group && plate.length ≤ 247
  | .groupCheck identity tag group => fits 4 identity && fits 1 tag && fits 1 group
  | .roundStart identity tag => fits 4 identity && fits 1 tag
  | .roundList identity tag => fits 4 identity && fits 1 tag
  | .roundEnd identity tag => fits 4 identity && fits 1 tag
  | .terminalStatus identity tag slot => fits 4 identity && fits 1 tag && fits 1 slot
  | .lineRestart identity tag slot => fits 4 identity && fits 1 tag && fits 1 slot
  | .serviceBadRequest identity kind tag => wfIdentity identity && fits 1 kind && fits 1 tag
  | .serviceBusy identity kind tag => wfIdentity identity && fits 1 kind && fits 1 tag
  | .serviceFrameDiscard => true
  | .serviceByteTimeout => true
  | .serviceResponseSent => true
  | .cycleStart => true
  | .answer head => head.wf
  | .quote head kind amount permit plate =>
      head.wf && fits 1 kind && fits 2 amount && fits 3 permit && plate.length ≤ 79
  | .confirm head quoteId coins card => head.wf && fits 1 quoteId && coins.allLe 255 && fits 2 card
  | .cancel head => head.wf
  | .accept head level => head.wf && fits 1 level
  | .wakeReq head => head.wf
  | .miss => true
  | .jabber => true
  | .jabberLate => true
  | .offer identity form => fits 6 identity && form.wf
  | .replyWindowEnd => true
  | .linkLostDeadline slot => slot ≤ Config.terminalSlots
  | .barExpiry slot => slot ≤ Config.terminalSlots
  | .walkCompletion => true
  | .quoteExpiry slot => slot ≤ Config.terminalSlots
  | .silent slot => slot ≤ Config.terminalSlots
  | .secondTick => true
  | .zoneTimeWrap => true
  | .minuteRoll => true
  | .dayRoll => true
  | .segmentBoundary slot => slot ≤ Config.terminalSlots
  | .switchTimeArrival slot => slot ≤ Config.terminalSlots
  | .roundAutoClose => true
  | .powerFailEntry _ _ => true
  | .cellBelowRetention => true
  | .powerUp straps => straps.wf
  | .resetPin straps _ => straps.wf
  | .officeFrameStart => true
  | .serviceFrameStart => true
  | .lineFallsQuiet => true

end Sys2Proof
end

