-- ==== Sys2Proof/Certificates/Slice0/Obligations.lean ====
section
/-!
DEFINITION. The statements about the part, each with the rule of spec/ it rests on. The words they use (`Keeps`, `Reacts`, `answered`
and the laws) are defined in Safety.lean.
-/

open Sys2Proof Sys2Proof.Machine

/-! ## The step, the commands as a whole, and reset -/

/-- The step takes the command at the front of the queue and runs it with the queue's rest; on an empty queue the part idles (the
model's choice, log entry 1). -/
def Obligations.StepTakesFront : Prop :=
  (∀ (s : State) (c : Instr) (rest : List Instr), s.pending = c :: rest → step s = exec c { s with pending := rest })
    ∧ ∀ s : State, s.pending = [] → step s = .next s

/-- Every command answers a next state in every state, and leaves the queue of waiting commands to the step: the part has no fault that
stops it. -/
def Obligations.EveryCommandAnswers : Prop :=
  ∀ (c : Instr) (s : State), ∃ t, exec c s = .next t ∧ t.pending = s.pending

/-- What a cold start leaves, with any straps (R16, R33, R76, R93, R114, R133, R154, R168, R176, R181); the SEEK of cycle 0 that stands as
sent is the model's choice (log entries 18 and 20). -/
def Obligations.ResetValues : Prop :=
  ∀ straps : Straps,
    let s := State.cold straps
    s.calendar =
        { zoneTime := 0, uptime := 0, offset := 0, clockSet := false, holidays := [], lastRolled := none, deadline := none }
      ∧ s.plans = [] ∧ s.terminals = [] ∧ s.permits = [] ∧ s.roster = []
      ∧ s.engine.queue = [] ∧ s.engine.walk = none
      ∧ s.sales.nextTicket = 1 ∧ s.sales.grace = 5 ∧ s.sales.live = []
      ∧ s.cash.denominations = ⟨5, 10, 20, 50, 100, 200⟩ ∧ s.cash.tolerance = 50 ∧ s.cash.collections = []
      ∧ s.cash.round = none ∧ s.cash.nextCollection = 1 ∧ s.cash.nextRound = 1
      ∧ (∀ g ∈ groupNumbers, Table.find? g s.groups = some { cover := .freeTime, since := 0, mark := false })
      ∧ s.journal = { records := [], reservation := 0, nextSequence := 1 }
      ∧ s.office = { reading := false, current := none, busy := [], overruns := 0 }
      ∧ s.service = { reading := false, current := none, busy := [] }
      ∧ s.attention.flags = { Flags.none with restarted := true, clock := true } ∧ s.attention.mask = Flags.all
      ∧ s.line.cycle = 0 ∧ s.line.lastUnknown = none ∧ s.line.out = [.seek 0]
      ∧ s.supply.part = .running ∧ s.supply.latch = false ∧ s.supply.straps = straps

/-- The state after reset meets every law of the part (the reset state is a cold start with the straps low: log entry 4). -/
def Obligations.ResetMeetsTheLaws : Prop :=
  let s := State.reset
  TablesOrdered s ∧ CoinsAccounted s ∧ JournalConsecutive s ∧ RoundAccounted s ∧ EngineSound s ∧ HoldsOwned s ∧ PlansReady s
    ∧ LinksSound s ∧ StatesDerived s ∧ MarksOnlyWhenFull s

/-! ## Laws that every step keeps -/

/-- Every table keeps its order, and the group records stay those of groups 1 to 12 (R77, R171). -/
def Obligations.TablesStayOrdered : Prop := Kept TablesOrdered

/-- At every terminal and every position, lifetime accepted stays the tally plus lifetime collected (R96). -/
def Obligations.CoinsStayAccounted : Prop := Kept CoinsAccounted

/-- The records of the journal stay consecutive numbers up to the next sequence number (R155). -/
def Obligations.JournalStaysConsecutive : Prop := Kept JournalConsecutive

/-- The reservation stays the open round's PENDING entries plus one, used and reserved entries stay within 1024, collection records in
use and reserved within 64, and the one deadline stays the open round's (R11, R101, R104, R107, R155, R157). -/
def Obligations.RoundStaysAccounted : Prop := Kept RoundAccounted

/-- Walk queue, walk in flight and quote slots stay in step, and a hold stays its OPEN quote's (R34 to R36, R58, R87). -/
def Obligations.HoldsStayOwned : Prop := Kept fun s => TablesOrdered s ∧ EngineSound s ∧ HoldsOwned s

/-- A plan slot that a terminal or the walk in flight names stays READY (R20, R26, R32). -/
def Obligations.PlansInUseStayReady : Prop := Kept PlansReady

/-- Link fields and notice queues stay as R137 to R153 keep them: at most four notices and one of a sort, RESET alone, SLEEP in the queue of
an ACTIVE slot with no quote, WAKE in that of a SLEEPING slot, none elsewhere, and a quote in progress in an ACTIVE slot alone (R65;
the SLEEP that falls away as its slot falls asleep: log entry 36), given tables in order and the engine's accounts. -/
def Obligations.LinksStaySound : Prop := Kept fun s => TablesOrdered s ∧ EngineSound s ∧ LinksSound s

/-- While the part runs, every held service state and every held cover stays the one derived from the state (R126, R130), given tables
in order and the accounts of the round; and what is derived: the service state by the link, the door, the impacts in force, the sales
halt, the clock and the tender methods (R118, R125), and the cover by the members of the group (R129). -/
def Obligations.StatesStayDerived : Prop :=
  (Kept fun s => TablesOrdered s ∧ RoundAccounted s ∧ StatesDerived s)
    ∧ (∀ (s : State) (x : Terminal),
        let f := x.watch.faults
        let inForce (r : FaultRecord) : Prop := r.state = .active ∨ r.state = .held
        let out : Prop :=
          (x.link.state ≠ .active ∧ x.link.state ≠ .sleeping) ∨ x.watch.door ≠ .closed
            ∨ inForce f.linkLost ∨ inForce f.jabber ∨ inForce f.powerCritical ∨ inForce f.paperOut ∨ f.doorForced.state ≠ .clear
            ∨ freeSpace s ≤ 32 ∨ s.calendar.clockSet = false
        let cash : Prop := ∃ c ∈ x.link.caps, c.coins = true
        let card : Prop := (∃ c ∈ x.link.caps, c.card = true) ∧ (x.link.level = some 2 ∨ x.link.level = some 3)
        let noCash : Prop := ¬cash ∨ inForce f.coinJam ∨ inForce f.boxFull
        let noCard : Prop := ¬card ∨ inForce f.cardFault
        (out ∨ (noCash ∧ noCard) → serviceOf s x = .outOfService)
          ∧ (¬out → (cash ∨ card) → (cash → ¬noCash) → (card → ¬noCard) → serviceOf s x = .inService)
          ∧ (¬out → card → ¬noCash → noCard → serviceOf s x = .cashOnly)
          ∧ (¬out → cash → noCash → ¬noCard → serviceOf s x = .cardOnly))
    ∧ ∀ (s : State) (g : Nat),
        let member (e : Nat × Terminal) : Prop := e ∈ s.terminals ∧ e.2.config.group = g
        let charged (e : Nat × Terminal) : Prop := ∃ here ∈ e.2.segment, here.kind = .charged
        ((∀ e, ¬member e) → coverOf g s = .freeTime)
          ∧ ((∃ e, member e) → s.calendar.clockSet = false → coverOf g s = .uncovered)
          ∧ (s.calendar.clockSet = true → (∀ e, member e → ¬charged e) → coverOf g s = .freeTime)
          ∧ (s.calendar.clockSet = true → (∃ e, member e ∧ charged e) →
            (∃ e, member e ∧ e.2.watch.service ≠ .outOfService) → coverOf g s = .covered)
          ∧ (s.calendar.clockSet = true → (∃ e, member e ∧ charged e) →
            (∀ e, member e → e.2.watch.service = .outOfService) → coverOf g s = .uncovered)

/-- Pending-record marks exist only while the journal's unreserved free space is 0 (R131). -/
def Obligations.MarksStayOwed : Prop := Kept fun s => TablesOrdered s ∧ MarksOnlyWhenFull s

/-! ## Frames (chapter 12) -/

/-- An office request that fits its fields is read back from its frame, every operand with it. A response's frame carries its CRC, the kind
and tag of its request, and a body that opens with the result code; a BUSY answer's body is that code alone; no body is longer than
1024 bytes (R161, R162, R182, R183, R185; a response's fields of no given width: log entries 13 and 26, fields that do not fit: log entry
42; signed numbers in two's complement: log entry 44). -/
def Obligations.OfficeFramesRoundTrip : Prop :=
  (∀ (i : Instr) (bytes : List Byte), i.wf = true → officeBytes i = some bytes → officeCommand bytes = some i)
    ∧ (∀ r : OfficeReply, r.kind < 256 → r.tag < 256 → ∃ fields : List Byte,
        readFrame 1024 r.frame = .whole r.kind r.tag (BitVec.ofNat 8 r.response.code.number :: fields)
          ∧ fields.length ≤ 1023
          ∧ ((r.response.body.bytes r.kind).length ≤ 1023 → fields = r.response.body.bytes r.kind))
    ∧ ∀ kind tag : Nat, kind < 256 → tag < 256 → readFrame 1024 (officeBusyFrame (kind, tag)) = .whole kind tag [3]

/-- A service request that fits its fields is read back from its frame, the handheld's identity with it. A response's frame carries its
CRC, the kind and tag of its request, and a body that opens with the identity, four bytes with the most significant first, and the
result code, and is no longer than 256 bytes (R169, R170, R182, R183, R185; fields of no given width: log entries 13 and 26, fields that do
not fit: log entry 42; signed numbers in two's complement: log entry 44). -/
def Obligations.ServiceFramesRoundTrip : Prop :=
  (∀ (i : Instr) (bytes : List Byte), i.wf = true → serviceBytes i = some bytes → serviceCommand bytes = some i)
    ∧ (∀ r : ServiceReply, r.kind < 256 → r.tag < 256 → r.identity < 2 ^ 32 → ∃ (a b c d : Byte) (fields : List Byte),
          readFrame 256 r.frame
              = .whole r.kind r.tag (a :: b :: c :: d :: BitVec.ofNat 8 r.response.code.number :: fields)
            ∧ fields.length ≤ 251
            ∧ ((r.response.body.bytes r.kind).length ≤ 251 → fields = r.response.body.bytes r.kind)
            ∧ r.identity = a.toNat * 16777216 + b.toNat * 65536 + c.toNat * 256 + d.toNat)
    ∧ ∀ identity kind tag : Nat, kind < 256 → tag < 256 → identity < 2 ^ 32 → ∃ a b c d : Byte,
        readFrame 256 (serviceBusyFrame (identity, kind, tag)) = .whole kind tag [a, b, c, d, 3]
          ∧ identity = a.toNat * 16777216 + b.toNat * 65536 + c.toNat * 256 + d.toNat

/-- A kerb-line answer or offer that fits its fields is read back from its frame (R136, R140, R182 to R184, section 12.2; a
sleep byte other than 1 is AWAKE: log entry 27). -/
def Obligations.KerbFramesRoundTrip : Prop :=
  (∀ (i : Instr) (bytes : List Byte), i.wf = true → answerBytes i = some bytes → answerCommand bytes = i)
    ∧ ∀ (identity : Nat) (form : OfferForm), (Instr.offer identity form).wf = true →
        offerCommand (offerBytes identity form) = some (.offer identity form)

/-! ## The tariff walk (chapter 3) -/

/-- The price of a step: the first costs P, each further one ΔP more, up to Pmax; the discount is rounded half up and 0 and 100 percent are
exact; the cost of a step is the least whole number of pence that is at least its share, a wholly covered step costs nothing and a whole
step costs d (R47 to R49). -/
def Obligations.StepPrices : Prop :=
  (∀ c percent : Nat, percent ≤ 100 →
      2 * 100 * discountedPrice c percent ≤ 2 * c * (100 - percent) + 100
        ∧ 2 * c * (100 - percent) + 100 < 2 * 100 * (discountedPrice c percent + 1)
        ∧ discountedPrice c percent ≤ c)
    ∧ (∀ c : Nat, discountedPrice c 0 = c ∧ discountedPrice c 100 = 0)
    ∧ (∀ price increment cap k : Nat,
        nominalPrice price increment cap k = min (price + increment * k) cap
          ∧ (price ≤ cap → nominalPrice price increment cap 0 = price)
          ∧ nominalPrice price increment cap k ≤ nominalPrice price increment cap (k + 1)
          ∧ nominalPrice price increment cap k ≤ cap)
    ∧ ∀ d payable step : Nat, 0 < step →
        d * payable ≤ step * stepCost d payable step ∧ step * stepCost d payable step < d * payable + step
          ∧ stepCost d 0 step = 0 ∧ stepCost d step step = d

/-- The bounds of every walk (R38, R39, R43, R48, R53): the expiry lies from t0 to t0 + 1440 minutes and not past the last whole
minute, on a whole minute, at least the charged minutes after t0; the charged cost is within the limit; the allowance used is the
lesser of a0 and the charged minutes; and a walk that ends by its horizon ends at it (R45). -/
def Obligations.WalksKeepTheTariffLaw : Prop :=
  ∀ w : WalkInput, w.walk.entry.start % 60 = 0 → w.walk.entry.start ≤ Config.lastMinute →
    (∀ p ∈ w.walk.pending, p.2 % 60 = 0) →
    let r := w.run
    w.walk.entry.start + 60 * r.minutes ≤ r.expiry ∧ r.expiry ≤ w.walk.entry.start + 1440 * 60
      ∧ r.expiry ≤ 4294967280 ∧ r.expiry % 60 = 0
      ∧ (∀ amount, w.walk.entry.ask = .byAmount amount → r.cost ≤ amount)
      ∧ (∀ d, w.walk.entry.ask = .byDuration d → r.cost ≤ 65535)
      ∧ r.used = min w.walk.a0 r.minutes
      ∧ (r.cause = .horizon → r.expiry = min (w.walk.entry.start + 1440 * 60) 4294967280)

/-- The outcomes of a walk (R51, R52): a BY_DURATION walk is OK exactly where it reached its target, and then its expiry is at or
after it; CLAMPED and OK have charged minutes, NO_SALE, NO_TENDER and BELOW_MINIMUM have none and cost nothing. And what a walk does
(R39, R43 to R50): its figures are those of its rounds from t0; a free pass goes on from FREE segment to FREE segment up to the horizon;
after it a round ends at the horizon and in a no-stay band, and in a CHARGED band it sizes its step, ends at the maximum stay or at the
limit, or buys the step and goes on, a new segment found at the end of the old one, unless the target is reached. -/
def Obligations.WalkOutcomes : Prop :=
  ∀ w : WalkInput,
    let r := w.run
    (∀ d, w.walk.entry.ask = .byDuration d →
        (r.outcome = .ok ↔ r.cause = .target) ∧ (r.outcome = .ok → w.walk.entry.start + d * 60 ≤ r.expiry)
          ∧ (r.outcome = .ok ∨ r.outcome = .clamped ∨ r.outcome = .noSale))
      ∧ (∀ amount, w.walk.entry.ask = .byAmount amount →
          r.cause ≠ .target
            ∧ (r.outcome = .ok ∨ r.outcome = .noTender ∨ r.outcome = .noSale ∨ r.outcome = .belowMinimum)
            ∧ (r.outcome = .noTender ↔ amount = 0 ∧ w.walk.a0 = 0))
      ∧ (r.outcome = .clamped → 0 < r.minutes) ∧ (r.outcome = .ok → 0 < r.minutes)
      ∧ (r.outcome = .noTender ∨ r.outcome = .noSale ∨ r.outcome = .belowMinimum → r.minutes = 0 ∧ r.cost = 0)
      ∧ (¬(w.walk.entry.ask = .byAmount 0 ∧ w.walk.a0 = 0) →
          let t0 := w.walk.entry.start
          let limit :=
            match w.walk.entry.ask with
            | .byAmount amount => amount
            | .byDuration _ => 65535
          let target :=
            match w.walk.entry.ask with
            | .byAmount _ => none
            | .byDuration d => some (t0 + d * 60)
          let ended :=
            w.rounds (min (t0 + 86400) 4294967280) limit target (w.walk.entry.permit.map (·.2)) 1442
              { t := t0, cost := 0, bought := 0, allowance := w.walk.a0, k := 0, segment := w.find 0 t0, finding := 1,
                lastPlan := none, tried := 0 }
          r.cause = ended.2 ∧ r.expiry = ended.1.t ∧ r.cost = ended.1.cost ∧ r.minutes = ended.1.bought
            ∧ r.used = w.walk.a0 - ended.1.allowance ∧ r.tried = ended.1.tried)
      ∧ (∀ (i t : Nat) (g : FoundSegment), w.find i t = some g → t < g.segment.ends ∧ g.segment.kind = g.band.segKind)
      ∧ (∀ (h fuel : Nat) (x : WalkState) (g : FoundSegment), x.segment = some g →
          (x.t < h → g.segment.kind = .free →
              w.freePass h (fuel + 1) x
                = w.freePass h fuel
                    (if h < g.segment.ends then { x with t := h }
                    else
                      { x with
                        t := g.segment.ends, k := 0, segment := w.find x.finding g.segment.ends, finding := x.finding + 1 }))
            ∧ (h ≤ x.t ∨ g.segment.kind ≠ .free → w.freePass h (fuel + 1) x = x))
      ∧ ∀ (h limit : Nat) (target : Option Nat) (kind : Option PermitKind) (fuel : Nat) (before : WalkState),
          let x := w.freePass h 1442 before
          let round := w.rounds h limit target kind (fuel + 1) before
          (x.t = h → round = (x, .horizon))
            ∧ ∀ g : FoundSegment, x.segment = some g → x.t ≠ h →
                (g.band = .noStay → round = (x, .noStay))
                  ∧ ∀ step price increment cap stay : Nat, g.band = .charged step price increment cap stay →
                      let least := min step (min ((g.segment.ends - x.t) / 60) ((h - x.t) / 60))
                      let m := if stay = 0 then least else min least (stay - x.bought)
                      let percent :=
                        match kind with
                        | none => 0
                        | some .resident => g.discounts.resident
                        | some .visitor => g.discounts.visitor
                        | some .business => g.discounts.business
                      let c := stepCost (discountedPrice (nominalPrice price increment cap x.k) percent) (m - x.allowance) step
                      let ends := x.t + m * 60
                      let next : WalkState :=
                        { t := ends, cost := x.cost + c, bought := x.bought + m, allowance := x.allowance - m
                          k := if ends = g.segment.ends then 0 else x.k + 1
                          segment := if ends = g.segment.ends then w.find x.finding ends else some g
                          finding := if ends = g.segment.ends then x.finding + 1 else x.finding
                          lastPlan := some g.segment.plan, tried := x.tried }
                      (m = 0 → round = (x, .maxStay))
                        ∧ (m ≠ 0 → limit < x.cost + c → round = ({ x with tried := c }, .limit))
                        ∧ (m ≠ 0 → x.cost + c ≤ limit →
                          (∀ goal ∈ target, goal ≤ ends → round = (w.freePass h 1442 next, .target))
                            ∧ ((∀ goal ∈ target, ends < goal) → round = w.rounds h limit target kind fuel next))

/-! ## The two UART ports (chapters 9 and 10) -/

/-- Every office request that arrives whole while another is in progress is answered BUSY and not handed on; behind four waiting BUSY
answers it is discarded and the overrun count rises by one, up to 255. A frame of any kind is treated so (R161, R162; a whole
frame is taken whatever the receiver does: log entry 5). -/
def Obligations.OfficeRequestsMeetBusy : Prop :=
  ∀ (s : State) (r : OfficeReply), s.supply.part = .running → s.office.current = some r →
    let busy (kind tag : Nat) : State :=
      if s.office.busy.length < 4 then
        { s with office := { s.office with reading := false, busy := s.office.busy ++ [(kind, tag)] } }
      else { s with office := { s.office with reading := false, overruns := min 255 (s.office.overruns + 1) } }
    (∀ (c : Instr) (kind tag : Nat) (body : List Byte), officeRequestBytes c = some (kind, tag, body) →
        exec c s = .next (busy kind tag))
      ∧ ∀ kind tag : Nat,
          exec (.officeBusy kind tag) s = .next (busy kind tag) ∧ exec (.officeBadRequest kind tag) s = .next (busy kind tag)

/-- Every service request that arrives whole while another is in progress is answered BUSY, with the identity it carried, and not handed
on; behind four waiting BUSY answers it is discarded (R169, R170; a whole frame is taken whatever the receiver does: log entry 5). -/
def Obligations.ServiceRequestsMeetBusy : Prop :=
  ∀ (s : State) (r : ServiceReply), s.supply.part = .running → s.supply.straps.svc = true → s.service.current = some r →
    let busy (identity kind tag : Nat) : State :=
      if s.service.busy.length < 4 then
        { s with service := { s.service with reading := false, busy := s.service.busy ++ [(identity, kind, tag)] } }
      else { s with service := { s.service with reading := false } }
    (∀ (c : Instr) (kind tag identity : Nat) (body : List Byte), serviceRequestBytes c = some (kind, tag, identity, body) →
        exec c s = .next (busy identity kind tag))
      ∧ ∀ (identity : Option Nat) (kind tag : Nat),
          exec (.serviceBusy identity kind tag) s = .next (busy (identity.getD 0) kind tag)
            ∧ exec (.serviceBadRequest identity kind tag) s = .next (busy (identity.getD 0) kind tag)

/-- While the part is in BACKUP nothing but the end of a second, the cell and a power-up is taken; with the latched SVC strap low the
service link ignores every frame (R169, R177; lost commands: log entries 3 and 10). -/
def Obligations.DeafPorts : Prop :=
  (∀ (c : Instr) (s : State), s.supply.part = .backup → c ≠ .secondTick → c ≠ .zoneTimeWrap → c ≠ .cellBelowRetention →
      (∀ straps : Straps, c ≠ .powerUp straps) → exec c s = .next s)
    ∧ ∀ s : State, s.supply.straps.svc = false →
        (∀ (c : Instr) (kind tag identity : Nat) (body : List Byte),
            serviceRequestBytes c = some (kind, tag, identity, body) → exec c s = .next s)
          ∧ (∀ (identity : Option Nat) (kind tag : Nat),
              exec (.serviceBadRequest identity kind tag) s = .next s ∧ exec (.serviceBusy identity kind tag) s = .next s)
          ∧ exec .serviceFrameStart s = .next s ∧ exec .serviceFrameDiscard s = .next s ∧ exec .serviceByteTimeout s = .next s

/-- Every service request is checked for its sender and then for the sender's role, before its owner acts (R174, section 10.4). -/
def Obligations.ServiceRequestsCheckSender : Prop :=
  ∀ (c : Instr) (kind tag identity : Nat) (body : List Byte) (s : State),
    serviceRequestBytes c = some (kind, tag, identity, body) → s.supply.part = .running → s.supply.straps.svc = true →
    s.service.current = none →
      (Table.find? identity s.roster = none →
          exec c s = .next (serviceAnswered identity kind tag (refused .notAuthorised) s))
        ∧ ∀ e : RosterEntry, Table.find? identity s.roster = some e → kind ∉ roleKinds e.role →
            exec c s = .next (serviceAnswered identity kind tag { code := .wrongRole, body := .role e.role } s)

/-- The receivers, frames that carry no request that is handed on, and the end of a response (R161, R162, R169, R170, R174, R184):
the request in progress ends first, and then the BUSY answers go one after another, the one that waited longest first (log entry 6); a
response sent with no request in progress and no BUSY answer waiting changes nothing (log entry 2). -/
def Obligations.ReceiversAndBadFrames : Prop :=
  ∀ s : State, s.supply.part = .running →
    exec .officeFrameStart s = .next { s with office := { s.office with reading := true } }
      ∧ exec .officeFrameDiscard s = .next { s with office := { s.office with reading := false } }
      ∧ exec .officeByteTimeout s = .next { s with office := { s.office with reading := false } }
      ∧ (∀ kind tag : Nat, s.office.current = none →
          exec (.officeBadRequest kind tag) s = .next (answered kind tag (refused .badRequest) s))
      ∧ (∀ r ∈ s.office.current, (r.kind ≠ 0x1C ∨ r.response.code ≠ .ok) →
          exec .officeResponseSent s = .next { s with office := { s.office with current := none } })
      ∧ (s.office.current = none →
          (s.office.busy = [] → exec .officeResponseSent s = .next s)
            ∧ ∀ (b : Nat × Nat) (rest : List (Nat × Nat)), s.office.busy = b :: rest →
                exec .officeResponseSent s = .next { s with office := { s.office with busy := rest } })
      ∧ (∀ r ∈ s.service.current,
          exec .serviceResponseSent s = .next { s with service := { s.service with current := none } })
      ∧ (s.service.current = none →
          (s.service.busy = [] → exec .serviceResponseSent s = .next s)
            ∧ ∀ (b : Nat × Nat × Nat) (rest : List (Nat × Nat × Nat)), s.service.busy = b :: rest →
                exec .serviceResponseSent s = .next { s with service := { s.service with busy := rest } })
      ∧ (s.supply.straps.svc = true →
          exec .serviceFrameStart s = .next { s with service := { s.service with reading := true } }
            ∧ exec .serviceFrameDiscard s = .next { s with service := { s.service with reading := false } }
            ∧ exec .serviceByteTimeout s = .next { s with service := { s.service with reading := false } }
            ∧ (s.service.current = none → ∀ kind tag : Nat,
                exec (.serviceBadRequest none kind tag) s = .next (serviceAnswered 0 kind tag (refused .badRequest) s)
                  ∧ ∀ i : Nat,
                      (Table.find? i s.roster = none →
                          exec (.serviceBadRequest (some i) kind tag) s
                            = .next (serviceAnswered i kind tag (refused .notAuthorised) s))
                        ∧ ∀ e : RosterEntry, Table.find? i s.roster = some e →
                            (kind ∈ roleKinds e.role ∨ (∀ role : Role, kind ∉ roleKinds role) →
                                exec (.serviceBadRequest (some i) kind tag) s
                                  = .next (serviceAnswered i kind tag (refused .badRequest) s))
                              ∧ (kind ∉ roleKinds e.role → (∃ role : Role, kind ∈ roleKinds role) →
                                exec (.serviceBadRequest (some i) kind tag) s
                                  = .next (serviceAnswered i kind tag { code := .wrongRole, body := .role e.role } s))))

/-! ### Settings and answers of the office port -/

/-- PERMIT_GET answers the whole record with its remaining allowance, the local day and the clock-set flag, or NOT_FOUND, and changes
nothing (R84). -/
def Obligations.PermitGetAnswers : Prop :=
  ∀ (s : State) (tag number : Nat), OfficeFree s →
    (Table.find? number s.permits = none → exec (.permitGet tag number) s = .next (answered 0x0C tag (refused .notFound) s))
      ∧ ∀ p : Permit, Table.find? number s.permits = some p →
          exec (.permitGet tag number) s
            = .next
                (answered 0x0C tag
                  (accepted
                    (.permit number p (p.allowance - p.consumed - (p.hold.map (·.minutes)).getD 0) (today s)
                      s.calendar.clockSet)) s)

/-- The tolerance (R109): 50 after a cold start, kept by a warm start and an office restart, never above 1000, set by TOLERANCE_PUT, and
applied to every COUNT_RESULT taken. -/
def Obligations.ToleranceLaw : Prop :=
  (∀ straps : Straps, (State.cold straps).cash.tolerance = 50)
    ∧ (∀ (s : State) (straps : Straps) (keep : Bool),
        (s.supply.latch = false → (startBy straps keep s).cash.tolerance = s.cash.tolerance)
          ∧ (s.supply.latch = true → (startBy straps keep s).cash.tolerance = 50)
          ∧ (officeRestart s).cash.tolerance = s.cash.tolerance)
    ∧ (Kept fun s => s.cash.tolerance ≤ 1000)
    ∧ (∀ (s : State) (tag tolerance : Nat), OfficeFree s →
        exec (.tolerancePut tag tolerance) s
          = .next
              (if tolerance ≤ 1000 then
                answered 0x11 tag (accepted .empty) { s with cash := { s.cash with tolerance := tolerance } }
              else answered 0x11 tag (refused .badTolerance) s))
    ∧ ∀ (s : State) (tag number : Nat) (counted : Six) (c : Collection), OfficeFree s → 0 < freeSpace s →
        collectionOf number s = some c →
          let d : Int := (counted.value s.cash.denominations : Int) - c.value
          let outcome : Balance :=
            if d < -(s.cash.tolerance : Int) then .short else if (s.cash.tolerance : Int) < d then .over else .balanced
          ∃ t : State, exec (.countResult tag number counted) s = .next t
            ∧ t.office.current
                = some
                    { kind := 0x12
                      tag := tag
                      response := accepted (.reconciled outcome c.value (counted.value s.cash.denominations) d) }

/-- ATTENTION_MASK (R167): the mask takes the flags named, or BAD_MASK leaves it; no flag changes, ATTN is decided afresh from the new
mask, and every start enables every flag. -/
def Obligations.AttentionMaskLaw : Prop :=
  (∀ (s : State) (tag mask : Nat), OfficeFree s →
      let named : Flags :=
        ⟨mask.testBit 0, mask.testBit 1, mask.testBit 2, mask.testBit 3, mask.testBit 4, mask.testBit 5, mask.testBit 6,
          mask.testBit 7, mask.testBit 8, mask.testBit 9⟩
      let u : State := { s with attention := { s.attention with mask := named } }
      ((∃ bit : Nat, 10 ≤ bit ∧ mask.testBit bit = true) →
          exec (.attentionMask tag mask) s = .next (answered 0x19 tag (refused .badMask) s))
        ∧ ((∀ bit : Nat, 10 ≤ bit → mask.testBit bit = false) →
            exec (.attentionMask tag mask) s = .next (answered 0x19 tag (accepted (.mask named)) u)
              ∧ attn u = s.attention.flags.anyEnabled named))
    ∧ ∀ (s : State) (straps : Straps) (keep : Bool),
        (startBy straps keep s).attention.mask = Flags.all ∧ (officeRestart s).attention.mask = Flags.all

/-- STATUS (R165, R166): the response tells the flags as they were and the figures; then every flag is cleared, the overrun count
is 0, and the condition flags whose conditions hold are set again. -/
def Obligations.StatusReadsAndClears : Prop :=
  ∀ (s : State) (tag : Nat), OfficeFree s →
    let figures : JournalFigures :=
      { used := s.journal.records.length, reserved := s.journal.reservation,
        free := 1024 - s.journal.records.length - s.journal.reservation }
    let now : Flags :=
      { Flags.none with
        salesHalted := decide (1024 - s.journal.records.length - s.journal.reservation ≤ 32)
        journalHigh := decide (896 ≤ s.journal.records.length)
        counts := decide (s.cash.collections ≠ [])
        clock := !s.calendar.clockSet }
    let u : State :=
      { s with office := { s.office with overruns := 0 }, attention := { s.attention with flags := now } }
    exec (.status tag) s
        = .next
            (answered 0x18 tag
              (accepted
                (.attention s.attention.flags s.attention.mask s.line.lastUnknown figures
                  (s.journal.records.head?.map (·.sequence)) s.journal.nextSequence s.office.overruns)) u)
      ∧ attn u = now.anyEnabled s.attention.mask

/-- The plain settings: GRACE_PUT (R74), DENOMINATIONS_PUT (R95), ROSTER_PUT and ROSTER_REMOVE (R171 to R173), each refused or taken. -/
def Obligations.SettingsAreTaken : Prop :=
  ∀ (s : State) (tag : Nat), OfficeFree s →
    (∀ grace : Nat,
        exec (.gracePut tag grace) s
          = .next
              (if grace ≤ 15 then answered 0x09 tag (accepted .empty) { s with sales := { s.sales with grace := grace } }
              else answered 0x09 tag (refused .badGrace) s))
      ∧ (∀ v : Six,
          let tallies := (s.terminals.filter fun e => e.2.cash.tally ≠ .zero).length
          let bad (before d : Nat) : Prop := d = 0 ∨ 1000 < d ∨ d ≤ before
          let checks : List (Prop × Response) :=
            [(bad 0 v.n1, refusedAt .badDenominations 1), (bad v.n1 v.n2, refusedAt .badDenominations 2),
              (bad v.n2 v.n3, refusedAt .badDenominations 3), (bad v.n3 v.n4, refusedAt .badDenominations 4),
              (bad v.n4 v.n5, refusedAt .badDenominations 5), (bad v.n5 v.n6, refusedAt .badDenominations 6),
              (tallies ≠ 0 ∨ s.cash.collections ≠ [],
                { code := .denominationsInUse, body := .inUse tallies s.cash.collections.length })]
          (∀ r : Response, FirstFails checks r → exec (.denominationsPut tag v) s = .next (answered 0x10 tag r s))
            ∧ (NoneFails checks →
                exec (.denominationsPut tag v) s
                  = .next (answered 0x10 tag (accepted .empty) { s with cash := { s.cash with denominations := v } })))
      ∧ (∀ identity role key : Nat,
          let held := (Table.find? identity s.roster).isSome
          let checks : List (Prop × Response) :=
            [(identity = 0, refusedAt .badRoster 1), (role < 1 ∨ 3 < role, refusedAt .badRoster 2),
              (role = 2 ∧ key = 0, refusedAt .badRoster 3), (held = false ∧ 64 ≤ s.roster.length, refused .rosterFull)]
          (∀ r : Response, FirstFails checks r → exec (.rosterPut tag identity role key) s = .next (answered 0x1A tag r s))
            ∧ (NoneFails checks → ∃ e : RosterEntry,
                roleOf role = some e.role ∧ e.key = (if role = 2 then some key else none)
                  ∧ exec (.rosterPut tag identity role key) s
                      = .next
                          (answered 0x1A tag
                            (accepted
                              (.wordCount (if held then .replaced else .added) (Table.put identity e s.roster).length))
                            { s with roster := Table.put identity e s.roster })))
      ∧ ∀ identity : Nat,
          (Table.find? identity s.roster = none →
              exec (.rosterRemove tag identity) s = .next (answered 0x1B tag (refused .notFound) s))
            ∧ ∀ e : RosterEntry, Table.find? identity s.roster = some e →
                exec (.rosterRemove tag identity) s
                  = .next
                      (answered 0x1B tag (accepted (.rosterRemoved e.role (s.roster.filter fun x => x.1 ≠ identity).length))
                        { s with roster := s.roster.filter fun x => x.1 ≠ identity })

/-- The office's queries change nothing: CLOCK_GET (R2, R7; the day of a negative local time: log entry 22), TERMINAL_AUDIT (R112; the
value of the tally beside the counts of R94: log entry 38), FAULT_LIST (R120; its impacts by R115 and R118, its silence limit by
R128), GROUP_STATUS (R132) and JOURNAL_READ (R159; the bytes that its fields beside the records take are a free value: log entry 13). -/
def Obligations.OfficeQueriesAnswer : Prop :=
  ∀ (s : State) (tag : Nat), OfficeFree s →
    let day : Nat := (((s.calendar.zoneTime : Int) + 60 * s.calendar.offset).tdiv 86400).toNat
    exec (.clockGet tag) s
        = .next
            (answered 0x02 tag
              (accepted
                (.clock s.calendar.zoneTime s.calendar.offset s.calendar.clockSet s.calendar.uptime day ((day + 5) % 7)
                  s.calendar.lastRolled)) s)
      ∧ (∀ slot : Nat,
          (slot < 1 ∨ 24 < slot →
              exec (.terminalAudit tag slot) s = .next (answered 0x0F tag (refused .badSlot) s)
                ∧ exec (.faultList tag slot) s = .next (answered 0x13 tag (refused .badSlot) s))
            ∧ (1 ≤ slot → slot ≤ 24 → terminal s slot = none →
              exec (.terminalAudit tag slot) s = .next (answered 0x0F tag (accepted .slotIsEmpty) s)
                ∧ exec (.faultList tag slot) s = .next (answered 0x13 tag (accepted .slotIsEmpty) s))
            ∧ ∀ t : Terminal, 1 ≤ slot → slot ≤ 24 → terminal s slot = some t →
                exec (.terminalAudit tag slot) s
                    = .next
                        (answered 0x0F tag
                          (accepted
                            (.audit
                              { config := t.config, link := t.link.state, level := t.link.level, caps := t.link.caps,
                                service := t.watch.service, plans := t.plans, quote := t.quote.state, cash := t.cash,
                                tallyValue := t.cash.tally.value s.cash.denominations,
                                fill := t.cash.tally.total * 100 / t.config.capacity,
                                boxFull := decide (t.config.capacity ≤ t.cash.tally.total),
                                roundEntry :=
                                  (s.cash.round.bind fun r => r.entries.find? fun e => e.slot = slot).map fun e =>
                                    (e.reason, e.state),
                                collections := (s.cash.collections.filter fun c => c.slot = slot).length })) s)
                  ∧ exec (.faultList tag slot) s
                      = .next
                          (answered 0x13 tag
                            (accepted (.faults (toldFaults t))) s))
      ∧ exec (.groupStatus tag) s
          = .next
              (answered 0x15 tag
                (accepted
                  (.groups
                    (s.groups.map fun e =>
                      let ms := s.terminals.filter fun x => x.2.config.group = e.1
                      { record := e.2, members := ms.map (·.1),
                        chargedMembers := (ms.filter fun x => x.2.segment.map (·.kind) = some .charged).length,
                        servingMembers := (ms.filter fun x => x.2.watch.service ≠ .outOfService).length }))) s)
      ∧ ∀ count : Nat,
          (count < 1 ∨ 16 < count → exec (.journalRead tag count) s = .next (answered 0x16 tag (refused .badCount) s))
            ∧ (1 ≤ count → count ≤ 16 → ∃ n : Nat,
                n ≤ count ∧ n ≤ s.journal.records.length
                  ∧ exec (.journalRead tag count) s
                      = .next
                          (answered 0x16 tag
                            (accepted
                              (.records (s.journal.records.take n)
                                { used := s.journal.records.length, reserved := s.journal.reservation,
                                  free := 1024 - s.journal.records.length - s.journal.reservation }
                                s.journal.nextSequence)) s)
                  ∧ Config.journalReadOverhead + ((s.journal.records.take n).map Record.size).sum ≤ 1024
                  ∧ (n < count → n < s.journal.records.length →
                      1024 < Config.journalReadOverhead + ((s.journal.records.take (n + 1)).map Record.size).sum)
                  ∧ (s.journal.records ≠ [] → (∀ r ∈ s.journal.records, r.size ≤ 76) → 0 < n))

/-- The handhelds' queries change nothing: TICKET_CHECK (R75), PERMIT_CHECK (R92) and GROUP_CHECK (R132) of an officer, ROUND_LIST
(R94, R99; the value of the tally: log entry 38) of a collector and TERMINAL_STATUS (R120) of an engineer. A plate is compared as it
was carried (log entry 35). -/
def Obligations.ServiceQueriesAnswer : Prop :=
  ∀ (s : State) (identity tag : Nat) (e : RosterEntry), LinkFree identity e s →
    (e.role = .officer →
        (∀ (ticket : Nat) (plate : Plate),
            let now := s.calendar.zoneTime
            let unknown : Response := accepted (.ticket .unknown none s.calendar.clockSet)
            let differ (x : LiveTicket) : Prop := plate ≠ [] ∧ ∃ p ∈ x.plate, p ≠ plate
            let table : Option LiveTicket → List (Prop × Response)
              | none => [(True, unknown)]
              | some x =>
                let view : TicketView :=
                  { slot := x.slot, group := x.group, start := x.start, expiry := x.expiry, permit := x.permit }
                let say (word : Code) : Response := accepted (.ticket word (some view) s.calendar.clockSet)
                [(x.expiry + s.sales.grace * 60 ≤ now, unknown), (differ x, say .plateMismatch), (now < x.expiry, say .valid),
                  (True, say .inGrace)]
            ∀ r : Response, FirstFails (table (s.sales.live.find? fun x => x.ticket = ticket)) r →
              exec (.ticketCheck identity tag ticket plate) s = .next (serviceAnswered identity 0x40 tag r s))
          ∧ (∀ (number group : Nat) (plate : Plate),
              let table : Option Permit → List (Prop × Response)
                | none => [(True, accepted (.permitStanding .unknown none s.calendar.clockSet))]
                | some p =>
                  let view : PermitView :=
                    { kind := p.kind, firstDay := p.firstDay, lastDay := p.lastDay, zones := p.zones, plate := p.plate }
                  let say (word : Code) : Response := accepted (.permitStanding word (some view) s.calendar.clockSet)
                  [(p.suspended = true, say .suspended), (today s < p.firstDay, say .notYet), (p.lastDay < today s, say .expired),
                    (group ∉ p.zones, say .notInZone), (plate ≠ [] ∧ ∃ q ∈ p.plate, q ≠ plate, say .plateMismatch),
                    (True, say .valid)]
              ∀ r : Response,
                FirstFails ((group < 1 ∨ 12 < group, refused .badGroup) :: table (Table.find? number s.permits)) r →
                  exec (.permitCheck identity tag number group plate) s = .next (serviceAnswered identity 0x41 tag r s))
          ∧ ∀ group : Nat,
              (group < 1 ∨ 12 < group →
                  exec (.groupCheck identity tag group) s
                    = .next (serviceAnswered identity 0x42 tag (refused .badGroup) s))
                ∧ ∀ g : GroupRecord, 1 ≤ group → group ≤ 12 → Table.find? group s.groups = some g →
                    exec (.groupCheck identity tag group) s
                      = .next
                          (serviceAnswered identity 0x42 tag
                            (accepted
                              (.group g.cover g.since (s.terminals.filter fun x => x.2.config.group = group).length
                                s.calendar.clockSet)) s))
      ∧ (e.role = .collector →
          let box (x : RoundEntry) : ListedBox → Prop := fun b =>
            b.entry = x ∧ ∀ t : Terminal, terminal s x.slot = some t →
              b.link = t.link.state ∧ b.service = t.watch.service ∧ b.tallyTotal = t.cash.tally.total
                ∧ b.tallyValue = t.cash.tally.value s.cash.denominations
          ∃ boxes : List ListedBox,
            (∀ r ∈ s.cash.round,
                List.Forall₂ box r.entries boxes
                  ∧ exec (.roundList identity tag) s
                      = .next
                          (serviceAnswered identity 0x44 tag
                            (accepted (.roundNow r.number r.collector r.key r.start (r.start + 28800) boxes)) s))
              ∧ (s.cash.round = none →
                  let n := (roundList s).length
                  List.Forall₂ box (roundList s) boxes
                    ∧ exec (.roundList identity tag) s
                        = .next
                            (serviceAnswered identity 0x44 tag
                              (accepted
                                (.roundPreview boxes n
                                  (decide (n ≤ 64 - s.cash.collections.length) && decide (n + 1 ≤ freeSpace s)))) s)))
      ∧ (e.role = .engineer → ∀ slot : Nat,
          (slot < 1 ∨ 24 < slot →
              exec (.terminalStatus identity tag slot) s = .next (serviceAnswered identity 0x46 tag (refused .badSlot) s))
            ∧ (1 ≤ slot → slot ≤ 24 → terminal s slot = none →
              exec (.terminalStatus identity tag slot) s
                = .next (serviceAnswered identity 0x46 tag (accepted .slotIsEmpty) s))
            ∧ ∀ t : Terminal, 1 ≤ slot → slot ≤ 24 → terminal s slot = some t →
                exec (.terminalStatus identity tag slot) s
                  = .next
                      (serviceAnswered identity 0x46 tag (accepted (.terminalStatus (toldFaults t) t.link.state)) s))

/-! ## The Calendar (chapter 1) -/

/-- CLOCK_SET (R5, R6, R10, R175): its checks in order, and then the jump of the clock from either port: clock values, due switches with
PLAN_SWITCHED, the last-rolled date, segments with the SLEEP and WAKE notices of their boundaries, TIME notices, the minute roll, and
last a deadline that is due, which closes the round. -/
def Obligations.ClockSetJumps : Prop :=
  ∀ (src : Source) (time : Nat) (offset : Int) (s : State), SourceFree src s →
    (∀ r : Response, FirstFails (clockChecks src time offset s) r →
        exec (.clockSet src time offset) s = .next (answeredTo src 0x01 r s))
      ∧ (NoneFails (clockChecks src time offset s) → TablesOrdered s →
        let day : Nat := (((time : Int) + 60 * offset).tdiv 86400).toNat
        let rolled : Bool := decide (∃ d ∈ s.calendar.lastRolled, d < day)
        ∃ v u : State,
          exec (.clockSet src time offset) s
              = .next (answeredTo src 0x01 (accepted (.clockWas s.calendar.zoneTime time day rolled)) u)
            ∧ Reacts (jumped time offset s) v
            ∧ ((∀ d ∈ s.calendar.deadline, time < d) → u = v)
            ∧ ((∃ d ∈ s.calendar.deadline, d ≤ time) → DeadlineDelivered v u))

/-- HOLIDAYS_PUT (R8, R14, R41): its checks in order, or the list is replaced whole, every segment is found afresh with its boundary where
it differs, and the walk in flight reads the new list from here on (how many segments it has found is free: log entry 13). A list of more
than 32 entries is refused naming position 33, a position that is the model's choice (log entry 25). -/
def Obligations.HolidaysPutReplaces : Prop :=
  ∀ (s : State) (tag : Nat) (days : List Nat), OfficeFree s →
    (∀ r : Response, FirstFails (holidayChecks days) r →
        exec (.holidaysPut tag days) s = .next (answered 0x03 tag r s))
      ∧ (NoneFails (holidayChecks days) → TablesOrdered s → ∃ (found : Nat) (u : State),
        let set : State := { s with calendar := { s.calendar with holidays := days } }
        exec (.holidaysPut tag days) s = .next (answered 0x03 tag (accepted .empty) u)
          ∧ Reacts
              { set with
                terminals :=
                  s.terminals.map fun e => (e.1, e.2.bounded s.calendar.zoneTime (segmentNow set e.2.plans))
                engine :=
                  { s.engine with
                    walk := s.engine.walk.map fun w => { w with past := w.past ++ [(found, w.reading)], reading := days } }
                freeIndex := s.freeIndex + if s.engine.walk.isSome then 1 else 0 } u
          ∧ ∀ w ∈ s.engine.walk, w.past = [] → 1 ≤ found)

/-- The end of a second (R1, R3, R4, R11, R71, R127, R177): SECOND_TICK, and ZONE_TIME_WRAP where zone time stands at its greatest value;
below it ZONE_TIME_WRAP is not due (log entry 2), and at it either command ends the second with the wrap (log entry 31), a deadline
delivered after the covers (log entry 7). In BACKUP the zone clock alone counts; the wrap there empties the live ticket table and makes
every segment NONE, and leaves the deadline to the next start (log entry 16). -/
def Obligations.SecondsEnd : Prop :=
  ∀ s : State,
    (s.supply.part = .running → s.calendar.zoneTime ≠ 4294967295 →
        exec .secondTick s
            = .next
                { s with
                  calendar :=
                    { s.calendar with zoneTime := s.calendar.zoneTime + 1, uptime := s.calendar.uptime + 1 }
                  terminals := s.terminals.map fun e => (e.1, e.2.second) }
          ∧ exec .zoneTimeWrap s = .next s)
      ∧ (s.supply.part = .backup → s.calendar.zoneTime ≠ 4294967295 →
          exec .secondTick s = .next { s with calendar := { s.calendar with zoneTime := s.calendar.zoneTime + 1 } }
            ∧ exec .zoneTimeWrap s = .next s)
      ∧ (s.supply.part = .backup → s.calendar.zoneTime = 4294967295 →
          let t : State :=
            { s with
              calendar := { s.calendar with zoneTime := 0, clockSet := false, lastRolled := none }
              terminals := s.terminals.map fun e => (e.1, { e.2 with segment := none })
              sales := { s.sales with live := [] } }
          exec .secondTick s = .next t ∧ exec .zoneTimeWrap s = .next t)
      ∧ (s.supply.part = .running → s.calendar.zoneTime = 4294967295 → TablesOrdered s → ∃ v t : State,
          exec .secondTick s = .next t ∧ exec .zoneTimeWrap s = .next t
            ∧ Reacts
                (shown
                  { s with
                    calendar :=
                      { s.calendar with zoneTime := 0, uptime := s.calendar.uptime + 1, clockSet := false, lastRolled := none }
                    terminals := s.terminals.map fun e => (e.1, e.2.second.bounded 0 none)
                    sales := { s.sales with live := [] } }) v
            ∧ (s.calendar.deadline = none → t = v)
            ∧ (s.calendar.deadline ≠ none → DeadlineDelivered v t))

/-- MINUTE_ROLL and DAY_ROLL (R9, R10, R73, R91), each where it is due; one that is not due changes nothing (log entry 2). -/
def Obligations.RollsRunWhenDue : Prop :=
  ∀ s : State, s.supply.part = .running →
    (s.calendar.zoneTime % 60 = 0 →
        exec .minuteRoll s
          = .next
              { s with
                sales :=
                  { s.sales with
                    live := s.sales.live.filter fun x => s.calendar.zoneTime < x.expiry + s.sales.grace * 60 } })
      ∧ (s.calendar.zoneTime % 60 ≠ 0 → exec .minuteRoll s = .next s)
      ∧ (s.calendar.clockSet = false ∨ (∀ d ∈ s.calendar.lastRolled, today s ≤ d) → exec .dayRoll s = .next s)
      ∧ ∀ d ∈ s.calendar.lastRolled, s.calendar.clockSet = true → d < today s → TablesOrdered s → ∃ t : State,
          exec .dayRoll s = .next t ∧ Keeps [.calendar, .permits, .terminals] s t
            ∧ t.calendar
                = { s.calendar with
                    lastRolled := some (today s), holidays := s.calendar.holidays.filter fun h => today s ≤ h }
            ∧ t.permits = (s.permits.map fun e => (e.1, { e.2 with consumed := 0 }))
            ∧ ∀ slot : Nat,
                terminal t slot
                  = (terminal s slot).map fun x =>
                      if x.link.state = .active ∨ x.link.state = .sleeping then
                        { x with
                          link :=
                            { x.link with
                              queue :=
                                notified NoticeBody.isTime (.time s.calendar.zoneTime s.calendar.offset true)
                                  x.link.queue } }
                      else if x.link.state = .granted then { x with link := { x.link with timeOwed := true } }
                      else x

/-- SEGMENT_BOUNDARY (R13, R14, R146, R148) and SWITCH_TIME_ARRIVAL (R15, R30, R31) of a slot: where one is due its segment is found
afresh, a switch taken first with PLAN_SWITCHED set; a segment that differs has its boundary, with its SLEEP and WAKE notices, and the
Fault Monitor follows; one that is not due changes nothing (log entry 2). What is found (R12, R13): none while the clock is unset or no
plan is; else, under the plan that the switch time ahead or behind decides and the profile of the holiday list or the weekday, the last
band that starts at or before the local minute, up to the next band, local midnight or the switch time. -/
def Obligations.BoundariesAndSwitches : Prop :=
  (∀ (s : State) (slot : Nat), s.supply.part = .running →
    (s.calendar.clockSet = false → exec (.segmentBoundary slot) s = .next s ∧ exec (.switchTimeArrival slot) s = .next s)
      ∧ (terminal s slot = none → exec (.segmentBoundary slot) s = .next s ∧ exec (.switchTimeArrival slot) s = .next s)
      ∧ ∀ x : Terminal, terminal s slot = some x → s.calendar.clockSet = true →
          let now := s.calendar.zoneTime
          ((∀ g ∈ x.segment, now < g.ends) → exec (.segmentBoundary slot) s = .next s)
            ∧ ((∀ p ∈ x.plans.pending, now < p.2) → exec (.switchTimeArrival slot) s = .next s)
            ∧ (∀ g ∈ x.segment, g.ends ≤ now → ∃ t : State,
                exec (.segmentBoundary slot) s = .next t
                  ∧ Reacts (onTerminal slot (Terminal.bounded now (segmentNow s x.plans)) s) t)
            ∧ ∀ p ∈ x.plans.pending, p.2 ≤ now → ∃ t : State,
                let plans : PlanFields := { current := some p.1, pending := none }
                exec (.switchTimeArrival slot) s = .next t
                  ∧ Reacts
                      (onTerminal slot (fun y => Terminal.bounded now (segmentNow s plans) { y with plans := plans })
                        { s with
                          attention :=
                            { s.attention with flags := { s.attention.flags with planSwitched := true } } }) t)
    ∧ ∀ (s : State) (f : PlanFields),
        let now := s.calendar.zoneTime
        let passed : Prop := ∃ p ∈ f.pending, p.2 ≤ now
        (s.calendar.clockSet = false → segmentNow s f = none)
          ∧ (f.current = none → ¬passed → segmentNow s f = none)
          ∧ ∀ (plan time : Nat) (profiles : Table (List Band)) (discounts : Discounts) (before rest : List Band) (b : Band),
              s.calendar.clockSet = true → ((∃ switch, f.pending = some (plan, switch) ∧ switch ≤ now) ∨ (¬passed ∧ f.current = some plan)) →
              Table.find? plan s.plans = some (.ready profiles discounts) →
              (time : Int) = now + 60 * s.calendar.offset →
              let day := time / 86400
              let minute := time % 86400 / 60
              let profile : Profile :=
                if day ∈ s.calendar.holidays then .holiday
                else match (day + 5) % 7 with
                  | 0 => .monday | 1 => .tuesday | 2 => .wednesday | 3 => .thursday | 4 => .friday | 5 => .saturday
                  | _ => .sunday
              Table.find? profile.number profiles = some (before ++ b :: rest) → b.start ≤ minute →
              (∀ c ∈ rest, minute < c.start) → (∀ c ∈ rest, c.start ≤ 1439) →
                let bandEnd := now + ((rest.head?.map (·.start)).getD 1440 * 60 - time % 86400)
                segmentNow s f
                  = some
                      { kind := match b.kind with
                          | .charged _ _ _ _ _ => .charged
                          | .free => .free
                          | .noStay => .noStay
                        plan := plan, profile := profile, band := before.length + 1, day := day
                        ends := if passed then bandEnd else min bandEnd ((f.pending.map (·.2)).getD bandEnd) }

/-! ## The Plan Store (chapter 2) -/

/-- PLAN_BEGIN, PROFILE_PUT, PLAN_CLOSE and PLAN_CLEAR: their checks in order, and what each leaves (R17 to R25). A CHARGED band is
stored with its five price fields; of a FREE or a NO_STAY band only the start minute and the kind are kept, whatever price fields it
carried. -/
def Obligations.PlanStoreRequests : Prop :=
  ∀ (s : State) (tag plan : Nat), OfficeFree s →
    (∀ r : Response, FirstFails (planChecks plan s) r →
        exec (.planBegin tag plan) s = .next (answered 0x04 tag r s)
          ∧ exec (.planClear tag plan) s = .next (answered 0x07 tag r s))
      ∧ (NoneFails (planChecks plan s) →
          exec (.planBegin tag plan) s
              = .next (answered 0x04 tag (accepted .empty) { s with plans := Table.put plan (.building []) s.plans })
            ∧ exec (.planClear tag plan) s
              = .next (answered 0x07 tag (accepted .empty) { s with plans := s.plans.filter fun e => e.1 ≠ plan }))
      ∧ (∀ (profile : Nat) (bands : List BandEntry),
          (∀ r : Response, FirstFails (profileChecks plan profile bands s) r →
              exec (.profilePut tag plan profile bands) s = .next (answered 0x05 tag r s))
            ∧ ∀ profiles : Table (List Band), Table.find? plan s.plans = some (.building profiles) →
                NoneFails (profileChecks plan profile bands s) →
                  let kept (b : BandEntry) : Band :=
                    { start := b.start
                      kind :=
                        if b.kind = 1 then .charged b.step b.price b.increment b.cap b.stay
                        else if b.kind = 2 then .free
                        else .noStay }
                  let stored := Table.put profile (bands.map kept) profiles
                  exec (.profilePut tag plan profile bands) s
                    = .next
                        (answered 0x05 tag (accepted (.profileCount stored.length))
                          { s with plans := Table.put plan (.building stored) s.plans }))
      ∧ ∀ resident visitor business : Nat,
          (∀ r : Response,
              FirstFails
                  (planChecks plan s
                    ++ [((∀ profiles, Table.find? plan s.plans ≠ some (.building profiles)), refused .notBuilding)]) r →
                exec (.planClose tag plan resident visitor business) s = .next (answered 0x06 tag r s))
            ∧ ∀ profiles : Table (List Band), Table.find? plan s.plans = some (.building profiles) →
                (∀ r : Response, FirstFails (closeChecks plan resident visitor business profiles s) r →
                    exec (.planClose tag plan resident visitor business) s = .next (answered 0x06 tag r s))
                  ∧ (NoneFails (closeChecks plan resident visitor business profiles s) →
                    exec (.planClose tag plan resident visitor business) s
                      = .next
                          (answered 0x06 tag (accepted .empty)
                            { s with
                              plans :=
                                Table.put plan
                                  (.ready profiles { resident := resident, visitor := visitor, business := business })
                                  s.plans }))

/-- PLAN_ASSIGN: its checks in order, and then every listed terminal's plan fields and segment, with its boundary where it differs, in the
one mode that the zone time at acceptance decides (R13, R14, R27 to R29, R146, R148). -/
def Obligations.PlanAssignments : Prop :=
  ∀ (s : State) (tag plan : Nat) (switch : Option Nat) (slots : List Nat), OfficeFree s →
    (∀ r : Response, FirstFails (assignChecks plan switch slots s) r →
        exec (.planAssign tag plan switch slots) s = .next (answered 0x08 tag r s))
      ∧ (NoneFails (assignChecks plan switch slots s) →
        let ahead : Option Nat := switch.filter fun t => s.calendar.zoneTime < t
        let fields (f : PlanFields) : PlanFields :=
          match ahead with
          | some t => { f with pending := some (plan, t) }
          | none => { current := some plan, pending := none }
        ∃ u : State,
          exec (.planAssign tag plan switch slots) s
              = .next (answered 0x08 tag (accepted (.word (if ahead.isSome then .pending else .immediate))) u)
            ∧ Reacts
                { s with
                  terminals := s.terminals.map fun e =>
                    if e.1 ∈ slots then
                      (e.1,
                        Terminal.bounded s.calendar.zoneTime (segmentNow s (fields e.2.plans))
                          { e.2 with plans := fields e.2.plans })
                    else e } u)

/-! ## The Permit Register (chapter 5) -/

/-- PERMIT_PUT and PERMIT_REVOKE: the checks in order, the record that is left with the account and the hold of the one it replaces, and a
revoked record gone with its hold (R78 to R83; zone sets in ascending order: log entry 28). -/
def Obligations.PermitChanges : Prop :=
  ∀ (s : State) (tag number : Nat), OfficeFree s →
    (∀ (kind firstDay lastDay allowance standing : Nat) (zones : List Nat) (plate : Plate),
        let checks := permitPutChecks number kind firstDay lastDay allowance standing zones plate s
        let command : Instr := .permitPut tag number kind firstDay lastDay allowance standing zones plate
        let before := Table.find? number s.permits
        (∀ r : Response, FirstFails checks r → exec command s = .next (answered 0x0A tag r s))
          ∧ (NoneFails checks → ∃ p : Permit,
              permitKindOf kind = some p.kind ∧ p.plate = (if plate = [] then none else some plate) ∧ p.firstDay = firstDay
                ∧ p.lastDay = lastDay ∧ p.allowance = allowance ∧ p.suspended = decide (standing = 2)
                ∧ p.zones.Pairwise (· < ·) ∧ (∀ g : Nat, g ∈ p.zones ↔ g ∈ zones)
                ∧ p.consumed = (before.map (·.consumed)).getD 0 ∧ p.hold = before.bind (·.hold)
                ∧ exec command s
                    = .next
                        (answered 0x0A tag
                          (accepted
                            (.wordCount (if before.isSome then .replaced else .added) (Table.put number p s.permits).length))
                          { s with permits := Table.put number p s.permits })))
      ∧ (Table.find? number s.permits = none →
          exec (.permitRevoke tag number) s = .next (answered 0x0B tag (refused .notFound) s))
      ∧ ∀ p : Permit, Table.find? number s.permits = some p →
          exec (.permitRevoke tag number) s
            = .next
                (answered 0x0B tag (accepted (.revoked (p.hold.map fun h => (h.owner, h.quoteId))))
                  { s with permits := s.permits.filter fun e => e.1 ≠ number })

/-! ## The terminal table, the Fault Monitor and the Journal -/

/-- TERMINAL_PUT and TERMINAL_REMOVE: their checks in order, the record of a slot newly configured, what each changed field does, and a
removed slot EMPTY (R97, R113, R116, R138, R139, R163, R164; a new identity leaves miss count and link-lost deadline: log entry 33). -/
def Obligations.TerminalTableChanges : Prop :=
  ∀ (s : State) (tag slot : Nat), OfficeFree s →
    (∀ identity group capacity threshold : Nat,
        let c : TerminalConfig := { identity := identity, group := group, capacity := capacity, threshold := threshold }
        let command : Instr := .terminalPut tag slot identity group capacity threshold
        let now := s.calendar.zoneTime
        (∀ r : Response, FirstFails (terminalPutChecks slot c s) r → exec command s = .next (answered 0x0D tag r s))
          ∧ (NoneFails (terminalPutChecks slot c s) → terminal s slot = none → ∃ u : State,
            exec command s = .next (answered 0x0D tag (accepted (.word .configured)) u)
              ∧ Reacts
                  { s with
                    terminals :=
                      Table.put slot
                        { config := c
                          link :=
                            { state := .absent, level := none, caps := none, misses := 0, barExpiry := none,
                              lostDeadline := some (s.calendar.uptime + 60), queue := [], timeOwed := false }
                          plans := { current := none, pending := none }
                          segment := none, quote := .none, nextQuoteId := 1, closed := none
                          cash := { tally := .zero, accepted := .zero, collected := .zero, cardTotal := 0, lastCut := now }
                          watch :=
                            { faults := clearFaults now
                              filtered := { paperLow := false, paperOut := false, coinJam := false, cardFault := false }
                              lastReports := none, power := .ok, lastPower := none, clearRun := 0, door := .closed
                              service := .outOfService, silence := 0, estimate := none } }
                        s.terminals } u)
          ∧ (NoneFails (terminalPutChecks slot c s) → ∀ x : Terminal, terminal s slot = some x → ∃ u : State,
            exec command s = .next (answered 0x0D tag (accepted (.word .updated)) u)
              ∧ Reacts
                  (let v := onTerminal slot
                    (fun y =>
                      let y := { y with config := c }
                      if identity = x.config.identity then y
                      else { y with link := { y.link with state := .absent, level := none, caps := none } }) s
                  if capacity = x.config.capacity then v
                  else reportFault slot .boxFull (decide (capacity ≤ x.cash.tally.total)) v) u))
      ∧ (terminal s slot = none → ∀ r : Response, FirstFails (slotChecks slot s) r →
          exec (.terminalRemove tag slot) s = .next (answered 0x0E tag r s))
      ∧ ∀ x : Terminal, terminal s slot = some x →
          (∀ r : Response, FirstFails (terminalRemoveChecks slot x s) r →
              exec (.terminalRemove tag slot) s = .next (answered 0x0E tag r s))
            ∧ (NoneFails (terminalRemoveChecks slot x s) → ∃ u : State,
              exec (.terminalRemove tag slot) s
                  = .next
                      (answered 0x0E tag
                        (accepted (.removed x.cash.accepted x.cash.collected x.cash.cardTotal)) u)
                ∧ Reacts { s with terminals := s.terminals.filter fun e => e.1 ≠ slot } u)

/-- FAULT_ACK from either port: its checks in order; ACTIVE goes to HELD and LATCHED to CLEAR at the present zone time, CLEAR and HELD are
answered ALREADY (R116, R117, R119, R175). -/
def Obligations.FaultAcksMoveFaults : Prop :=
  ∀ (src : Source) (slot fault : Nat) (s : State), SourceFree src s →
    (∀ r : Response, FirstFails (slotChecks slot s ++ [((faultKindOf fault).isNone = true, refused .badFault)]) r →
        exec (.faultAck src slot fault) s = .next (answeredTo src 0x14 r s))
      ∧ ∀ (x : Terminal) (k : FaultKind), 1 ≤ slot → slot ≤ 24 → terminal s slot = some x → faultKindOf fault = some k →
          let before := (x.watch.faults.get k).state
          let after : FaultState := if before = .active then .held else .clear
          (before = .clear ∨ before = .held →
              exec (.faultAck src slot fault) s
                = .next (answeredTo src 0x14 { code := .already, body := .faultState before } s))
            ∧ (before = .active ∨ before = .latched → ∃ u : State,
              exec (.faultAck src slot fault) s = .next (answeredTo src 0x14 (accepted (.faultState after)) u)
                ∧ Reacts
                    (onTerminal slot (Terminal.onFault k fun _ => { state := after, changed := s.calendar.zoneTime }) s) u)

/-- JOURNAL_ACK: the record of the number and all before it go, and owed cover records follow where the free space was 0; a number not in
the queue is judged by its place behind the next number (R131, R158, R160; a number never issued: log entry 15; owed records
before service states: log entry 7). -/
def Obligations.JournalAcksRemoveRecords : Prop :=
  ∀ (s : State) (tag sequence : Nat), OfficeFree s →
    let figures (u : State) : JournalFigures :=
      { used := u.journal.records.length, reserved := u.journal.reservation,
        free := 1024 - u.journal.records.length - u.journal.reservation }
    (∀ (before after : List Record) (r : Record), s.journal.records = before ++ r :: after → r.sequence = sequence →
        (∀ b ∈ before, b.sequence ≠ sequence) → TablesOrdered s → ∃ u : State,
          let drained : State := { s with journal := { s.journal with records := after } }
          exec (.journalAck tag sequence) s
              = .next (answered 0x17 tag (accepted (.acked (before.length + 1) (figures u))) u)
            ∧ Reacts (if freeSpace s = 0 then withOwed drained else drained) u)
      ∧ ((∀ r ∈ s.journal.records, r.sequence ≠ sequence) →
        let next := s.journal.nextSequence
        let behind := if sequence < next then next - sequence else next + 4294967295 - sequence
        exec (.journalAck tag sequence) s
          = .next
              (answered 0x17 tag
                (if 1 ≤ sequence ∧ sequence ≤ 4294967295 ∧ behind ≤ 2147483648 then accepted (.acked 0 (figures s))
                else { code := .badSequence, body := .ackRefused (figures s) }) s))

/-! ## Cash (chapter 6) -/

/-- COUNT_RESULT: its checks in order; RECONCILED is appended, the record leaves the list, and SHORT raises CASH_SHORT with FAULT set (R110,
R111, R117, R165; the counted counts alone are recorded: log entry 37, a raise of a LATCHED fault moves its time: log entry 40). -/
def Obligations.CountsReconcile : Prop :=
  ∀ (s : State) (tag number : Nat) (counted : Six), OfficeFree s →
    (∀ r : Response,
        FirstFails
            [(∀ c ∈ s.cash.collections, c.number ≠ number, refused .notFound), (freeSpace s = 0, refused .journalFull)] r →
          exec (.countResult tag number counted) s = .next (answered 0x12 tag r s))
      ∧ ∀ c : Collection, collectionOf number s = some c → freeSpace s ≠ 0 →
          let v := counted.value s.cash.denominations
          let d : Int := (v : Int) - c.value
          let outcome : Balance :=
            if d < -(s.cash.tolerance : Int) then .short else if (s.cash.tolerance : Int) < d then .over else .balanced
          ∃ u : State,
            exec (.countResult tag number counted) s
                = .next (answered 0x12 tag (accepted (.reconciled outcome c.value v d)) u)
              ∧ Reacts
                  (let noted := shown (recorded (.reconciled number counted c.value v d outcome) s)
                  let w : State :=
                    { noted with
                      cash := { s.cash with collections := s.cash.collections.filter fun x => x.number ≠ number } }
                  if outcome = .short then raiseFault c.slot .cashShort w else w) u

/-- The round list: every due box once, for its first reason, ordered by reason, then falling fill, then slot (R97, R98). -/
def Obligations.RoundListOrder : Prop :=
  ∀ s : State, Table.wf s.terminals = true →
    (roundList s).Pairwise (fun a b =>
        a.reason.rank < b.reason.rank
          ∨ (a.reason = b.reason ∧ (b.fill < a.fill ∨ (a.fill = b.fill ∧ a.slot < b.slot))))
      ∧ ∀ x : RoundEntry, x ∈ roundList s ↔
          ∃ t : Terminal, terminal s x.slot = some t ∧ x.state = .pending
            ∧ x.fill = t.cash.tally.total * 100 / t.config.capacity
            ∧ (0 < t.cash.tally.total ∨ t.watch.filtered.coinJam = true)
            ∧ ((x.reason = .full ∧ t.config.capacity ≤ t.cash.tally.total)
              ∨ (x.reason = .jam ∧ t.cash.tally.total < t.config.capacity ∧ t.watch.filtered.coinJam = true)
              ∨ (x.reason = .due ∧ t.cash.tally.total < t.config.capacity ∧ t.watch.filtered.coinJam = false
                ∧ t.config.threshold ≤ x.fill))

/-- ROUND_START of a collector: its checks in order, and the round opened over the list with its reservation, its deadline and ROUND
(R98, R100, R101, R157). -/
def Obligations.RoundStartsOpen : Prop :=
  ∀ (s : State) (identity tag : Nat) (e : RosterEntry), LinkFree identity e s → e.role = .collector →
    (∀ r : Response, FirstFails (roundChecks s) r →
        exec (.roundStart identity tag) s = .next (serviceAnswered identity 0x43 tag r s))
      ∧ (NoneFails (roundChecks s) → ∃ u : State,
        exec (.roundStart identity tag) s
            = .next (serviceAnswered identity 0x43 tag (accepted (.roundOpened s.cash.nextRound (roundList s))) u)
          ∧ Reacts
              (let noted := shown { s with journal := { s.journal with reservation := (roundList s).length + 1 } }
              { noted with
                attention := { noted.attention with flags := { noted.attention.flags with round := true } }
                cash :=
                  { s.cash with
                    round :=
                      some
                        { number := s.cash.nextRound, collector := identity, key := e.key.getD 0,
                          start := s.calendar.zoneTime, entries := roundList s }
                    nextRound := if 65535 ≤ s.cash.nextRound then 1 else s.cash.nextRound + 1 }
                calendar := { s.calendar with deadline := some (s.calendar.zoneTime + 28800) } }) u)

/-- ROUND_END of a collector or an engineer, and ROUND_AUTO_CLOSE (R11, R105 to R107, R131): who may close, and the round closed, with the
owed cover records where the free space was 0 (before service states: log entry 7); a ROUND_AUTO_CLOSE that is not due changes nothing
(log entry 2). -/
def Obligations.RoundsClose : Prop :=
  ∀ s : State, TablesOrdered s →
    (s.supply.part = .running →
        (∀ (r : Round) (d : Nat), s.cash.round = some r → s.calendar.deadline = some d → d ≤ s.calendar.zoneTime →
            ∃ t : State, exec .roundAutoClose s = .next t ∧ Reacts (roundClosed r s) t)
          ∧ ((∀ d ∈ s.calendar.deadline, s.calendar.zoneTime < d) → exec .roundAutoClose s = .next s))
      ∧ ∀ (identity tag : Nat) (e : RosterEntry), LinkFree identity e s → e.role ≠ .officer →
          (s.cash.round = none →
              exec (.roundEnd identity tag) s = .next (serviceAnswered identity 0x45 tag (refused .noRound) s))
            ∧ ∀ r : Round, s.cash.round = some r →
                (e.role = .collector → identity ≠ r.collector →
                    exec (.roundEnd identity tag) s
                      = .next (serviceAnswered identity 0x45 tag (refused .notYours) s))
                  ∧ (e.role = .engineer ∨ identity = r.collector → ∃ u : State,
                    exec (.roundEnd identity tag) s
                        = .next (serviceAnswered identity 0x45 tag (accepted (.roundEnded r.number (atClose r))) u)
                      ∧ Reacts (roundClosed r s) u)

/-! ## The kerb line (chapter 8) -/

/-- How a cycle goes on after a window, from its start, and after the line falls quiet (R135, R145, R151): the next NORMAL CALL,
then the SLOW CALLs of every sixteenth cycle, then the SEEK of every eighth; the head of the queue rides. The frame is sent in the step
that ends the window (log entry 9) and stands in the model's record of its output (log entry 20); a CYCLE_START while the line is not
idle changes nothing (log entry 2). -/
def Obligations.CyclesGoOn : Prop :=
  ∀ s : State, Table.wf s.terminals = true →
    let call (slot : Nat) (kind : CallKind) (t : Terminal) : State :=
      let notice := t.link.queue.head?.map (·.body)
      { s with
        line := { s.line with mode := .window slot kind t.link.state notice, out := [.call slot kind notice], ended := none }
        terminals :=
          Table.modify slot (fun y => { y with link := { y.link with queue := markHead y.link.queue } }) s.terminals }
    let closing : State :=
      if s.line.cycle % 8 = 0 then
        { s with line := { s.line with mode := .reply 1 false [] [], out := [.seek s.line.cycle], ended := none } }
      else { s with line := { s.line with mode := .idle, out := [], ended := none } }
    (∀ slot n : Nat, ∀ t : Terminal,
        (CalledNext slot .normal s n t → afterWindow slot .normal s = call n .normal t)
          ∧ (NoneCalled slot .normal s → s.line.cycle % 16 = 4 → CalledNext 0 .slow s n t →
              afterWindow slot .normal s = call n .slow t)
          ∧ (s.line.cycle % 16 = 4 → CalledNext slot .slow s n t → afterWindow slot .slow s = call n .slow t))
      ∧ (∀ slot : Nat,
          (NoneCalled slot .normal s → (s.line.cycle % 16 ≠ 4 ∨ NoneCalled 0 .slow s) → afterWindow slot .normal s = closing)
            ∧ ((s.line.cycle % 16 ≠ 4 ∨ NoneCalled slot .slow s) → afterWindow slot .slow s = closing))
      ∧ (s.supply.part = .running →
          (s.line.mode = .idle →
              exec .cycleStart s
                = .next (afterWindow 0 .normal { s with line := { s.line with cycle := (s.line.cycle + 1) % 65536 } }))
            ∧ (s.line.mode ≠ .idle → exec .cycleStart s = .next s)
            ∧ ∀ (slot : Nat) (kind : CallKind), s.line.mode = .quiet slot kind →
                exec .lineFallsQuiet s = .next (afterWindow slot kind s))

/-- A valid ANSWER (R136, R144, R147, R149, R152, R153): the notice that rode goes, then the link state changes, then the Fault Monitor
takes the status word, whatever it says, then the request is handed on (the order of a RESET with the status word: log entry 11). From
an ACTIVE slot SLEEP delivered makes it SLEEPING; a SLEEPING slot wakes, its WAKE withdrawn, or sleeps on; a GRANTED slot becomes ACTIVE
by the right ACCEPT, with the TIME owed, and ABSENT otherwise; RESET delivered makes the slot ABSENT and discards the request. A slot
that becomes ACTIVE is considered for sleep (R146); one that falls asleep loses a SLEEP still waiting (log entry 36). The answer of a slot
that has left the called states since its call, or was removed, is discarded whole, and the cycle goes on. What an ACCEPT sets off follows
its status word, which meets an ACTIVE slot (log entry 45). -/
def Obligations.AnswersAreTaken : Prop :=
  (∀ (s : State) (slot : Nat) (kind : CallKind) (calledAs : LinkState) (rode : Option NoticeBody) (head : AnswerHead) (w : StatusWord)
      (c : Instr), s.supply.part = .running → s.line.mode = .window slot kind calledAs rode → Answers head slot w → CarriesAnswer head c →
      (∀ x ∈ terminal s slot, x.link.state ≠ .granted ∧ x.link.state ≠ .active ∧ x.link.state ≠ .sleeping) →
        exec c s = .next (lineGoesOn slot kind s))
    ∧ ∀ (s : State) (slot : Nat) (kind : CallKind) (rode : Option NoticeBody) (x : Terminal) (head : AnswerHead)
        (w : StatusWord), InWindow slot kind rode x s → Answers head slot w →
      let got := gotAnswer slot s
      let linked (f : Link → Link) : State := onTerminal slot (fun y => { y with link := f y.link }) got
      let goesOn (c : Instr) (u : State) : Prop := exec c s = .next (lineGoesOn slot kind u)
      let handsOn (u : State) : Prop :=
        let heard := takeStatus slot w u
        (∀ (k amount permit : Nat) (plate : Plate),
            goesOn (.quote head k amount permit plate) (takeQuote slot k amount permit plate heard))
          ∧ (∀ (quoteId : Nat) (coins : Six) (card : Nat),
            goesOn (.confirm head quoteId coins card) (takeConfirm slot quoteId coins card heard))
          ∧ goesOn (.cancel head) (endQuote slot heard)
          ∧ goesOn (.wakeReq head) heard ∧ ∀ level : Nat, goesOn (.accept head level) heard
      (x.link.state = .active → rode ≠ some .reset →
          ((rode ≠ some .sleep ∨ w.door ≠ .closed) → goesOn (.answer head) (takeStatus slot w got))
            ∧ (rode = some .sleep → w.door = .closed → ∃ u : State,
                goesOn (.answer head) (takeStatus slot w u)
                  ∧ Reacts
                      (linked fun l =>
                        { l with state := .sleeping, misses := 0, queue := l.queue.filter fun n => n.body ≠ .sleep }) u)
            ∧ handsOn got)
        ∧ (x.link.state = .sleeping → rode ≠ some .reset →
            let woken := wakeSlot slot got
            (rode ≠ some .wake → head.asleep = true → goesOn (.answer head) (takeStatus slot w got))
              ∧ (rode = some .wake ∨ head.asleep = false → goesOn (.answer head) (takeStatus slot w woken))
              ∧ handsOn woken
              ∧ Reacts
                  (onTerminal slot (Terminal.considered s.calendar.zoneTime)
                    (linked fun l => { l with state := .active, queue := l.queue.filter fun n => n.body ≠ .wake })) woken)
        ∧ (x.link.state = .granted → ∀ level : Nat, x.link.level = some level → ∃ u : State,
            goesOn (.accept head level) u
              ∧ Reacts
                  (onTerminal slot
                    (fun y =>
                      let timed :=
                        if x.link.timeOwed then
                          y.told NoticeBody.isTime (.time s.calendar.zoneTime s.calendar.offset s.calendar.clockSet)
                        else y
                      timed.considered s.calendar.zoneTime)
                    (takeStatus slot w (linked fun l => { l with state := .active, timeOwed := false }))) u)
        ∧ ∀ c : Instr, CarriesAnswer head c →
            ((x.link.state = .granted ∧ ∀ level : Nat, x.link.level = some level → c ≠ .accept head level)
                ∨ ((x.link.state = .active ∨ x.link.state = .sleeping) ∧ rode = some .reset) →
              ∃ u : State, goesOn c (takeStatus slot w u)
                ∧ Reacts (quoteEnded slot (linked (Link.gone s.calendar.uptime))) u)

/-- What the Fault Monitor makes of a status word, in whatever answer and state it comes (R116, R118, R121, R122): a report that stands in
two words is taken and moves its condition, so is the power class, and POWER_CRITICAL rises at once and ends after ten words without it,
the clear run then at 0 again (log entry 8); an entry to ACTIVE sets FAULT. A word that says what is held changes the last reported
values alone. The door, where it differs, is taken after the rest. -/
def Obligations.StatusWordsAreFiltered : Prop :=
  ∀ (s : State) (slot : Nat) (x : Terminal) (w : StatusWord), terminal s slot = some x →
    let now := s.calendar.zoneTime
    let takes (k : ReportKind) : Prop := x.watch.lastReports.map (·.get k) = some (w.reports.get k)
    takeStatus slot w s = takeDoor slot w.door (takeStatus slot { w with door := x.watch.door } s)
      ∧ (w.reports = x.watch.filtered → w.power = x.watch.power → w.power ≠ .critical →
        x.watch.faults.present .powerCritical = false → (w.door = .closed ↔ x.watch.door = .closed) →
          takeStatus slot w s
            = onTerminal slot
                (fun y => { y with watch := { y.watch with lastReports := some w.reports, lastPower := some w.power } }) s)
      ∧ ((w.door = .closed ↔ x.watch.door = .closed) → ∃ y : Watch,
        let rose : Bool := faultKinds.any fun k => !x.watch.faults.present k && y.faults.present k
        let u := onTerminal slot (fun z => { z with watch := y }) s
        Reacts (if rose then faultSet u else u) (takeStatus slot w s)
          ∧ y.lastReports = some w.reports ∧ y.lastPower = some w.power ∧ y.door = x.watch.door
          ∧ y.service = x.watch.service ∧ y.silence = x.watch.silence ∧ y.estimate = x.watch.estimate
          ∧ (∀ k : ReportKind,
              (takes k → y.filtered.get k = w.reports.get k)
                ∧ (¬takes k → y.filtered.get k = x.watch.filtered.get k)
                ∧ (y.filtered.get k = x.watch.filtered.get k → y.faults.get k.fault = x.watch.faults.get k.fault)
                ∧ (y.filtered.get k ≠ x.watch.filtered.get k →
                    y.faults.get k.fault = (x.watch.faults.get k.fault).reported (y.filtered.get k) now))
          ∧ y.power = (if x.watch.lastPower = some w.power then w.power else x.watch.power)
          ∧ y.faults.powerLow
              = (if y.power = x.watch.power then x.watch.faults.powerLow
                else x.watch.faults.powerLow.reported (decide (y.power = .low)) now)
          ∧ (w.power = .critical → y.clearRun = 0 ∧ y.faults.powerCritical = x.watch.faults.powerCritical.reported true now)
          ∧ (w.power ≠ .critical → x.watch.faults.powerCritical.state.present = true → x.watch.clearRun < 9 →
              y.clearRun = x.watch.clearRun + 1 ∧ y.faults.powerCritical = x.watch.faults.powerCritical)
          ∧ (w.power ≠ .critical → x.watch.faults.powerCritical.state.present = true → 9 ≤ x.watch.clearRun →
              y.clearRun = 0 ∧ y.faults.powerCritical = x.watch.faults.powerCritical.reported false now)
          ∧ (w.power ≠ .critical → x.watch.faults.powerCritical.state.present = false →
              y.clearRun = x.watch.clearRun ∧ y.faults.powerCritical = x.watch.faults.powerCritical)
          ∧ ∀ k ∈ [FaultKind.linkLost, .jabber, .boxFull, .doorForced, .doorUnscheduled, .silent, .cashShort],
              y.faults.get k = x.watch.faults.get k)

/-- What the Fault Monitor makes of the door of a status word, in whatever answer and state it comes (R65, R102, R104, R108, R116, R117,
R123, R146): the same state changes nothing; an opening ends a quote in progress and withdraws SLEEP, with no key it raises DOOR_FORCED,
with the key of the open round it cuts a PENDING entry's tally, and a collector's key anywhere else raises DOOR_UNSCHEDULED; a closing
ends DOOR_FORCED, and the slot is considered for sleep. The collection-number counter goes on to the first number after the one taken
that no record holds (a raise of a LATCHED fault moves its time: log entry 40). -/
def Obligations.DoorsAreTaken : Prop :=
  (∀ (s : State) (slot : Nat) (x : Terminal) (reported : Door), terminal s slot = some x →
    let now := s.calendar.zoneTime
    let doored (d : Door) : State := onTerminal slot (fun y => { y with watch := { y.watch with door := d } }) s
    let opened (key : DoorKey) : State :=
      quoteEnded slot (onTerminal slot (Terminal.without NoticeBody.isSleep) (doored (.opened key)))
    ((reported = .closed ↔ x.watch.door = .closed) → takeDoor slot reported s = s)
      ∧ (∀ key : DoorKey, x.watch.door = .opened key → reported = .closed →
          Reacts (onTerminal slot (Terminal.considered now) (reportFault slot .doorForced false (doored .closed)))
            (takeDoor slot reported s))
      ∧ (x.watch.door = .closed → reported = .opened .engineer → Reacts (opened .engineer) (takeDoor slot reported s))
      ∧ (x.watch.door = .closed → reported = .opened .none →
          Reacts (reportFault slot .doorForced true (opened .none)) (takeDoor slot reported s))
      ∧ ∀ key : Nat, x.watch.door = .closed → reported = .opened (.collector key) →
          let u := opened (.collector key)
          ((∀ r ∈ s.cash.round, slot ∉ r.entries.map (·.slot) ∨ key ≠ r.key) →
              Reacts (raiseFault slot .doorUnscheduled u) (takeDoor slot reported s))
            ∧ ∀ (r : Round) (e : RoundEntry), s.cash.round = some r → key = r.key →
                (r.entries.find? fun y => y.slot = slot) = some e →
                  (e.state ≠ .pending → Reacts u (takeDoor slot reported s))
                    ∧ (e.state = .pending →
                      let record : Collection :=
                        { number := s.cash.nextCollection, slot := slot, key := key, periodStart := x.cash.lastCut,
                          periodEnd := now, expected := x.cash.tally, value := x.cash.tally.value s.cash.denominations }
                      let collected : State :=
                        { u with
                          cash :=
                            { s.cash with
                              collections := s.cash.collections ++ [record]
                              nextCollection := advanceCollection (s.cash.collections ++ [record]) s.cash.nextCollection
                              round :=
                                some
                                  { r with
                                    entries := r.entries.map fun y =>
                                      if y.slot = slot then { y with state := .visited } else y } }
                          journal := { s.journal with reservation := s.journal.reservation - 1 } }
                      Reacts
                        (reportFault slot .boxFull false
                          (onTerminal slot
                            (fun y =>
                              { y with
                                cash :=
                                  { y.cash with
                                    collected := y.cash.collected.add y.cash.tally, tally := .zero, lastCut := now } })
                            (shown (recorded (.collection record) collected))))
                        (takeDoor slot reported s)))
    ∧ ∀ (records : List Collection) (n : Nat), records.length ≤ 65 →
        let after (k : Nat) : Nat := (fun v => if 65535 ≤ v then 1 else v + 1)^[k + 1] n
        ∃ k : Nat, advanceCollection records n = after k ∧ after k ∉ records.map (·.number)
          ∧ ∀ j : Nat, j < k → after j ∈ records.map (·.number)

/-- Misses and jabbers (R136, R137, R139, R145): a miss counts, the third makes the slot LOST, the first of a GRANTED slot makes
it ABSENT; a malformed status word or a wrong slot is a miss (log entry 9), a miss of a slot no longer called changes nothing (log
entry 12). A jabber bars the called slot for 60 seconds, raises JABBER, and the part waits for quiet: within the answer window, or after
it, while the line is still held, where the next frame is not sent after all (log entry 34). Anywhere else it bars no slot (R140, log
entry 10). That a jabber adds nothing to the miss count, and the barred slot keeps the count it had, is the model's choice (log entry
43). -/
def Obligations.MissesAndJabbers : Prop :=
  let barred (slot : Nat) (kind : CallKind) (s : State) : State :=
    reportFault slot .jabber true
      (quoteEnded slot
        (onTerminal slot
          (fun y =>
            { y with
              link :=
                { y.link with
                  state := .barred
                  barExpiry := some (s.calendar.uptime + 60)
                  lostDeadline := if y.link.state.called then some (s.calendar.uptime + 60) else y.link.lostDeadline
                  queue := []
                  timeOwed := false } })
          { s with line := { s.line with mode := .quiet slot kind, out := [], ended := none } }))
  (∀ (s : State) (slot : Nat) (kind : CallKind) (calledAs : LinkState) (rode : Option NoticeBody),
    s.supply.part = .running → s.line.mode = .window slot kind calledAs rode →
      let goesOn (u : State) : Prop := exec .miss s = .next (lineGoesOn slot kind u)
      (∀ (head : AnswerHead) (c : Instr), CarriesAnswer head c → (readStatus head.status = none ∨ head.slot ≠ slot) →
          exec c s = exec .miss s)
        ∧ (terminal s slot = none → goesOn s)
        ∧ (∃ t : State, exec .jabber s = .next t ∧ Reacts (barred slot kind s) t)
        ∧ ∀ x : Terminal, terminal s slot = some x →
            (x.link.state.called = false → goesOn s)
              ∧ (x.link.state.called = true → calledAs ≠ .granted → x.link.misses < 2 →
                goesOn
                  (onTerminal slot
                    (fun y =>
                      { y with
                        link :=
                          { y.link with
                            misses := y.link.misses + 1
                            queue := y.link.queue.map fun n => { n with rode := false } } }) s))
              ∧ (x.link.state.called = true → calledAs ≠ .granted → 2 ≤ x.link.misses → ∃ u : State,
                goesOn u
                  ∧ Reacts
                      (quoteEnded slot
                        (onTerminal slot
                          (fun y =>
                            { y with
                              link :=
                                { Link.gone s.calendar.uptime y.link with
                                  state := .lost, level := y.link.level, caps := y.link.caps } }) s)) u)
              ∧ (x.link.state.called = true → calledAs = .granted → ∃ u : State,
                goesOn u
                  ∧ Reacts
                      (quoteEnded slot
                        (onTerminal slot (fun y => { y with link := Link.gone s.calendar.uptime y.link }) s)) u))
    ∧ ∀ s : State, s.supply.part = .running →
        ((∀ (slot : Nat) (kind : CallKind) (calledAs : LinkState) (rode : Option NoticeBody),
            s.line.mode ≠ .window slot kind calledAs rode) → exec .jabber s = .next s)
          ∧ (s.line.ended = none → exec .jabberLate s = .next s)
          ∧ ∀ (slot : Nat) (kind : CallKind), s.line.ended = some (slot, kind) → ∃ t : State,
              let unsent : State :=
                match s.line.mode with
                | .window next _ _ _ =>
                  onTerminal next
                    (fun y => { y with link := { y.link with queue := y.link.queue.map fun n => { n with rode := false } } }) s
                | _ => s
              exec .jabberLate s = .next t ∧ Reacts (barred slot kind unsent) t

/-- OFFERs and the GRANTs they earn (R140 to R143): what is taken in a reply window, and after the fourth window what a GRANT does
to the slot as it then stands (one OFFER a window: log entry 19; an unknown identity recorded, and the OFFER of a BARRED slot discarded,
as the OFFER is taken: log entry 32; unread bits of the capability byte: log entry 30). -/
def Obligations.OffersEarnGrants : Prop :=
  ∀ (s : State) (number : Nat) (taken : Bool) (offered : List Nat) (earned : List EarnedOffer), s.supply.part = .running →
    s.line.mode = .reply number taken offered earned →
      (∀ (identity : Nat) (form : OfferForm),
          let withMode (m : LineMode) : State := { s with line := { s.line with mode := m, ended := none } }
          let valid : Prop := ∀ (caps : Byte) (level : Nat), form = .full caps level → 1 ≤ level ∧ level ≤ 15
          (¬valid ∨ taken = true ∨ identity ∈ offered → exec (.offer identity form) s = .next s)
            ∧ (valid → taken = false → identity ∉ offered →
              ((∀ e ∈ s.terminals, e.2.config.identity ≠ identity) →
                  exec (.offer identity form) s
                    = .next
                        { s with
                          line :=
                            { s.line with
                              mode := .reply number true (identity :: offered) earned, lastUnknown := some identity
                              ended := none }
                          attention :=
                            { s.attention with flags := { s.attention.flags with unknownTerminal := true } } })
                ∧ ∀ e ∈ s.terminals, e.2.config.identity = identity →
                    (∀ y ∈ s.terminals, y.2.config.identity = identity → y = e) →
                      exec (.offer identity form) s
                        = .next
                            (withMode
                              (.reply number true (identity :: offered)
                                (if e.2.link.state = .barred then earned
                                else earned ++ [{ identity := identity, slot := e.1, form := form }])))))
        ∧ (number < 4 →
            exec .replyWindowEnd s
              = .next
                  { s with line := { s.line with mode := .reply (number + 1) false offered earned, out := [], ended := none } })
        ∧ (4 ≤ number →
            let granted :=
              earned.foldl (fun u o => sendGrant o u) { s with line := { s.line with out := [], ended := none } }
            exec .replyWindowEnd s = .next { granted with line := { granted.line with mode := .idle } })
        ∧ exec .jabber s = .next s
        ∧ ∀ o : EarnedOffer,
            (terminal s o.slot = none → sendGrant o s = s)
              ∧ ∀ x : Terminal, terminal s o.slot = some x →
                  (x.config.identity ≠ o.identity ∨ x.link.state = .barred → sendGrant o s = s)
                    ∧ (x.config.identity = o.identity → x.link.state ≠ .barred →
                      let terms : Caps × Nat :=
                        match o.form with
                        | .legacy => (⟨true, false, false, false, false⟩, 1)
                        | .full caps level =>
                          let set : Caps :=
                            ⟨caps.getLsbD 0, caps.getLsbD 1, caps.getLsbD 2, caps.getLsbD 3, caps.getLsbD 4⟩
                          (set, if set.permitEntry = true ∧ set.plateEntry = true then min level 3 else min level 2)
                      Reacts
                        (reportFault o.slot .linkLost false
                          (quoteEnded o.slot
                            (onTerminal o.slot
                              (fun y =>
                                { y with
                                  link :=
                                    { state := .granted, level := some terms.2, caps := some terms.1, misses := 0,
                                      barExpiry := none, lostDeadline := none, queue := [], timeOwed := false }
                                  watch := { y.watch with lastReports := none, lastPower := none } })
                              { s with
                                line :=
                                  { s.line with
                                    out := s.line.out ++
                                      [.grant o.identity o.slot terms.2 s.calendar.zoneTime s.calendar.offset
                                        s.calendar.clockSet] } })))
                        (sendGrant o s))

/-- LINE_RESTART of an engineer, by the slot's link state (R153). -/
def Obligations.LineRestarts : Prop :=
  ∀ (s : State) (identity tag slot : Nat) (e : RosterEntry), LinkFree identity e s → e.role = .engineer →
    (∀ r : Response, FirstFails (slotChecks slot s) r →
        exec (.lineRestart identity tag slot) s = .next (serviceAnswered identity 0x47 tag r s))
      ∧ ∀ x : Terminal, 1 ≤ slot → slot ≤ 24 → terminal s slot = some x →
          let ended (f : Link → Link) : State :=
            quoteEnded slot (onTerminal slot (fun y => { y with link := f y.link }) s)
          (x.link.state = .active ∨ x.link.state = .sleeping →
              exec (.lineRestart identity tag slot) s
                = .next
                    (serviceAnswered identity 0x47 tag (accepted (.word .queued))
                      (onTerminal slot
                        (fun y =>
                          { y with
                            link :=
                              { y.link with
                                queue :=
                                  if holds NoticeBody.isReset y.link.queue then y.link.queue
                                  else [{ body := .reset, rode := false }] } }) s)))
            ∧ (x.link.state = .granted ∨ x.link.state = .lost ∨ x.link.state = .absent → ∃ u : State,
              exec (.lineRestart identity tag slot) s
                  = .next (serviceAnswered identity 0x47 tag (accepted (.word .done)) u)
                ∧ Reacts
                    (ended fun l =>
                      { Link.gone s.calendar.uptime l with
                        lostDeadline :=
                          if l.state = .granted then some (s.calendar.uptime + 60) else l.lostDeadline }) u)
            ∧ (x.link.state = .barred → ∃ u : State,
              exec (.lineRestart identity tag slot) s
                  = .next (serviceAnswered identity 0x47 tag (accepted (.word .done)) u)
                ∧ Reacts
                    (reportFault slot .jabber false
                      (ended fun l => { Link.gone s.calendar.uptime l with lostDeadline := l.lostDeadline })) u)

/-- The deadlines on uptime of a slot: LINK_LOST_DEADLINE (R139), BAR_EXPIRY (R145), QUOTE_EXPIRY (R63, R90, R146) and SILENT (R128),
each where it is due, a fault that enters ACTIVE with FAULT set (R116); one that is not due changes nothing (log entry 2). -/
def Obligations.UptimeDeadlines : Prop :=
  ∀ (s : State) (slot : Nat), s.supply.part = .running →
    (terminal s slot = none →
        exec (.linkLostDeadline slot) s = .next s ∧ exec (.barExpiry slot) s = .next s ∧ exec (.quoteExpiry slot) s = .next s
          ∧ exec (.silent slot) s = .next s)
      ∧ ∀ x : Terminal, terminal s slot = some x →
          let limit : Nat :=
            match x.watch.estimate with
            | none => 1800
            | some e => min 14400 (max 1800 (4 * e))
          ((∀ d ∈ x.link.lostDeadline, s.calendar.uptime < d) → exec (.linkLostDeadline slot) s = .next s)
            ∧ (∀ d ∈ x.link.lostDeadline, d ≤ s.calendar.uptime → ∃ t : State, exec (.linkLostDeadline slot) s = .next t
                ∧ Reacts
                    (reportFault slot .linkLost true
                      (onTerminal slot (fun y => { y with link := { y.link with lostDeadline := none } }) s)) t)
            ∧ ((x.link.state ≠ .barred ∨ ∀ d ∈ x.link.barExpiry, s.calendar.uptime < d) →
                exec (.barExpiry slot) s = .next s)
            ∧ (∀ d ∈ x.link.barExpiry, x.link.state = .barred → d ≤ s.calendar.uptime → ∃ t : State,
                exec (.barExpiry slot) s = .next t
                  ∧ Reacts
                      (reportFault slot .jabber false
                        (quoteEnded slot
                          (onTerminal slot
                            (fun y =>
                              { y with
                                link := { Link.gone s.calendar.uptime y.link with lostDeadline := y.link.lostDeadline } })
                            s))) t)
            ∧ ((∀ q : OpenQuote, x.quote = .opened q → s.calendar.uptime < q.validUntil) →
                exec (.quoteExpiry slot) s = .next s)
            ∧ (∀ q : OpenQuote, x.quote = .opened q → q.validUntil ≤ s.calendar.uptime → ∃ t : State,
                exec (.quoteExpiry slot) s = .next t
                  ∧ Reacts
                      (onTerminal slot
                        (fun y =>
                          Terminal.considered s.calendar.zoneTime
                            (Terminal.without (NoticeBody.isResultOf q.quoteId)
                              { y with quote := .none, closed := some (.expired q.quoteId) }))
                        { s with permits := released slot q s.permits }) t)
            ∧ (x.watch.silence ≤ limit → exec (.silent slot) s = .next s)
            ∧ (limit < x.watch.silence → ∃ t : State, exec (.silent slot) s = .next t
                ∧ Reacts (reportFault slot .silent true s) t)

/-! ## Quotes and sales (chapters 3 to 5) -/

/-- QUOTE from a terminal that is ACTIVE, or wakes by it, once its status word is taken (R35 to R37, R40, R55 to R57, R62, R85, R146): its
checks in order say a code with quote id 0; one that passes takes its id and its t0, replaces the quote before it, and waits in the walk
queue or begins its walk. A walk that begins takes as a0 the remaining allowance, and 0 where the permit has no record or is SUSPENDED
(R79, R86). -/
def Obligations.QuotesAreTaken : Prop :=
  ∀ (s : State) (slot : Nat) (rode : Option NoticeBody) (x : Terminal) (call : CallKind) (head : AnswerHead)
    (w : StatusWord) (kind amount permit : Nat) (plate : Plate) (h : State) (z : Terminal), InWindow slot call rode x s →
      Answers head slot w → HandsOn slot rode x w s h z →
        let tells (code : Code) : State :=
          onTerminal slot (Terminal.told NoticeBody.isResult (.quoteResult { quoteId := 0, code := code })) h
        let command : Instr := .quote head kind amount permit plate
        (∀ code : Code, FirstFails (quoteTable slot z kind amount permit plate h) code →
            exec command s = .next (lineGoesOn slot call (tells code)))
          ∧ (NoneFails (quoteTable slot z kind amount permit plate h) →
              (h.engine.walk = none → h.engine.queue = []) →
            let id := z.nextQuoteId
            let named := (Table.find? permit h.permits).bind fun p => if permit = 0 then none else some (permit, p.kind)
            let entry : QueueEntry :=
              { slot := slot, quoteId := id, start := h.calendar.zoneTime / 60 * 60,
                ask := if kind = 1 then .byAmount amount else .byDuration amount, permit := named,
                plate := if plate = [] then none else some plate }
            let permits := match z.quote with
              | .opened q => released slot q h.permits
              | _ => h.permits
            let quoting (q : QuoteSlot) : State :=
              { onTerminal slot
                  (fun y =>
                    { y with
                      quote := q
                      nextQuoteId := if 255 ≤ id then 1 else id + 1
                      closed := none
                      link :=
                        { y.link with
                          queue := y.link.queue.filter fun n => !n.body.isResult && !n.body.isSleep } }) h with
                permits := permits }
            (h.engine.walk = none →
                exec command s
                  = .next
                      (lineGoesOn slot call
                        { quoting (.walking id) with
                          engine :=
                            { queue := []
                              walk :=
                                some
                                  { entry := entry, current := z.plans.current, pending := z.plans.pending,
                                    offset := h.calendar.offset,
                                    a0 := (named.map fun n => allowanceTaken permits n.1).getD 0,
                                    discard := false, reading := h.calendar.holidays, past := [] } } }))
              ∧ ∀ f : Walk, h.engine.walk = some f →
                  exec command s
                    = .next
                        (lineGoesOn slot call
                          { quoting (.queued id) with
                            engine :=
                              { walk :=
                                  some
                                    (match z.quote with
                                    | .walking _ => if f.entry.slot = slot then { f with discard := true } else f
                                    | _ => f)
                                queue :=
                                  if slot ∈ h.engine.queue.map (·.slot) then
                                    h.engine.queue.map fun y => if y.slot = slot then entry else y
                                  else h.engine.queue ++ [entry] } }))

/-- WALK_COMPLETION (R37, R38, R58 to R61, R86, R88, R146): a marked result is dropped, a refused one is told and its slot considered for
sleep after that (the order: log entry 7), any other opens the quote with its hold; then the next walk begins, with the remaining
allowance as its a0, and 0 where the permit has no record or is SUSPENDED (R40, R79). With no walk in flight nothing changes (log
entry 2). -/
def Obligations.WalksComplete : Prop :=
  (∀ u : State, u.engine.walk = none → u.engine.queue = [] → beginWalk u = u)
    ∧ (∀ (u : State) (e : QueueEntry) (rest : List QueueEntry) (x : Terminal), u.engine.walk = none →
        u.engine.queue = e :: rest → terminal u e.slot = some x →
          beginWalk u
            = { onTerminal e.slot (fun y => { y with quote := .walking e.quoteId }) u with
                engine :=
                  { queue := rest
                    walk :=
                      some
                        { entry := e, current := x.plans.current, pending := x.plans.pending, offset := u.calendar.offset,
                          a0 := (e.permit.map fun p => allowanceTaken u.permits p.1).getD 0, discard := false,
                          reading := u.calendar.holidays, past := [] } } })
    ∧ ∀ s : State, s.supply.part = .running →
        let clear (u : State) : State := { u with engine := { u.engine with walk := none } }
        (s.engine.walk = none → exec .walkCompletion s = .next s)
          ∧ ∀ v : Walk, s.engine.walk = some v →
              (v.discard = true → exec .walkCompletion s = .next (beginWalk (clear s)))
                ∧ ∀ x : Terminal, v.discard = false → terminal s v.entry.slot = some x →
                    let e := v.entry
                    let r := WalkInput.run { plans := s.plans, walk := v }
                    let checks := resultChecks e x.config.group r s
                    (∀ (code : Code) (step : Nat), FirstFails checks (code, step) → ∃ u : State,
                        exec .walkCompletion s = .next (beginWalk (clear u))
                          ∧ Reacts
                              (onTerminal e.slot
                                (fun y =>
                                  Terminal.considered s.calendar.zoneTime
                                    (Terminal.told NoticeBody.isResult
                                      (.quoteResult { quoteId := e.quoteId, code := code, firstStep := step })
                                      { y with quote := .none })) s) u)
                      ∧ (NoneFails checks →
                        let unspent : Option Nat := match e.ask with
                          | .byAmount amount => some (amount - r.cost)
                          | .byDuration _ => none
                        exec .walkCompletion s
                          = .next
                              (beginWalk
                                (clear
                                  (onTerminal e.slot
                                    (fun y =>
                                      { y with
                                        quote :=
                                          .opened
                                            { quoteId := e.quoteId, ask := e.ask, start := e.start, expiry := r.expiry,
                                              cost := r.cost, minutes := r.minutes, unspent := unspent,
                                              clamped := decide (r.outcome = .clamped),
                                              permit := e.permit.map fun p => (p.1, r.used), plate := e.plate,
                                              firstPlan := r.firstPlan, lastPlan := r.lastPlan,
                                              completedAt := s.calendar.uptime, validUntil := s.calendar.uptime + 120 }
                                        link :=
                                          { y.link with
                                            queue :=
                                              notified NoticeBody.isResult
                                                (.quoteResult
                                                  { quoteId := e.quoteId
                                                    code := if r.outcome = .clamped then .clamped else .ok
                                                    start := e.start, expiry := r.expiry, cost := r.cost
                                                    unspent := unspent.getD 0, minutes := r.minutes
                                                    allowance := r.used, validity := 120 })
                                                y.link.queue } })
                                    { s with
                                      permits :=
                                        match e.permit with
                                        | some (number, _) =>
                                          if 0 < r.used then
                                            Table.modify number
                                              (fun p =>
                                                { p with
                                                  hold :=
                                                    some { owner := e.slot, quoteId := e.quoteId, minutes := r.used } })
                                              s.permits
                                          else s.permits
                                        | none => s.permits }))))

/-- CONFIRM from a terminal that is ACTIVE, or wakes by it, that is SOLD (R67, R69, R70, R72, R89, R96, R97, R128, R146): the ticket number,
the SALE record, the cash account, the consumed hold, the live ticket, the silence sample, the closed quote, the SALE_RESULT, and then
sleep (the order: log entry 7). Coins pass only where cash is usable, and a card amount only where card is (R115, R125). Adding a live
ticket removes an entry of its number first; where 2048 entries remain, the one of the earliest expiry goes, among equals the one added
earliest. -/
def Obligations.ConfirmsSell : Prop :=
  (∀ (s : State) (slot : Nat) (rode : Option NoticeBody) (x : Terminal) (call : CallKind) (head : AnswerHead)
    (w : StatusWord) (quoteId : Nat) (coins : Six) (card : Nat) (h : State) (z : Terminal) (q : OpenQuote),
      InWindow slot call rode x s → Answers head slot w → HandsOn slot rode x w s h z → z.quote = .opened q →
      NoneFails (confirmTable slot z q quoteId coins card h) →
        let now := h.calendar.zoneTime
        let ticket := h.sales.nextTicket
        let unspent := match q.ask with
          | .byAmount amount => amount - q.cost
          | .byDuration _ => coins.value h.cash.denominations + card - q.cost
        let sample := min z.watch.silence 14400
        let estimate : Nat := match z.watch.estimate with
          | none => sample
          | some e => ((e : Int) + ((sample : Int) - e).tdiv 8).toNat
        let tally := z.cash.tally.add coins
        let noted : State :=
          shown
            (recorded
              (.sale
                { slot := slot, ticket := ticket, byDuration := decide (q.unspent = none), start := q.start, expiry := q.expiry,
                  cost := q.cost, coins := coins, card := card, unspent := unspent, permit := q.permit.map (·.1),
                  allowance := (q.permit.map (·.2)).getD 0, firstPlan := q.firstPlan, lastPlan := q.lastPlan,
                  plate := q.plate }) h)
        let sold : State :=
          onTerminal slot
            (fun y =>
              { y with
                quote := .none
                closed := some (.sold q.quoteId ticket q.start q.expiry q.cost unspent)
                cash :=
                  { y.cash with
                    tally := tally, accepted := y.cash.accepted.add coins, cardTotal := y.cash.cardTotal + card }
                watch := { y.watch with silence := 0, estimate := some estimate } })
            { noted with
              sales :=
                { h.sales with
                  nextTicket := if 999999 ≤ ticket then 1 else ticket + 1
                  live :=
                    addTicket
                      { ticket := ticket, slot := slot, group := z.config.group, start := q.start, expiry := q.expiry,
                        permit := q.permit.map (·.1), plate := q.plate } h.sales.live }
              permits := consumed slot q h.permits }
        let boxed := if coins = .zero then sold else reportFault slot .boxFull (decide (z.config.capacity ≤ tally.total)) sold
        ∃ u : State, exec (.confirm head quoteId coins card) s = .next (lineGoesOn slot call u)
          ∧ Reacts
              (onTerminal slot
                (fun y =>
                  Terminal.considered now
                    (y.told NoticeBody.isResult
                      (.saleResult
                        { quoteId := q.quoteId, code := .sold, ticket := ticket, start := q.start, expiry := q.expiry,
                          cost := q.cost, unspent := unspent })))
                (reportFault slot .silent false boxed)) u)
    ∧ ∀ (ticket : LiveTicket) (live : List LiveTicket),
        let others := live.filter fun y => y.ticket ≠ ticket.ticket
        (others.length < 2048 → addTicket ticket live = others ++ [ticket])
          ∧ ∀ (before after : List LiveTicket) (y : LiveTicket), 2048 ≤ others.length → others = before ++ y :: after →
              (∀ o ∈ before, y.expiry < o.expiry) → (∀ o ∈ after, y.expiry ≤ o.expiry) →
                addTicket ticket live = before ++ after ++ [ticket]

/-- CONFIRM from a terminal that is ACTIVE, or wakes by it, that is not SOLD anew (R63, R66, R67): the refusals of an OPEN slot in order,
coins where cash is not usable and a card amount where card is not among them (R115, R125), of a slot still QUEUED or WALKING, and the
answers from the closed quote record; nothing else changes, but that a quote past its validity ends (the quote id a refusal carries: log
entry 24). -/
def Obligations.ConfirmsRefused : Prop :=
  ∀ (s : State) (slot : Nat) (rode : Option NoticeBody) (x : Terminal) (call : CallKind) (head : AnswerHead)
    (w : StatusWord) (quoteId : Nat) (coins : Six) (card : Nat) (h : State) (z : Terminal), InWindow slot call rode x s →
      Answers head slot w → HandsOn slot rode x w s h z →
        let tells (f : SaleFigures) (u : State) : Prop :=
          exec (.confirm head quoteId coins card) s
            = .next (lineGoesOn slot call (onTerminal slot (Terminal.told NoticeBody.isResult (.saleResult f)) u))
        (∀ (q : OpenQuote) (code : Code), z.quote = .opened q →
            FirstFails (confirmTable slot z q quoteId coins card h) code →
              (code ≠ .quoteExpired → tells { quoteId := quoteId, code := code } h)
                ∧ (code = .quoteExpired →
                  tells { quoteId := quoteId, code := code }
                    (onTerminal slot
                      (fun y =>
                        Terminal.considered h.calendar.zoneTime
                          (Terminal.without (NoticeBody.isResultOf q.quoteId)
                            { y with quote := .none, closed := some (.expired q.quoteId) }))
                      { h with permits := released slot q h.permits })))
          ∧ (∀ i : Nat, z.quote = .queued i ∨ z.quote = .walking i →
              tells { quoteId := quoteId, code := .quotePending } h)
          ∧ (z.quote = .none →
              (∀ ticket start expiry cost unspent : Nat,
                  z.closed = some (.sold quoteId ticket start expiry cost unspent) →
                    tells
                      { quoteId := quoteId, code := .sold, ticket := ticket, start := start, expiry := expiry, cost := cost,
                        unspent := unspent } h)
                ∧ (z.closed = some (.expired quoteId) → tells { quoteId := quoteId, code := .quoteExpired } h)
                ∧ ((∀ ticket start expiry cost unspent : Nat,
                      z.closed ≠ some (.sold quoteId ticket start expiry cost unspent)) →
                    z.closed ≠ some (.expired quoteId) → tells { quoteId := quoteId, code := .quoteUnknown } h))

/-- CANCEL from a terminal that is ACTIVE, or wakes by it, ends its quote in whatever stage it stands (R36, R64, R90, R146): the entry is
withdrawn, the walk marked, or the hold released; the slot is NONE and considered for sleep, and an undelivered result is withdrawn. The
same is what ends a quote wherever a rule says that one ends (R65). -/
def Obligations.CancelsEndQuotes : Prop :=
  (∀ (s : State) (slot : Nat) (rode : Option NoticeBody) (x : Terminal) (call : CallKind) (head : AnswerHead)
    (w : StatusWord) (h : State) (z : Terminal), InWindow slot call rode x s → Answers head slot w → HandsOn slot rode x w s h z →
      exec (.cancel head) s = .next (lineGoesOn slot call (quoteEnded slot h)))
    ∧ ∀ (s : State) (slot : Nat), Table.wf s.terminals = true → endQuote slot s = quoteEnded slot s

/-! ## Supply and starts (chapter 11) -/

/-- The supply's events and the starts (R16, R168, R177 to R181). A power-fail entry stops the line and the ports, abandons the
walk in flight and leaves BACKUP; the cell below its retention level sets the latch while it is CARRYING. POWER_UP from BACKUP and
RESET_PIN while RUNNING take their kind from the latch, each start as one step, and one begun again after an abandoned start keeps the
event flags set before, which for a cold start is the model's choice (log entry 17); RESTART is answered OK and the
office restart follows its response. A start ends with the SEEK of cycle 0 sent and its first reply window open (log entries 18 and
20), and closes a round whose deadline came in the outage or whose clock wrapped in it (log entry 16); a POWER_UP while RUNNING is not due
(log entry 2). The queue of commands and the count of free values are the model's own (log entries 1 and 13). -/
def Obligations.SupplyAndStarts : Prop :=
  ∀ (s : State) (straps : Straps),
    let cold (keep : Bool) : State :=
      { State.cold straps with
        freeIndex := s.freeIndex
        pending := s.pending
        attention :=
          { mask := Flags.all
            flags :=
              if keep then
                { s.attention.flags with
                  salesHalted := false, journalHigh := false, counts := false, clock := true, restarted := true }
              else { Flags.none with clock := true, restarted := true } } }
    (s.supply.part = .backup →
        (s.supply.latch = true → exec (.powerUp straps) s = .next (cold s.supply.startAbandoned))
          ∧ (s.supply.latch = false → TablesOrdered s → ∃ t : State,
            exec (.powerUp straps) s = .next t ∧ WarmStarted straps s.supply.startAbandoned s t))
      ∧ (s.supply.part = .running →
          exec (.powerUp straps) s = .next s
            ∧ ∀ duringStart : Bool,
                (s.supply.latch = true → exec (.resetPin straps duringStart) s = .next (cold duringStart))
                  ∧ (s.supply.latch = false → TablesOrdered s → ∃ t : State,
                    exec (.resetPin straps duringStart) s = .next t ∧ WarmStarted straps duringStart s t))
      ∧ (OfficeFree s → ∀ tag : Nat, exec (.restart tag) s = .next (answered 0x1C tag (accepted .empty) s))
      ∧ (∀ r ∈ s.office.current, s.supply.part = .running → r.kind = 0x1C → r.response.code = .ok → TablesOrdered s →
          ∃ t : State, exec .officeResponseSent s = .next t ∧ WarmStarted s.supply.straps false s t)
      ∧ (s.supply.part = .running → ∀ cellBelow duringStart : Bool,
        let t : State :=
          { s with
            line := { s.line with mode := .stopped, out := [], ended := none }
            office := { s.office with reading := false, current := none, busy := [] }
            service := { reading := false, current := none, busy := [] }
            engine := { s.engine with walk := none }
            supply :=
              { s.supply with
                part := .backup, main := .below, cell := .carrying, latch := s.supply.latch || cellBelow,
                startAbandoned := duringStart } }
        exec (.powerFailEntry cellBelow duringStart) s = .next t ∧ attn t = false)
      ∧ (s.supply.cell = .carrying →
          exec .cellBelowRetention s = .next { s with supply := { s.supply with latch := true } })
      ∧ (s.supply.cell = .standby → exec .cellBelowRetention s = .next s)
end

