-- ==== Sys2Proof/Laws/State.lean ====
section
/-!
SUPPORT. One lemma per field per block update: what each update writes and what it leaves.
-/

namespace Sys2Proof.Machine.State

open Sys2Proof

@[simp] theorem onCalendar_calendar (s : State) (f : Calendar → Calendar) : (s.onCalendar f).calendar = f s.calendar := rfl
@[simp] theorem onCalendar_plans (s : State) (f : Calendar → Calendar) : (s.onCalendar f).plans = s.plans := rfl
@[simp] theorem onCalendar_engine (s : State) (f : Calendar → Calendar) : (s.onCalendar f).engine = s.engine := rfl
@[simp] theorem onCalendar_terminals (s : State) (f : Calendar → Calendar) : (s.onCalendar f).terminals = s.terminals := rfl
@[simp] theorem onCalendar_sales (s : State) (f : Calendar → Calendar) : (s.onCalendar f).sales = s.sales := rfl
@[simp] theorem onCalendar_permits (s : State) (f : Calendar → Calendar) : (s.onCalendar f).permits = s.permits := rfl
@[simp] theorem onCalendar_cash (s : State) (f : Calendar → Calendar) : (s.onCalendar f).cash = s.cash := rfl
@[simp] theorem onCalendar_groups (s : State) (f : Calendar → Calendar) : (s.onCalendar f).groups = s.groups := rfl
@[simp] theorem onCalendar_line (s : State) (f : Calendar → Calendar) : (s.onCalendar f).line = s.line := rfl
@[simp] theorem onCalendar_journal (s : State) (f : Calendar → Calendar) : (s.onCalendar f).journal = s.journal := rfl
@[simp] theorem onCalendar_office (s : State) (f : Calendar → Calendar) : (s.onCalendar f).office = s.office := rfl
@[simp] theorem onCalendar_attention (s : State) (f : Calendar → Calendar) : (s.onCalendar f).attention = s.attention := rfl
@[simp] theorem onCalendar_roster (s : State) (f : Calendar → Calendar) : (s.onCalendar f).roster = s.roster := rfl
@[simp] theorem onCalendar_service (s : State) (f : Calendar → Calendar) : (s.onCalendar f).service = s.service := rfl
@[simp] theorem onCalendar_supply (s : State) (f : Calendar → Calendar) : (s.onCalendar f).supply = s.supply := rfl
@[simp] theorem onCalendar_freeIndex (s : State) (f : Calendar → Calendar) : (s.onCalendar f).freeIndex = s.freeIndex := rfl
@[simp] theorem onCalendar_pending (s : State) (f : Calendar → Calendar) : (s.onCalendar f).pending = s.pending := rfl

@[simp] theorem onPlans_calendar (s : State) (f : Table PlanSlot → Table PlanSlot) : (s.onPlans f).calendar = s.calendar := rfl
@[simp] theorem onPlans_plans (s : State) (f : Table PlanSlot → Table PlanSlot) : (s.onPlans f).plans = f s.plans := rfl
@[simp] theorem onPlans_engine (s : State) (f : Table PlanSlot → Table PlanSlot) : (s.onPlans f).engine = s.engine := rfl
@[simp] theorem onPlans_terminals (s : State) (f : Table PlanSlot → Table PlanSlot) : (s.onPlans f).terminals = s.terminals := rfl
@[simp] theorem onPlans_sales (s : State) (f : Table PlanSlot → Table PlanSlot) : (s.onPlans f).sales = s.sales := rfl
@[simp] theorem onPlans_permits (s : State) (f : Table PlanSlot → Table PlanSlot) : (s.onPlans f).permits = s.permits := rfl
@[simp] theorem onPlans_cash (s : State) (f : Table PlanSlot → Table PlanSlot) : (s.onPlans f).cash = s.cash := rfl
@[simp] theorem onPlans_groups (s : State) (f : Table PlanSlot → Table PlanSlot) : (s.onPlans f).groups = s.groups := rfl
@[simp] theorem onPlans_line (s : State) (f : Table PlanSlot → Table PlanSlot) : (s.onPlans f).line = s.line := rfl
@[simp] theorem onPlans_journal (s : State) (f : Table PlanSlot → Table PlanSlot) : (s.onPlans f).journal = s.journal := rfl
@[simp] theorem onPlans_office (s : State) (f : Table PlanSlot → Table PlanSlot) : (s.onPlans f).office = s.office := rfl
@[simp] theorem onPlans_attention (s : State) (f : Table PlanSlot → Table PlanSlot) : (s.onPlans f).attention = s.attention := rfl
@[simp] theorem onPlans_roster (s : State) (f : Table PlanSlot → Table PlanSlot) : (s.onPlans f).roster = s.roster := rfl
@[simp] theorem onPlans_service (s : State) (f : Table PlanSlot → Table PlanSlot) : (s.onPlans f).service = s.service := rfl
@[simp] theorem onPlans_supply (s : State) (f : Table PlanSlot → Table PlanSlot) : (s.onPlans f).supply = s.supply := rfl
@[simp] theorem onPlans_freeIndex (s : State) (f : Table PlanSlot → Table PlanSlot) : (s.onPlans f).freeIndex = s.freeIndex := rfl
@[simp] theorem onPlans_pending (s : State) (f : Table PlanSlot → Table PlanSlot) : (s.onPlans f).pending = s.pending := rfl

@[simp] theorem onEngine_calendar (s : State) (f : Engine → Engine) : (s.onEngine f).calendar = s.calendar := rfl
@[simp] theorem onEngine_plans (s : State) (f : Engine → Engine) : (s.onEngine f).plans = s.plans := rfl
@[simp] theorem onEngine_engine (s : State) (f : Engine → Engine) : (s.onEngine f).engine = f s.engine := rfl
@[simp] theorem onEngine_terminals (s : State) (f : Engine → Engine) : (s.onEngine f).terminals = s.terminals := rfl
@[simp] theorem onEngine_sales (s : State) (f : Engine → Engine) : (s.onEngine f).sales = s.sales := rfl
@[simp] theorem onEngine_permits (s : State) (f : Engine → Engine) : (s.onEngine f).permits = s.permits := rfl
@[simp] theorem onEngine_cash (s : State) (f : Engine → Engine) : (s.onEngine f).cash = s.cash := rfl
@[simp] theorem onEngine_groups (s : State) (f : Engine → Engine) : (s.onEngine f).groups = s.groups := rfl
@[simp] theorem onEngine_line (s : State) (f : Engine → Engine) : (s.onEngine f).line = s.line := rfl
@[simp] theorem onEngine_journal (s : State) (f : Engine → Engine) : (s.onEngine f).journal = s.journal := rfl
@[simp] theorem onEngine_office (s : State) (f : Engine → Engine) : (s.onEngine f).office = s.office := rfl
@[simp] theorem onEngine_attention (s : State) (f : Engine → Engine) : (s.onEngine f).attention = s.attention := rfl
@[simp] theorem onEngine_roster (s : State) (f : Engine → Engine) : (s.onEngine f).roster = s.roster := rfl
@[simp] theorem onEngine_service (s : State) (f : Engine → Engine) : (s.onEngine f).service = s.service := rfl
@[simp] theorem onEngine_supply (s : State) (f : Engine → Engine) : (s.onEngine f).supply = s.supply := rfl
@[simp] theorem onEngine_freeIndex (s : State) (f : Engine → Engine) : (s.onEngine f).freeIndex = s.freeIndex := rfl
@[simp] theorem onEngine_pending (s : State) (f : Engine → Engine) : (s.onEngine f).pending = s.pending := rfl

@[simp] theorem onTerminals_calendar (s : State) (f : Table Terminal → Table Terminal) : (s.onTerminals f).calendar = s.calendar := rfl
@[simp] theorem onTerminals_plans (s : State) (f : Table Terminal → Table Terminal) : (s.onTerminals f).plans = s.plans := rfl
@[simp] theorem onTerminals_engine (s : State) (f : Table Terminal → Table Terminal) : (s.onTerminals f).engine = s.engine := rfl
@[simp] theorem onTerminals_terminals (s : State) (f : Table Terminal → Table Terminal) : (s.onTerminals f).terminals = f s.terminals := rfl
@[simp] theorem onTerminals_sales (s : State) (f : Table Terminal → Table Terminal) : (s.onTerminals f).sales = s.sales := rfl
@[simp] theorem onTerminals_permits (s : State) (f : Table Terminal → Table Terminal) : (s.onTerminals f).permits = s.permits := rfl
@[simp] theorem onTerminals_cash (s : State) (f : Table Terminal → Table Terminal) : (s.onTerminals f).cash = s.cash := rfl
@[simp] theorem onTerminals_groups (s : State) (f : Table Terminal → Table Terminal) : (s.onTerminals f).groups = s.groups := rfl
@[simp] theorem onTerminals_line (s : State) (f : Table Terminal → Table Terminal) : (s.onTerminals f).line = s.line := rfl
@[simp] theorem onTerminals_journal (s : State) (f : Table Terminal → Table Terminal) : (s.onTerminals f).journal = s.journal := rfl
@[simp] theorem onTerminals_office (s : State) (f : Table Terminal → Table Terminal) : (s.onTerminals f).office = s.office := rfl
@[simp] theorem onTerminals_attention (s : State) (f : Table Terminal → Table Terminal) : (s.onTerminals f).attention = s.attention := rfl
@[simp] theorem onTerminals_roster (s : State) (f : Table Terminal → Table Terminal) : (s.onTerminals f).roster = s.roster := rfl
@[simp] theorem onTerminals_service (s : State) (f : Table Terminal → Table Terminal) : (s.onTerminals f).service = s.service := rfl
@[simp] theorem onTerminals_supply (s : State) (f : Table Terminal → Table Terminal) : (s.onTerminals f).supply = s.supply := rfl
@[simp] theorem onTerminals_freeIndex (s : State) (f : Table Terminal → Table Terminal) : (s.onTerminals f).freeIndex = s.freeIndex := rfl
@[simp] theorem onTerminals_pending (s : State) (f : Table Terminal → Table Terminal) : (s.onTerminals f).pending = s.pending := rfl

@[simp] theorem onSales_calendar (s : State) (f : Sales → Sales) : (s.onSales f).calendar = s.calendar := rfl
@[simp] theorem onSales_plans (s : State) (f : Sales → Sales) : (s.onSales f).plans = s.plans := rfl
@[simp] theorem onSales_engine (s : State) (f : Sales → Sales) : (s.onSales f).engine = s.engine := rfl
@[simp] theorem onSales_terminals (s : State) (f : Sales → Sales) : (s.onSales f).terminals = s.terminals := rfl
@[simp] theorem onSales_sales (s : State) (f : Sales → Sales) : (s.onSales f).sales = f s.sales := rfl
@[simp] theorem onSales_permits (s : State) (f : Sales → Sales) : (s.onSales f).permits = s.permits := rfl
@[simp] theorem onSales_cash (s : State) (f : Sales → Sales) : (s.onSales f).cash = s.cash := rfl
@[simp] theorem onSales_groups (s : State) (f : Sales → Sales) : (s.onSales f).groups = s.groups := rfl
@[simp] theorem onSales_line (s : State) (f : Sales → Sales) : (s.onSales f).line = s.line := rfl
@[simp] theorem onSales_journal (s : State) (f : Sales → Sales) : (s.onSales f).journal = s.journal := rfl
@[simp] theorem onSales_office (s : State) (f : Sales → Sales) : (s.onSales f).office = s.office := rfl
@[simp] theorem onSales_attention (s : State) (f : Sales → Sales) : (s.onSales f).attention = s.attention := rfl
@[simp] theorem onSales_roster (s : State) (f : Sales → Sales) : (s.onSales f).roster = s.roster := rfl
@[simp] theorem onSales_service (s : State) (f : Sales → Sales) : (s.onSales f).service = s.service := rfl
@[simp] theorem onSales_supply (s : State) (f : Sales → Sales) : (s.onSales f).supply = s.supply := rfl
@[simp] theorem onSales_freeIndex (s : State) (f : Sales → Sales) : (s.onSales f).freeIndex = s.freeIndex := rfl
@[simp] theorem onSales_pending (s : State) (f : Sales → Sales) : (s.onSales f).pending = s.pending := rfl

@[simp] theorem onPermits_calendar (s : State) (f : Table Permit → Table Permit) : (s.onPermits f).calendar = s.calendar := rfl
@[simp] theorem onPermits_plans (s : State) (f : Table Permit → Table Permit) : (s.onPermits f).plans = s.plans := rfl
@[simp] theorem onPermits_engine (s : State) (f : Table Permit → Table Permit) : (s.onPermits f).engine = s.engine := rfl
@[simp] theorem onPermits_terminals (s : State) (f : Table Permit → Table Permit) : (s.onPermits f).terminals = s.terminals := rfl
@[simp] theorem onPermits_sales (s : State) (f : Table Permit → Table Permit) : (s.onPermits f).sales = s.sales := rfl
@[simp] theorem onPermits_permits (s : State) (f : Table Permit → Table Permit) : (s.onPermits f).permits = f s.permits := rfl
@[simp] theorem onPermits_cash (s : State) (f : Table Permit → Table Permit) : (s.onPermits f).cash = s.cash := rfl
@[simp] theorem onPermits_groups (s : State) (f : Table Permit → Table Permit) : (s.onPermits f).groups = s.groups := rfl
@[simp] theorem onPermits_line (s : State) (f : Table Permit → Table Permit) : (s.onPermits f).line = s.line := rfl
@[simp] theorem onPermits_journal (s : State) (f : Table Permit → Table Permit) : (s.onPermits f).journal = s.journal := rfl
@[simp] theorem onPermits_office (s : State) (f : Table Permit → Table Permit) : (s.onPermits f).office = s.office := rfl
@[simp] theorem onPermits_attention (s : State) (f : Table Permit → Table Permit) : (s.onPermits f).attention = s.attention := rfl
@[simp] theorem onPermits_roster (s : State) (f : Table Permit → Table Permit) : (s.onPermits f).roster = s.roster := rfl
@[simp] theorem onPermits_service (s : State) (f : Table Permit → Table Permit) : (s.onPermits f).service = s.service := rfl
@[simp] theorem onPermits_supply (s : State) (f : Table Permit → Table Permit) : (s.onPermits f).supply = s.supply := rfl
@[simp] theorem onPermits_freeIndex (s : State) (f : Table Permit → Table Permit) : (s.onPermits f).freeIndex = s.freeIndex := rfl
@[simp] theorem onPermits_pending (s : State) (f : Table Permit → Table Permit) : (s.onPermits f).pending = s.pending := rfl

@[simp] theorem onCash_calendar (s : State) (f : Cash → Cash) : (s.onCash f).calendar = s.calendar := rfl
@[simp] theorem onCash_plans (s : State) (f : Cash → Cash) : (s.onCash f).plans = s.plans := rfl
@[simp] theorem onCash_engine (s : State) (f : Cash → Cash) : (s.onCash f).engine = s.engine := rfl
@[simp] theorem onCash_terminals (s : State) (f : Cash → Cash) : (s.onCash f).terminals = s.terminals := rfl
@[simp] theorem onCash_sales (s : State) (f : Cash → Cash) : (s.onCash f).sales = s.sales := rfl
@[simp] theorem onCash_permits (s : State) (f : Cash → Cash) : (s.onCash f).permits = s.permits := rfl
@[simp] theorem onCash_cash (s : State) (f : Cash → Cash) : (s.onCash f).cash = f s.cash := rfl
@[simp] theorem onCash_groups (s : State) (f : Cash → Cash) : (s.onCash f).groups = s.groups := rfl
@[simp] theorem onCash_line (s : State) (f : Cash → Cash) : (s.onCash f).line = s.line := rfl
@[simp] theorem onCash_journal (s : State) (f : Cash → Cash) : (s.onCash f).journal = s.journal := rfl
@[simp] theorem onCash_office (s : State) (f : Cash → Cash) : (s.onCash f).office = s.office := rfl
@[simp] theorem onCash_attention (s : State) (f : Cash → Cash) : (s.onCash f).attention = s.attention := rfl
@[simp] theorem onCash_roster (s : State) (f : Cash → Cash) : (s.onCash f).roster = s.roster := rfl
@[simp] theorem onCash_service (s : State) (f : Cash → Cash) : (s.onCash f).service = s.service := rfl
@[simp] theorem onCash_supply (s : State) (f : Cash → Cash) : (s.onCash f).supply = s.supply := rfl
@[simp] theorem onCash_freeIndex (s : State) (f : Cash → Cash) : (s.onCash f).freeIndex = s.freeIndex := rfl
@[simp] theorem onCash_pending (s : State) (f : Cash → Cash) : (s.onCash f).pending = s.pending := rfl

@[simp] theorem onGroups_calendar (s : State) (f : Table GroupRecord → Table GroupRecord) : (s.onGroups f).calendar = s.calendar := rfl
@[simp] theorem onGroups_plans (s : State) (f : Table GroupRecord → Table GroupRecord) : (s.onGroups f).plans = s.plans := rfl
@[simp] theorem onGroups_engine (s : State) (f : Table GroupRecord → Table GroupRecord) : (s.onGroups f).engine = s.engine := rfl
@[simp] theorem onGroups_terminals (s : State) (f : Table GroupRecord → Table GroupRecord) : (s.onGroups f).terminals = s.terminals := rfl
@[simp] theorem onGroups_sales (s : State) (f : Table GroupRecord → Table GroupRecord) : (s.onGroups f).sales = s.sales := rfl
@[simp] theorem onGroups_permits (s : State) (f : Table GroupRecord → Table GroupRecord) : (s.onGroups f).permits = s.permits := rfl
@[simp] theorem onGroups_cash (s : State) (f : Table GroupRecord → Table GroupRecord) : (s.onGroups f).cash = s.cash := rfl
@[simp] theorem onGroups_groups (s : State) (f : Table GroupRecord → Table GroupRecord) : (s.onGroups f).groups = f s.groups := rfl
@[simp] theorem onGroups_line (s : State) (f : Table GroupRecord → Table GroupRecord) : (s.onGroups f).line = s.line := rfl
@[simp] theorem onGroups_journal (s : State) (f : Table GroupRecord → Table GroupRecord) : (s.onGroups f).journal = s.journal := rfl
@[simp] theorem onGroups_office (s : State) (f : Table GroupRecord → Table GroupRecord) : (s.onGroups f).office = s.office := rfl
@[simp] theorem onGroups_attention (s : State) (f : Table GroupRecord → Table GroupRecord) : (s.onGroups f).attention = s.attention := rfl
@[simp] theorem onGroups_roster (s : State) (f : Table GroupRecord → Table GroupRecord) : (s.onGroups f).roster = s.roster := rfl
@[simp] theorem onGroups_service (s : State) (f : Table GroupRecord → Table GroupRecord) : (s.onGroups f).service = s.service := rfl
@[simp] theorem onGroups_supply (s : State) (f : Table GroupRecord → Table GroupRecord) : (s.onGroups f).supply = s.supply := rfl
@[simp] theorem onGroups_freeIndex (s : State) (f : Table GroupRecord → Table GroupRecord) : (s.onGroups f).freeIndex = s.freeIndex := rfl
@[simp] theorem onGroups_pending (s : State) (f : Table GroupRecord → Table GroupRecord) : (s.onGroups f).pending = s.pending := rfl

@[simp] theorem onLine_calendar (s : State) (f : Line → Line) : (s.onLine f).calendar = s.calendar := rfl
@[simp] theorem onLine_plans (s : State) (f : Line → Line) : (s.onLine f).plans = s.plans := rfl
@[simp] theorem onLine_engine (s : State) (f : Line → Line) : (s.onLine f).engine = s.engine := rfl
@[simp] theorem onLine_terminals (s : State) (f : Line → Line) : (s.onLine f).terminals = s.terminals := rfl
@[simp] theorem onLine_sales (s : State) (f : Line → Line) : (s.onLine f).sales = s.sales := rfl
@[simp] theorem onLine_permits (s : State) (f : Line → Line) : (s.onLine f).permits = s.permits := rfl
@[simp] theorem onLine_cash (s : State) (f : Line → Line) : (s.onLine f).cash = s.cash := rfl
@[simp] theorem onLine_groups (s : State) (f : Line → Line) : (s.onLine f).groups = s.groups := rfl
@[simp] theorem onLine_line (s : State) (f : Line → Line) : (s.onLine f).line = f s.line := rfl
@[simp] theorem onLine_journal (s : State) (f : Line → Line) : (s.onLine f).journal = s.journal := rfl
@[simp] theorem onLine_office (s : State) (f : Line → Line) : (s.onLine f).office = s.office := rfl
@[simp] theorem onLine_attention (s : State) (f : Line → Line) : (s.onLine f).attention = s.attention := rfl
@[simp] theorem onLine_roster (s : State) (f : Line → Line) : (s.onLine f).roster = s.roster := rfl
@[simp] theorem onLine_service (s : State) (f : Line → Line) : (s.onLine f).service = s.service := rfl
@[simp] theorem onLine_supply (s : State) (f : Line → Line) : (s.onLine f).supply = s.supply := rfl
@[simp] theorem onLine_freeIndex (s : State) (f : Line → Line) : (s.onLine f).freeIndex = s.freeIndex := rfl
@[simp] theorem onLine_pending (s : State) (f : Line → Line) : (s.onLine f).pending = s.pending := rfl

@[simp] theorem onJournal_calendar (s : State) (f : Journal → Journal) : (s.onJournal f).calendar = s.calendar := rfl
@[simp] theorem onJournal_plans (s : State) (f : Journal → Journal) : (s.onJournal f).plans = s.plans := rfl
@[simp] theorem onJournal_engine (s : State) (f : Journal → Journal) : (s.onJournal f).engine = s.engine := rfl
@[simp] theorem onJournal_terminals (s : State) (f : Journal → Journal) : (s.onJournal f).terminals = s.terminals := rfl
@[simp] theorem onJournal_sales (s : State) (f : Journal → Journal) : (s.onJournal f).sales = s.sales := rfl
@[simp] theorem onJournal_permits (s : State) (f : Journal → Journal) : (s.onJournal f).permits = s.permits := rfl
@[simp] theorem onJournal_cash (s : State) (f : Journal → Journal) : (s.onJournal f).cash = s.cash := rfl
@[simp] theorem onJournal_groups (s : State) (f : Journal → Journal) : (s.onJournal f).groups = s.groups := rfl
@[simp] theorem onJournal_line (s : State) (f : Journal → Journal) : (s.onJournal f).line = s.line := rfl
@[simp] theorem onJournal_journal (s : State) (f : Journal → Journal) : (s.onJournal f).journal = f s.journal := rfl
@[simp] theorem onJournal_office (s : State) (f : Journal → Journal) : (s.onJournal f).office = s.office := rfl
@[simp] theorem onJournal_attention (s : State) (f : Journal → Journal) : (s.onJournal f).attention = s.attention := rfl
@[simp] theorem onJournal_roster (s : State) (f : Journal → Journal) : (s.onJournal f).roster = s.roster := rfl
@[simp] theorem onJournal_service (s : State) (f : Journal → Journal) : (s.onJournal f).service = s.service := rfl
@[simp] theorem onJournal_supply (s : State) (f : Journal → Journal) : (s.onJournal f).supply = s.supply := rfl
@[simp] theorem onJournal_freeIndex (s : State) (f : Journal → Journal) : (s.onJournal f).freeIndex = s.freeIndex := rfl
@[simp] theorem onJournal_pending (s : State) (f : Journal → Journal) : (s.onJournal f).pending = s.pending := rfl

@[simp] theorem onOffice_calendar (s : State) (f : OfficePort → OfficePort) : (s.onOffice f).calendar = s.calendar := rfl
@[simp] theorem onOffice_plans (s : State) (f : OfficePort → OfficePort) : (s.onOffice f).plans = s.plans := rfl
@[simp] theorem onOffice_engine (s : State) (f : OfficePort → OfficePort) : (s.onOffice f).engine = s.engine := rfl
@[simp] theorem onOffice_terminals (s : State) (f : OfficePort → OfficePort) : (s.onOffice f).terminals = s.terminals := rfl
@[simp] theorem onOffice_sales (s : State) (f : OfficePort → OfficePort) : (s.onOffice f).sales = s.sales := rfl
@[simp] theorem onOffice_permits (s : State) (f : OfficePort → OfficePort) : (s.onOffice f).permits = s.permits := rfl
@[simp] theorem onOffice_cash (s : State) (f : OfficePort → OfficePort) : (s.onOffice f).cash = s.cash := rfl
@[simp] theorem onOffice_groups (s : State) (f : OfficePort → OfficePort) : (s.onOffice f).groups = s.groups := rfl
@[simp] theorem onOffice_line (s : State) (f : OfficePort → OfficePort) : (s.onOffice f).line = s.line := rfl
@[simp] theorem onOffice_journal (s : State) (f : OfficePort → OfficePort) : (s.onOffice f).journal = s.journal := rfl
@[simp] theorem onOffice_office (s : State) (f : OfficePort → OfficePort) : (s.onOffice f).office = f s.office := rfl
@[simp] theorem onOffice_attention (s : State) (f : OfficePort → OfficePort) : (s.onOffice f).attention = s.attention := rfl
@[simp] theorem onOffice_roster (s : State) (f : OfficePort → OfficePort) : (s.onOffice f).roster = s.roster := rfl
@[simp] theorem onOffice_service (s : State) (f : OfficePort → OfficePort) : (s.onOffice f).service = s.service := rfl
@[simp] theorem onOffice_supply (s : State) (f : OfficePort → OfficePort) : (s.onOffice f).supply = s.supply := rfl
@[simp] theorem onOffice_freeIndex (s : State) (f : OfficePort → OfficePort) : (s.onOffice f).freeIndex = s.freeIndex := rfl
@[simp] theorem onOffice_pending (s : State) (f : OfficePort → OfficePort) : (s.onOffice f).pending = s.pending := rfl

@[simp] theorem onAttention_calendar (s : State) (f : Attention → Attention) : (s.onAttention f).calendar = s.calendar := rfl
@[simp] theorem onAttention_plans (s : State) (f : Attention → Attention) : (s.onAttention f).plans = s.plans := rfl
@[simp] theorem onAttention_engine (s : State) (f : Attention → Attention) : (s.onAttention f).engine = s.engine := rfl
@[simp] theorem onAttention_terminals (s : State) (f : Attention → Attention) : (s.onAttention f).terminals = s.terminals := rfl
@[simp] theorem onAttention_sales (s : State) (f : Attention → Attention) : (s.onAttention f).sales = s.sales := rfl
@[simp] theorem onAttention_permits (s : State) (f : Attention → Attention) : (s.onAttention f).permits = s.permits := rfl
@[simp] theorem onAttention_cash (s : State) (f : Attention → Attention) : (s.onAttention f).cash = s.cash := rfl
@[simp] theorem onAttention_groups (s : State) (f : Attention → Attention) : (s.onAttention f).groups = s.groups := rfl
@[simp] theorem onAttention_line (s : State) (f : Attention → Attention) : (s.onAttention f).line = s.line := rfl
@[simp] theorem onAttention_journal (s : State) (f : Attention → Attention) : (s.onAttention f).journal = s.journal := rfl
@[simp] theorem onAttention_office (s : State) (f : Attention → Attention) : (s.onAttention f).office = s.office := rfl
@[simp] theorem onAttention_attention (s : State) (f : Attention → Attention) : (s.onAttention f).attention = f s.attention := rfl
@[simp] theorem onAttention_roster (s : State) (f : Attention → Attention) : (s.onAttention f).roster = s.roster := rfl
@[simp] theorem onAttention_service (s : State) (f : Attention → Attention) : (s.onAttention f).service = s.service := rfl
@[simp] theorem onAttention_supply (s : State) (f : Attention → Attention) : (s.onAttention f).supply = s.supply := rfl
@[simp] theorem onAttention_freeIndex (s : State) (f : Attention → Attention) : (s.onAttention f).freeIndex = s.freeIndex := rfl
@[simp] theorem onAttention_pending (s : State) (f : Attention → Attention) : (s.onAttention f).pending = s.pending := rfl

@[simp] theorem onRoster_calendar (s : State) (f : Table RosterEntry → Table RosterEntry) : (s.onRoster f).calendar = s.calendar := rfl
@[simp] theorem onRoster_plans (s : State) (f : Table RosterEntry → Table RosterEntry) : (s.onRoster f).plans = s.plans := rfl
@[simp] theorem onRoster_engine (s : State) (f : Table RosterEntry → Table RosterEntry) : (s.onRoster f).engine = s.engine := rfl
@[simp] theorem onRoster_terminals (s : State) (f : Table RosterEntry → Table RosterEntry) : (s.onRoster f).terminals = s.terminals := rfl
@[simp] theorem onRoster_sales (s : State) (f : Table RosterEntry → Table RosterEntry) : (s.onRoster f).sales = s.sales := rfl
@[simp] theorem onRoster_permits (s : State) (f : Table RosterEntry → Table RosterEntry) : (s.onRoster f).permits = s.permits := rfl
@[simp] theorem onRoster_cash (s : State) (f : Table RosterEntry → Table RosterEntry) : (s.onRoster f).cash = s.cash := rfl
@[simp] theorem onRoster_groups (s : State) (f : Table RosterEntry → Table RosterEntry) : (s.onRoster f).groups = s.groups := rfl
@[simp] theorem onRoster_line (s : State) (f : Table RosterEntry → Table RosterEntry) : (s.onRoster f).line = s.line := rfl
@[simp] theorem onRoster_journal (s : State) (f : Table RosterEntry → Table RosterEntry) : (s.onRoster f).journal = s.journal := rfl
@[simp] theorem onRoster_office (s : State) (f : Table RosterEntry → Table RosterEntry) : (s.onRoster f).office = s.office := rfl
@[simp] theorem onRoster_attention (s : State) (f : Table RosterEntry → Table RosterEntry) : (s.onRoster f).attention = s.attention := rfl
@[simp] theorem onRoster_roster (s : State) (f : Table RosterEntry → Table RosterEntry) : (s.onRoster f).roster = f s.roster := rfl
@[simp] theorem onRoster_service (s : State) (f : Table RosterEntry → Table RosterEntry) : (s.onRoster f).service = s.service := rfl
@[simp] theorem onRoster_supply (s : State) (f : Table RosterEntry → Table RosterEntry) : (s.onRoster f).supply = s.supply := rfl
@[simp] theorem onRoster_freeIndex (s : State) (f : Table RosterEntry → Table RosterEntry) : (s.onRoster f).freeIndex = s.freeIndex := rfl
@[simp] theorem onRoster_pending (s : State) (f : Table RosterEntry → Table RosterEntry) : (s.onRoster f).pending = s.pending := rfl

@[simp] theorem onService_calendar (s : State) (f : ServicePort → ServicePort) : (s.onService f).calendar = s.calendar := rfl
@[simp] theorem onService_plans (s : State) (f : ServicePort → ServicePort) : (s.onService f).plans = s.plans := rfl
@[simp] theorem onService_engine (s : State) (f : ServicePort → ServicePort) : (s.onService f).engine = s.engine := rfl
@[simp] theorem onService_terminals (s : State) (f : ServicePort → ServicePort) : (s.onService f).terminals = s.terminals := rfl
@[simp] theorem onService_sales (s : State) (f : ServicePort → ServicePort) : (s.onService f).sales = s.sales := rfl
@[simp] theorem onService_permits (s : State) (f : ServicePort → ServicePort) : (s.onService f).permits = s.permits := rfl
@[simp] theorem onService_cash (s : State) (f : ServicePort → ServicePort) : (s.onService f).cash = s.cash := rfl
@[simp] theorem onService_groups (s : State) (f : ServicePort → ServicePort) : (s.onService f).groups = s.groups := rfl
@[simp] theorem onService_line (s : State) (f : ServicePort → ServicePort) : (s.onService f).line = s.line := rfl
@[simp] theorem onService_journal (s : State) (f : ServicePort → ServicePort) : (s.onService f).journal = s.journal := rfl
@[simp] theorem onService_office (s : State) (f : ServicePort → ServicePort) : (s.onService f).office = s.office := rfl
@[simp] theorem onService_attention (s : State) (f : ServicePort → ServicePort) : (s.onService f).attention = s.attention := rfl
@[simp] theorem onService_roster (s : State) (f : ServicePort → ServicePort) : (s.onService f).roster = s.roster := rfl
@[simp] theorem onService_service (s : State) (f : ServicePort → ServicePort) : (s.onService f).service = f s.service := rfl
@[simp] theorem onService_supply (s : State) (f : ServicePort → ServicePort) : (s.onService f).supply = s.supply := rfl
@[simp] theorem onService_freeIndex (s : State) (f : ServicePort → ServicePort) : (s.onService f).freeIndex = s.freeIndex := rfl
@[simp] theorem onService_pending (s : State) (f : ServicePort → ServicePort) : (s.onService f).pending = s.pending := rfl

@[simp] theorem onSupply_calendar (s : State) (f : Supply → Supply) : (s.onSupply f).calendar = s.calendar := rfl
@[simp] theorem onSupply_plans (s : State) (f : Supply → Supply) : (s.onSupply f).plans = s.plans := rfl
@[simp] theorem onSupply_engine (s : State) (f : Supply → Supply) : (s.onSupply f).engine = s.engine := rfl
@[simp] theorem onSupply_terminals (s : State) (f : Supply → Supply) : (s.onSupply f).terminals = s.terminals := rfl
@[simp] theorem onSupply_sales (s : State) (f : Supply → Supply) : (s.onSupply f).sales = s.sales := rfl
@[simp] theorem onSupply_permits (s : State) (f : Supply → Supply) : (s.onSupply f).permits = s.permits := rfl
@[simp] theorem onSupply_cash (s : State) (f : Supply → Supply) : (s.onSupply f).cash = s.cash := rfl
@[simp] theorem onSupply_groups (s : State) (f : Supply → Supply) : (s.onSupply f).groups = s.groups := rfl
@[simp] theorem onSupply_line (s : State) (f : Supply → Supply) : (s.onSupply f).line = s.line := rfl
@[simp] theorem onSupply_journal (s : State) (f : Supply → Supply) : (s.onSupply f).journal = s.journal := rfl
@[simp] theorem onSupply_office (s : State) (f : Supply → Supply) : (s.onSupply f).office = s.office := rfl
@[simp] theorem onSupply_attention (s : State) (f : Supply → Supply) : (s.onSupply f).attention = s.attention := rfl
@[simp] theorem onSupply_roster (s : State) (f : Supply → Supply) : (s.onSupply f).roster = s.roster := rfl
@[simp] theorem onSupply_service (s : State) (f : Supply → Supply) : (s.onSupply f).service = s.service := rfl
@[simp] theorem onSupply_supply (s : State) (f : Supply → Supply) : (s.onSupply f).supply = f s.supply := rfl
@[simp] theorem onSupply_freeIndex (s : State) (f : Supply → Supply) : (s.onSupply f).freeIndex = s.freeIndex := rfl
@[simp] theorem onSupply_pending (s : State) (f : Supply → Supply) : (s.onSupply f).pending = s.pending := rfl

@[simp] theorem setFreeIndex_calendar (s : State) (n : Nat) : (s.setFreeIndex n).calendar = s.calendar := rfl
@[simp] theorem setFreeIndex_plans (s : State) (n : Nat) : (s.setFreeIndex n).plans = s.plans := rfl
@[simp] theorem setFreeIndex_engine (s : State) (n : Nat) : (s.setFreeIndex n).engine = s.engine := rfl
@[simp] theorem setFreeIndex_terminals (s : State) (n : Nat) : (s.setFreeIndex n).terminals = s.terminals := rfl
@[simp] theorem setFreeIndex_sales (s : State) (n : Nat) : (s.setFreeIndex n).sales = s.sales := rfl
@[simp] theorem setFreeIndex_permits (s : State) (n : Nat) : (s.setFreeIndex n).permits = s.permits := rfl
@[simp] theorem setFreeIndex_cash (s : State) (n : Nat) : (s.setFreeIndex n).cash = s.cash := rfl
@[simp] theorem setFreeIndex_groups (s : State) (n : Nat) : (s.setFreeIndex n).groups = s.groups := rfl
@[simp] theorem setFreeIndex_line (s : State) (n : Nat) : (s.setFreeIndex n).line = s.line := rfl
@[simp] theorem setFreeIndex_journal (s : State) (n : Nat) : (s.setFreeIndex n).journal = s.journal := rfl
@[simp] theorem setFreeIndex_office (s : State) (n : Nat) : (s.setFreeIndex n).office = s.office := rfl
@[simp] theorem setFreeIndex_attention (s : State) (n : Nat) : (s.setFreeIndex n).attention = s.attention := rfl
@[simp] theorem setFreeIndex_roster (s : State) (n : Nat) : (s.setFreeIndex n).roster = s.roster := rfl
@[simp] theorem setFreeIndex_service (s : State) (n : Nat) : (s.setFreeIndex n).service = s.service := rfl
@[simp] theorem setFreeIndex_supply (s : State) (n : Nat) : (s.setFreeIndex n).supply = s.supply := rfl
@[simp] theorem setFreeIndex_freeIndex (s : State) (n : Nat) : (s.setFreeIndex n).freeIndex = n := rfl
@[simp] theorem setFreeIndex_pending (s : State) (n : Nat) : (s.setFreeIndex n).pending = s.pending := rfl

@[simp] theorem setPending_calendar (s : State) (p : List Instr) : (s.setPending p).calendar = s.calendar := rfl
@[simp] theorem setPending_plans (s : State) (p : List Instr) : (s.setPending p).plans = s.plans := rfl
@[simp] theorem setPending_engine (s : State) (p : List Instr) : (s.setPending p).engine = s.engine := rfl
@[simp] theorem setPending_terminals (s : State) (p : List Instr) : (s.setPending p).terminals = s.terminals := rfl
@[simp] theorem setPending_sales (s : State) (p : List Instr) : (s.setPending p).sales = s.sales := rfl
@[simp] theorem setPending_permits (s : State) (p : List Instr) : (s.setPending p).permits = s.permits := rfl
@[simp] theorem setPending_cash (s : State) (p : List Instr) : (s.setPending p).cash = s.cash := rfl
@[simp] theorem setPending_groups (s : State) (p : List Instr) : (s.setPending p).groups = s.groups := rfl
@[simp] theorem setPending_line (s : State) (p : List Instr) : (s.setPending p).line = s.line := rfl
@[simp] theorem setPending_journal (s : State) (p : List Instr) : (s.setPending p).journal = s.journal := rfl
@[simp] theorem setPending_office (s : State) (p : List Instr) : (s.setPending p).office = s.office := rfl
@[simp] theorem setPending_attention (s : State) (p : List Instr) : (s.setPending p).attention = s.attention := rfl
@[simp] theorem setPending_roster (s : State) (p : List Instr) : (s.setPending p).roster = s.roster := rfl
@[simp] theorem setPending_service (s : State) (p : List Instr) : (s.setPending p).service = s.service := rfl
@[simp] theorem setPending_supply (s : State) (p : List Instr) : (s.setPending p).supply = s.supply := rfl
@[simp] theorem setPending_freeIndex (s : State) (p : List Instr) : (s.setPending p).freeIndex = s.freeIndex := rfl
@[simp] theorem setPending_pending (s : State) (p : List Instr) : (s.setPending p).pending = p := rfl

end Sys2Proof.Machine.State
end

