-- ==== Sys2Proof/Laws/Table.lean ====
section
/-!
SUPPORT. The laws of a table: what a lookup finds after each operation, and that every operation keeps the canonical form.
-/

namespace Sys2Proof.Machine

open Sys2Proof

variable {α : Type}

/-! ### Lookups -/

@[simp] theorem Table.find?_nil (k : Nat) : Table.find? k ([] : Table α) = none := rfl

theorem Table.find?_cons (k j : Nat) (v : α) (t : Table α) :
    Table.find? k ((j, v) :: t) = if j = k then some v else Table.find? k t := rfl

theorem Table.find?_put (k j : Nat) (v : α) (t : Table α) :
    Table.find? k (Table.put j v t) = if j = k then some v else Table.find? k t := by
  induction t with
  | nil => simp [Table.put, Table.find?_cons]
  | cons e t ih =>
    obtain ⟨i, w⟩ := e
    simp only [Table.put]
    split
    · simp [Table.find?_cons]
    · split <;> simp only [Table.find?_cons, ih] <;> split <;> simp_all
      intro h; omega

@[simp] theorem Table.find?_put_self (k : Nat) (v : α) (t : Table α) : Table.find? k (Table.put k v t) = some v := by
  simp [Table.find?_put]

@[simp] theorem Table.find?_put_ne {k j : Nat} (h : j ≠ k) (v : α) (t : Table α) :
    Table.find? k (Table.put j v t) = Table.find? k t := by simp [Table.find?_put, h]

theorem Table.find?_modify (k j : Nat) (f : α → α) (t : Table α) :
    Table.find? k (Table.modify j f t) = if j = k then (Table.find? k t).map f else Table.find? k t := by
  induction t with
  | nil => simp [Table.modify]
  | cons e t ih =>
    obtain ⟨i, w⟩ := e
    simp only [Table.modify, List.map_cons] at ih ⊢
    by_cases hij : i = j <;> by_cases hik : i = k <;> simp_all [Table.find?_cons]
    intro h; omega

@[simp] theorem Table.find?_modify_self (k : Nat) (f : α → α) (t : Table α) :
    Table.find? k (Table.modify k f t) = (Table.find? k t).map f := by simp [Table.find?_modify]

@[simp] theorem Table.find?_modify_ne {k j : Nat} (h : j ≠ k) (f : α → α) (t : Table α) :
    Table.find? k (Table.modify j f t) = Table.find? k t := by simp [Table.find?_modify, h]

@[simp] theorem Table.find?_mapAll (k : Nat) (f : α → α) (t : Table α) :
    Table.find? k (Table.mapAll f t) = (Table.find? k t).map f := by
  induction t with
  | nil => rfl
  | cons e t ih =>
    obtain ⟨i, w⟩ := e
    simp only [Table.mapAll, List.map_cons] at ih ⊢
    simp only [Table.find?_cons, ih]
    split <;> rfl

theorem Table.find?_erase (k j : Nat) (t : Table α) :
    Table.find? k (Table.erase j t) = if j = k then none else Table.find? k t := by
  induction t with
  | nil => simp [Table.erase]
  | cons e t ih =>
    obtain ⟨i, w⟩ := e
    simp only [Table.erase, List.filter_cons] at ih ⊢
    by_cases hij : i = j <;> by_cases hik : i = k <;> simp_all [Table.find?_cons]
    intro h; omega

@[simp] theorem Table.find?_erase_self (k : Nat) (t : Table α) : Table.find? k (Table.erase k t) = none := by
  simp [Table.find?_erase]

@[simp] theorem Table.find?_erase_ne {k j : Nat} (h : j ≠ k) (t : Table α) :
    Table.find? k (Table.erase j t) = Table.find? k t := by simp [Table.find?_erase, h]

/-- A lookup finds an entry of the table. -/
theorem Table.mem_of_find? {k : Nat} {v : α} {t : Table α} (h : Table.find? k t = some v) : (k, v) ∈ t := by
  induction t with
  | nil => simp at h
  | cons e t ih =>
    obtain ⟨i, w⟩ := e
    rw [Table.find?_cons] at h
    split at h
    · simp_all
    · exact List.mem_cons_of_mem _ (ih h)

/-- A key is in the table exactly where a lookup finds something. -/
theorem Table.mem_keys_iff {k : Nat} {t : Table α} : k ∈ Table.keys t ↔ (Table.find? k t).isSome := by
  induction t with
  | nil => simp [Table.keys]
  | cons e t ih =>
    obtain ⟨i, w⟩ := e
    simp only [Table.keys, List.map_cons, List.mem_cons, Table.find?_cons] at ih ⊢
    by_cases h : i = k
    · simp [h]
    · simp [h, ih, Ne.symm h]

@[simp] theorem Table.keys_modify (k : Nat) (f : α → α) (t : Table α) : Table.keys (Table.modify k f t) = Table.keys t := by
  simp only [Table.keys, Table.modify, List.map_map]
  exact List.map_congr_left fun e _ => by simp only [Function.comp]; split <;> rfl

@[simp] theorem Table.keys_mapAll (f : α → α) (t : Table α) : Table.keys (Table.mapAll f t) = Table.keys t := by
  simp [Table.keys, Table.mapAll, Function.comp_def]

/-! ### The canonical form -/

/-- The form is that the keys stand in strictly ascending order. -/
theorem Table.wf_iff (t : Table α) : Table.wf t = true ↔ (Table.keys t).Pairwise (· < ·) := by
  induction t with
  | nil => simp [Table.wf, Table.keys]
  | cons e t ih =>
    cases t with
    | nil => simp [Table.wf, Table.keys]
    | cons e' t =>
      simp only [Table.wf, Bool.and_eq_true, decide_eq_true_eq, ih, Table.keys, List.map_cons, List.pairwise_cons,
        List.mem_cons]
      constructor
      · rintro ⟨h, h', h''⟩
        refine ⟨fun a ha => ?_, h', h''⟩
        rcases ha with rfl | ha
        · exact h
        · exact lt_trans h (h' a ha)
      · rintro ⟨h, h', h''⟩
        exact ⟨h _ (.inl rfl), h', h''⟩

/-- The keys after a put: those before, and the key put. -/
theorem Table.mem_keys_put (k j : Nat) (v : α) (t : Table α) :
    k ∈ Table.keys (Table.put j v t) ↔ k = j ∨ k ∈ Table.keys t := by
  simp only [Table.mem_keys_iff, Table.find?_put]
  by_cases h : j = k
  · simp [h]
  · have : ¬k = j := fun e => h e.symm
    simp [h, this]

theorem Table.wf_put (k : Nat) (v : α) (t : Table α) (h : Table.wf t = true) : Table.wf (Table.put k v t) = true := by
  induction t with
  | nil => rfl
  | cons e t ih =>
    obtain ⟨i, w⟩ := e
    rw [Table.wf_iff] at h ih ⊢
    simp only [Table.keys, List.map_cons, List.pairwise_cons] at h
    simp only [Table.put]
    split
    · rename_i hk
      simp only [Table.keys, List.map_cons, List.pairwise_cons, List.mem_cons]
      refine ⟨?_, h⟩
      rintro a (rfl | ha)
      · exact hk
      · exact lt_trans hk (h.1 a ha)
    · split
      · rename_i hk; subst hk
        simpa only [Table.keys, List.map_cons, List.pairwise_cons] using h
      · rename_i h1 h2
        simp only [Table.keys, List.map_cons, List.pairwise_cons]
        refine ⟨fun a ha => ?_, (Table.wf_iff _).1 (ih h.2)⟩
        rcases (Table.mem_keys_put a k v t).1 ha with rfl | ha
        · omega
        · exact h.1 a ha

theorem Table.wf_modify (k : Nat) (f : α → α) (t : Table α) (h : Table.wf t = true) : Table.wf (Table.modify k f t) = true := by
  rw [Table.wf_iff] at h ⊢; simpa using h

theorem Table.wf_mapAll (f : α → α) (t : Table α) (h : Table.wf t = true) : Table.wf (Table.mapAll f t) = true := by
  rw [Table.wf_iff] at h ⊢; simpa using h

theorem Table.wf_erase (k : Nat) (t : Table α) (h : Table.wf t = true) : Table.wf (Table.erase k t) = true := by
  rw [Table.wf_iff] at h ⊢
  exact h.sublist (List.Sublist.map _ List.filter_sublist)

/-- In a canonical table an entry is what a lookup of its key finds. -/
theorem Table.find?_of_mem {k : Nat} {v : α} {t : Table α} (h : Table.wf t = true) (hm : (k, v) ∈ t) :
    Table.find? k t = some v := by
  rw [Table.wf_iff] at h
  induction t with
  | nil => simp at hm
  | cons e t ih =>
    obtain ⟨i, w⟩ := e
    simp only [Table.keys, List.map_cons, List.pairwise_cons] at h
    rcases List.mem_cons.1 hm with h' | h'
    · cases h'; simp [Table.find?_cons]
    · have := h.1 k (List.mem_map.2 ⟨_, h', rfl⟩)
      rw [Table.find?_cons, if_neg (by omega)]
      exact ih h.2 h'

end Sys2Proof.Machine
end

