-- ==== Sys2Proof/Laws/Reacts.lean ====
section
/-!
SUPPORT. `Reacts` is reflexive and transitive, and each operation that derives afresh is such a change: what a statement about a
command needs to know of the Fault Monitor once the command's own effect is done.
-/

namespace Sys2Proof.Machine

open Sys2Proof

/-! ### One terminal -/

theorem any_filter_service (q : List Notice) :
    ((q.filter fun n => !n.body.isService).any fun n => n.body = .reset) = q.any fun n => n.body = .reset := by
  induction q with
  | nil => rfl
  | cons n q ih =>
    cases hb : n.body <;> simp_all [NoticeBody.isService]

theorem Terminal.bare_state {x y : Terminal} (h : y.bare = x.bare) : y.link.state = x.link.state := by
  have := congrArg (fun t : Terminal => t.link.state) h
  exact this

theorem Terminal.bare_reset {x y : Terminal} (h : y.bare = x.bare) :
    (y.link.queue.any fun n => n.body = .reset) = x.link.queue.any fun n => n.body = .reset := by
  have := congrArg (fun t : Terminal => t.link.queue.any fun n => n.body = .reset) h
  simpa only [Terminal.bare, any_filter_service] using this

/-- Among SERVICE notices alone, a new one takes the place of each. -/
theorem notified_all {w : ServiceState} {q : List Notice} (h : ∀ n ∈ q, n.body.isService = true) (hq : q ≠ []) :
    notified NoticeBody.isService (.service w) q = q.map fun _ => { body := .service w, rode := false } := by
  have hr : (q.any fun n => n.body = .reset) = false := by
    rw [List.any_eq_false]
    intro n hn
    have := h n hn
    cases hb : n.body <;> simp_all [NoticeBody.isService]
  have hs : (q.any fun n => n.body.isService) = true := by
    obtain ⟨n, hn⟩ := List.exists_mem_of_ne_nil q hq
    exact List.any_eq_true.mpr ⟨n, hn, h n hn⟩
  rw [notified, hr, hs]
  simp only [Bool.false_eq_true, if_false, if_true]
  exact List.map_congr_left fun n hn => by rw [if_pos (h n hn)]

theorem notified_services (v w : ServiceState) (q : List Notice) :
    notified NoticeBody.isService (.service w) (notified NoticeBody.isService (.service v) (services q))
      = notified NoticeBody.isService (.service w) (services q) := by
  have hs : ∀ n ∈ services q, n.body.isService = true := fun n hn => (List.mem_filter.mp hn).2
  generalize services q = l at hs
  by_cases hl : l = []
  · subst hl; rfl
  · rw [notified_all hs hl, notified_all hs hl, notified_all, List.map_map]
    · rfl
    · intro n hn
      obtain ⟨_, _, rfl⟩ := List.mem_map.mp hn
      rfl
    · simpa using hl

theorem Served.refl (x : Terminal) : Served x x := ⟨rfl, .inl ⟨rfl, .inl rfl⟩⟩

theorem Served.trans {x y z : Terminal} (h : Served x y) (h' : Served y z) : Served x z := by
  refine ⟨h'.rest.trans h.rest, ?_⟩
  have hst := Terminal.bare_state h.rest
  have hre := Terminal.bare_reset h.rest
  rcases h.notice with ⟨hq, hv⟩ | ⟨he, hr, hq⟩ <;> rcases h'.notice with ⟨hq', hv'⟩ | ⟨he', hr', hq'⟩
  · rw [hst, hre] at hv'
    refine .inl ⟨hq'.trans hq, ?_⟩
    rcases hv with hv | hv | hv
    · rcases hv' with hv' | hv'
      · exact .inl (hv'.trans hv)
      · exact .inr hv'
    · exact .inr (.inl hv)
    · exact .inr (.inr hv)
  · rw [hst] at he'; rw [hre] at hr'
    exact .inr ⟨he', hr', by rw [hq', hq]⟩
  · rw [hst, hre] at hv'
    refine .inr ⟨he, hr, ?_⟩
    rcases hv' with hv' | hv' | hv'
    · rw [hq', hq, hv']
    · rw [he] at hv'; cases hv'
    · rw [hr] at hv'; cases hv'
  · exact .inr ⟨he, hr, by rw [hq', hq, notified_services]⟩

/-! ### The journal and one group -/

/-- Cover records told one after another at one moment. -/
def tells (now : Nat) (l : List (Nat × Cover)) (u : State) : State :=
  l.foldl (fun v e => recorded (.coverChange e.1 e.2 now) v) u

theorem tells_congr (now : Nat) (l : List (Nat × Cover)) {u v : State} (hj : v.journal = u.journal)
    (hc : v.calendar = u.calendar) (hs : v.supply = u.supply) : (tells now l v).journal = (tells now l u).journal := by
  induction l generalizing u v with
  | nil => exact hj
  | cons e l ih => exact ih (by simp [recorded, recordNow, hj, hc, hs]) hc hs

theorem tells_calendar (now : Nat) (l : List (Nat × Cover)) (u : State) : (tells now l u).calendar = u.calendar := by
  induction l generalizing u with
  | nil => rfl
  | cons e l ih => exact ih _

theorem tells_supply (now : Nat) (l : List (Nat × Cover)) (u : State) : (tells now l u).supply = u.supply := by
  induction l generalizing u with
  | nil => rfl
  | cons e l ih => exact ih _

theorem tells_append (now : Nat) (l m : List (Nat × Cover)) (u : State) : tells now (l ++ m) u = tells now m (tells now l u) :=
  List.foldl_append

theorem freeSpace_congr {u v : State} (h : v.journal = u.journal) : freeSpace v = freeSpace u := by
  simp only [freeSpace, used, h]

theorem freeSpace_tells (now : Nat) (l : List (Nat × Cover)) (u : State) : freeSpace (tells now l u) = freeSpace u - l.length := by
  induction l generalizing u with
  | nil => rfl
  | cons e l ih =>
    rw [tells, List.foldl_cons, ← tells, ih, List.length_cons]
    simp only [freeSpace, used, recorded, List.length_append, List.length_singleton]
    omega

theorem tells_length (now : Nat) (l : List (Nat × Cover)) (u : State) :
    (tells now l u).journal.records.length = u.journal.records.length + l.length := by
  induction l generalizing u with
  | nil => rfl
  | cons e l ih =>
    rw [tells, List.foldl_cons, ← tells, ih, List.length_cons]
    simp only [recorded, List.length_append, List.length_singleton]
    omega

theorem chain_append {a b : Cover} {l m : List Cover} (h : (a :: l).IsChain (· ≠ ·)) (hb : (a :: l).getLast? = some b)
    (h' : (b :: m).IsChain (· ≠ ·)) : (a :: (l ++ m)).IsChain (· ≠ ·) := by
  rw [← List.cons_append, List.isChain_append]
  refine ⟨h, List.IsChain.tail h', ?_⟩
  intro x hx y hy
  rw [hb] at hx
  cases hx
  cases m with
  | nil => cases hy
  | cons c m =>
    cases hy
    exact (List.isChain_cons_cons.mp h').1

theorem CoverFollows.refl (now : Nat) (full flag : Prop) (a : GroupRecord) : CoverFollows [] now full flag a a := .inl ⟨rfl, rfl⟩

theorem CoverFollows.trans {l m : List Cover} {now : Nat} {full full' flag flag' : Prop} {a b c : GroupRecord}
    (h : CoverFollows l now full flag a b) (h' : CoverFollows m now full' flag' b c) (hf : full → full' ∧ m = [])
    (hg : flag → flag') : CoverFollows (l ++ m) now full' flag' a c := by
  rcases h with ⟨rfl, rfl⟩ | ⟨hs, hflag, hch, hlast⟩
  · exact h'
  · rcases h' with ⟨rfl, rfl⟩ | ⟨hs', hflag', hch', hlast'⟩
    · rw [List.append_nil]
      exact .inr ⟨hs, hg hflag, hch, hlast.imp id fun h => ⟨h.1, (hf h.2).1⟩⟩
    · rcases hlast with ⟨hm, hl⟩ | ⟨hm, hfull⟩
      · refine .inr ⟨hs', hflag', chain_append hch hl hch', ?_⟩
        rcases hlast' with ⟨hm', hl'⟩ | h'
        · refine .inl ⟨hm'.trans hm, ?_⟩
          cases m with
          | nil => simpa using hl.trans hl'
          | cons d m =>
            rw [← List.cons_append, List.getLast?_append, List.getLast?_cons_cons] at *
            simpa using hl'
        · exact .inr h'
      · obtain ⟨hfull', rfl⟩ := hf hfull
        rw [List.append_nil]
        refine .inr ⟨hs', hflag', hch, .inr ⟨?_, hfull'⟩⟩
        rcases hlast' with ⟨hm', -⟩ | ⟨hm', -⟩
        · exact hm'.trans hm
        · exact hm'

/-! ### The flags -/

theorem Flags.or_fields {a b : Flags} (h : a.or b = b) :
    (a.salesHalted = true → b.salesHalted = true) ∧ (a.journalHigh = true → b.journalHigh = true)
      ∧ (a.counts = true → b.counts = true) ∧ (a.clock = true → b.clock = true) ∧ (a.fault = true → b.fault = true)
      ∧ (a.cover = true → b.cover = true) ∧ (a.round = true → b.round = true) ∧ (a.planSwitched = true → b.planSwitched = true)
      ∧ (a.unknownTerminal = true → b.unknownTerminal = true) ∧ (a.restarted = true → b.restarted = true) := by
  rw [← h]
  simp +contextual [Flags.or]

theorem Flags.or_self (a : Flags) : a.or a = a := by simp [Flags.or]

theorem Flags.or_assoc (a b c : Flags) : (a.or b).or c = a.or (b.or c) := by simp [Flags.or, Bool.or_assoc]

theorem Flags.or_trans {a b c : Flags} (h : a.or b = b) (h' : b.or c = c) : a.or c = c := by
  rw [← h', ← Flags.or_assoc, h]

theorem refresh_eq_shown (s : State) : refresh s = shown s := by
  simp only [refresh, shown, State.onAttention, Flags.or, conditions, salesHalted, freeSpace, used, Flags.none, Bool.or_false]
  cases s.cash.collections <;> rfl

theorem shown_shown (s : State) : shown (shown s) = shown s := by
  simp [shown]

/-- Every condition flag whose condition holds is set already. -/
theorem shown_iff (s : State) :
    shown s = s ↔ (freeSpace s ≤ 32 → s.attention.flags.salesHalted = true)
      ∧ (896 ≤ s.journal.records.length → s.attention.flags.journalHigh = true)
      ∧ (s.cash.collections ≠ [] → s.attention.flags.counts = true)
      ∧ (s.calendar.clockSet = false → s.attention.flags.clock = true) := by
  constructor
  · intro h
    have hfl : (shown s).attention.flags = s.attention.flags := by rw [h]
    rw [← hfl]
    refine ⟨fun hf => ?_, fun hf => ?_, fun hf => ?_, fun hf => ?_⟩
    · have : decide (1024 - s.journal.records.length - s.journal.reservation ≤ 32) = true := decide_eq_true hf
      simp only [shown, this, Bool.or_true]
    · simp [shown, hf]
    · simp [shown, hf]
    · simp [shown, hf]
  · rintro ⟨h1, h2, h3, h4⟩
    have e1 : (s.attention.flags.salesHalted || decide (1024 - s.journal.records.length - s.journal.reservation ≤ 32))
        = s.attention.flags.salesHalted := by
      rw [Bool.or_eq_left_iff_imp, decide_eq_true_eq]
      exact h1
    have e2 : (s.attention.flags.journalHigh || decide (896 ≤ s.journal.records.length)) = s.attention.flags.journalHigh := by
      rw [Bool.or_eq_left_iff_imp, decide_eq_true_eq]
      exact h2
    have e3 : (s.attention.flags.counts || decide (s.cash.collections ≠ [])) = s.attention.flags.counts := by
      rw [Bool.or_eq_left_iff_imp, decide_eq_true_eq]
      exact h3
    have e4 : (s.attention.flags.clock || !s.calendar.clockSet) = s.attention.flags.clock := by
      rw [Bool.or_eq_left_iff_imp, Bool.not_eq_true']
      exact h4
    simp only [shown, e1, e2, e3, e4]

theorem append_eq (body : RecordBody) (s : State) : append body s = shown (recorded body s) := by
  rw [append, refresh_eq_shown]
  rfl

/-! ### What reacts is reflexive and transitive -/

namespace Reacts

variable {u v t : State}

theorem calendar (h : Reacts u t) : t.calendar = u.calendar := h.keeps .calendar (by decide)
theorem cash (h : Reacts u t) : t.cash = u.cash := h.keeps .cash (by decide)
theorem supply (h : Reacts u t) : t.supply = u.supply := h.keeps .supply (by decide)

theorem refl (u : State) : Reacts u u where
  keeps b _ := by cases b <;> rfl
  slots _ := rfl
  terminals _ x y hx hy := by
    rw [hx] at hy
    cases hy
    exact .refl x
  groups := rfl
  told := by
    refine ⟨[], rfl, Nat.zero_le _, ?_, fun h => .inl h, fun h => absurd rfl h⟩
    intro g a b ha hb
    rw [ha] at hb
    cases hb
    exact .inl ⟨rfl, rfl⟩
  events := ⟨rfl, rfl, rfl, rfl, rfl⟩
  stands := Flags.or_self _
  conditions := ⟨.inl, .inl, .inl, .inl⟩
  mask := rfl

theorem trans (h : Reacts u v) (h' : Reacts v t) : Reacts u t where
  keeps b hb := by
    have h1 := h.keeps b hb
    have h2 := h'.keeps b hb
    cases b <;> exact Eq.trans h2 h1
  slots k := (h'.slots k).trans (h.slots k)
  terminals k x y hx hy := by
    have hs := h.slots k
    rw [hx] at hs
    obtain ⟨z, hz⟩ := Option.isSome_iff_exists.mp hs
    exact (h.terminals k x z hx hz).trans (h'.terminals k z y hz hy)
  groups := h'.groups.trans h.groups
  told := by
    obtain ⟨l, hj, hl, hc, hf, hs⟩ := h.told
    obtain ⟨m, hj', hm, hc', hf', hs'⟩ := h'.told
    have hcal := h.calendar
    have hcal' := h'.calendar
    have hcov := (Flags.or_fields h'.stands).2.2.2.2.2.1
    rw [hcal] at hj' hc' hf'
    change v.journal = (tells _ l u).journal at hj
    change t.journal = (tells _ m v).journal at hj'
    have hj'' : t.journal = (tells u.calendar.zoneTime (l ++ m) u).journal := by
      rw [hj', tells_append]
      exact tells_congr _ _ hj (hcal.trans (tells_calendar _ _ _).symm) (h.supply.trans (tells_supply _ _ _).symm)
    have hv : freeSpace v = freeSpace u - l.length := by rw [freeSpace_congr hj, freeSpace_tells]
    have ht : freeSpace t = freeSpace v - m.length := by rw [freeSpace_congr hj', freeSpace_tells]
    have find : ∀ g b, Table.find? g v.groups = some b → ∃ c, Table.find? g t.groups = some c := by
      intro g b hb
      have : g ∈ Table.keys t.groups := by rw [h'.groups, Table.mem_keys_iff, hb]; rfl
      exact Option.isSome_iff_exists.mp (Table.mem_keys_iff.mp this)
    refine ⟨l ++ m, hj'', by simp only [List.length_append]; omega, ?_, ?_, ?_⟩
    · intro g a c ha hcg
      have : g ∈ Table.keys v.groups := by rw [h.groups, Table.mem_keys_iff, ha]; rfl
      obtain ⟨b, hb⟩ := Option.isSome_iff_exists.mp (Table.mem_keys_iff.mp this)
      rw [List.filter_append, List.map_append]
      refine (hc g a b ha hb).trans (hc' g b c hb hcg) (fun hz => ⟨by omega, ?_⟩) hcov
      have : m = [] := List.eq_nil_of_length_eq_zero (by omega)
      rw [this]
      rfl
    · intro hcv
      rcases hf' hcv with hcv | hne | h3
      · rcases hf hcv with h1 | hne | ⟨g, b, hb, hs1, hs2⟩
        · exact .inl h1
        · exact .inr (.inl (by simp [hne]))
        · obtain ⟨c, hcg⟩ := find g b hb
          refine .inr (.inr ⟨g, c, hcg, ?_⟩)
          rcases hc' g b c hb hcg with ⟨-, rfl⟩ | ⟨hs3, -, -, ⟨hm3, -⟩ | ⟨hm3, -⟩⟩
          · exact ⟨hs1, hs2⟩
          · exact ⟨hs3, hm3.trans hs2⟩
          · exact ⟨hs3, hm3⟩
      · exact .inr (.inl (by simp [hne]))
      · exact .inr (.inr h3)
    · intro hne
      by_cases hm0 : m = []
      · subst hm0
        have hl0 : l ≠ [] := by simpa using hne
        have hjt : t.journal = v.journal := hj'
        obtain ⟨f1, f2, f3, f4, -⟩ := Flags.or_fields h'.stands
        obtain ⟨g1, g2, g3, g4⟩ := (shown_iff v).mp (hs hl0)
        rw [shown_iff, freeSpace_congr hjt, hjt, h'.cash, h'.calendar]
        exact ⟨fun h => f1 (g1 h), fun h => f2 (g2 h), fun h => f3 (g3 h), fun h => f4 (g4 h)⟩
      · exact hs' hm0
  events := by
    obtain ⟨a1, a2, a3, a4, a5⟩ := h.events
    obtain ⟨b1, b2, b3, b4, b5⟩ := h'.events
    exact ⟨b1.trans a1, b2.trans a2, b3.trans a3, b4.trans a4, b5.trans a5⟩
  stands := Flags.or_trans h.stands h'.stands
  conditions := by
    obtain ⟨a1, a2, a3, a4⟩ := h.conditions
    obtain ⟨b1, b2, b3, b4⟩ := h'.conditions
    have hc := h'.cash
    have hcal := h'.calendar
    obtain ⟨m, hj', -⟩ := h'.told
    change t.journal = (tells _ m v).journal at hj'
    have hfree : freeSpace t ≤ freeSpace v := by rw [freeSpace_congr hj', freeSpace_tells]; omega
    have hlen : v.journal.records.length ≤ t.journal.records.length := by
      rw [hj', tells_length]
      omega
    refine ⟨fun h => (b1 h).elim (fun h => (a1 h).imp id (by omega)) .inr,
      fun h => (b2 h).elim (fun h => (a2 h).imp id (by omega)) .inr, fun h => (b3 h).elim (fun h => (a3 h).imp id ?_) .inr,
      fun h => (b4 h).elim (fun h => (a4 h).imp id ?_) .inr⟩
    · rw [hc]; exact id
    · rw [hcal]; exact id
  mask := h'.mask.trans h.mask

theorem foldl {β : Type} (f : State → β → State) (hf : ∀ s b, Reacts s (f s b)) (l : List β) (s : State) :
    Reacts s (l.foldl f s) := by
  induction l generalizing s with
  | nil => exact .refl s
  | cons b l ih => exact (hf s b).trans (ih _)

theorem forEach (f : Nat → State → State) (hf : ∀ k s, Reacts s (f k s)) (s : State) : Reacts s (forEachSlot f s) :=
  foldl _ (fun s k => hf k s) _ s

/-- One slot's record changes within what `Served` allows. -/
theorem onTerminal {slot : Nat} {f : Terminal → Terminal} {u : State}
    (hf : ∀ x, Machine.terminal u slot = some x → Served x (f x)) : Reacts u (Machine.onTerminal slot f u) where
  keeps b hb := by cases b <;> first | rfl | exact absurd (by decide) hb
  slots k := by
    simp only [Machine.terminal, Machine.onTerminal, State.onTerminals_terminals, Table.find?_modify]
    split <;> simp
  terminals k x y hx hy := by
    simp only [Machine.terminal, Machine.onTerminal, State.onTerminals_terminals, Table.find?_modify] at hx hy
    by_cases hk : slot = k
    · subst hk
      simp only [if_true, hx, Option.map_some, Option.some.injEq] at hy
      subst hy
      exact hf x hx
    · simp only [hk, if_false, hx, Option.some.injEq] at hy
      subst hy
      exact .refl x
  groups := rfl
  told := by
    refine ⟨[], rfl, Nat.zero_le _, ?_, fun h => .inl h, fun h => absurd rfl h⟩
    intro g a b ha hb
    rw [show (Machine.onTerminal slot f u).groups = u.groups from rfl, ha] at hb
    cases hb
    exact .inl ⟨rfl, rfl⟩
  events := ⟨rfl, rfl, rfl, rfl, rfl⟩
  stands := Flags.or_self _
  conditions := (Reacts.refl u).conditions
  mask := rfl

end Reacts

/-! ### The operations -/

theorem modify_modify {α : Type} (k : Nat) (f g : α → α) (t : Table α) :
    Table.modify k f (Table.modify k g t) = Table.modify k (fun x => f (g x)) t := by
  simp only [Table.modify, List.map_map]
  refine List.map_congr_left fun e _ => ?_
  by_cases h : e.1 = k <;> simp [h]

theorem onTerminal_onTerminal (k : Nat) (f g : Terminal → Terminal) (s : State) :
    onTerminal k f (onTerminal k g s) = onTerminal k (fun x => f (g x)) s := by
  simp only [onTerminal, State.onTerminals, modify_modify]

theorem joinQueue_eq (sort : NoticeBody → Bool) (body : NoticeBody) (q : List Notice) :
    joinQueue sort body q = notified sort body q := by
  have : holds NoticeBody.isReset q = q.any fun n => n.body = .reset := by
    simp only [holds]
    congr 1
    funext n
    cases n.body <;> simp [NoticeBody.isReset]
  rw [joinQueue, notified, this, holds]

/-- A SERVICE notice that is queued stands among the SERVICE notices as it would alone, and no other notice moves. -/
theorem notified_split (v : ServiceState) (q : List Notice) (h : (q.any fun n => n.body = .reset) = false) :
    services (notified NoticeBody.isService (.service v) q) = notified NoticeBody.isService (.service v) (services q)
      ∧ ((notified NoticeBody.isService (.service v) q).filter fun n => !n.body.isService)
        = q.filter fun n => !n.body.isService := by
  have hr : ((services q).any fun n => n.body = .reset) = false := by
    rw [List.any_eq_false] at h ⊢
    exact fun n hn => h n (List.mem_filter.mp hn).1
  have ha : ((services q).any fun n => n.body.isService) = q.any fun n => n.body.isService := by
    simp [services, List.any_filter]
  have hs : ∀ n : Notice, (if n.body.isService then ({ body := .service v, rode := false } : Notice) else n).body.isService
      = n.body.isService := by
    intro n
    split
    · rename_i h'
      exact h'.symm
    · rfl
  simp only [notified, h, hr, ha, Bool.false_eq_true, if_false]
  split
  · constructor
    · simp only [services, List.filter_map, Function.comp_def, hs]
    · rw [List.filter_map]
      simp only [Function.comp_def, hs]
      conv => rhs; rw [← List.map_id (q.filter fun n => !n.body.isService)]
      refine List.map_congr_left fun n hn => ?_
      have := (List.mem_filter.mp hn).2
      simp only [Bool.not_eq_true'] at this
      simp [this]
  · constructor
    · simp [services, List.filter_append, NoticeBody.isService]
    · simp [List.filter_append, NoticeBody.isService]

theorem holdService_reacts (slot : Nat) (s : State) : Reacts s (holdService slot s) := by
  unfold holdService
  split
  · exact .refl s
  · rename_i t ht
    dsimp only
    split
    · exact .refl s
    · split
      · rename_i he
        unfold queueService onQueue onLink onWatch
        rw [onTerminal_onTerminal]
        refine .onTerminal fun x hx => ?_
        rw [ht] at hx
        cases hx
        dsimp only
        rw [joinQueue_eq]
        cases hr : t.link.queue.any fun n => n.body = .reset with
        | true =>
          have hq : notified NoticeBody.isService (.service (serviceOf s t)) t.link.queue = t.link.queue := by
            rw [notified, hr, if_pos rfl]
          rw [hq]
          exact ⟨rfl, .inl ⟨rfl, .inr (.inr hr)⟩⟩
        | false =>
          obtain ⟨h1, h2⟩ := notified_split (serviceOf s t) t.link.queue hr
          refine ⟨?_, .inr ⟨he, hr, h1⟩⟩
          simp only [Terminal.bare, h2]
      · rename_i he
        refine .onTerminal fun x hx => ?_
        rw [ht] at hx
        cases hx
        exact ⟨rfl, .inl ⟨rfl, .inr (.inl (by simpa using he))⟩⟩

theorem recorded_congr {b : RecordBody} {u v : State} (hj : v.journal = u.journal) (hc : v.calendar = u.calendar)
    (hs : v.supply = u.supply) : (recorded b v).journal = (recorded b u).journal := by
  simp [recorded, recordNow, hj, hc, hs]

/-- One group's cover changes, and is told by a record, or by the mark where there is no room. -/
theorem takeCover_reacts (g : Nat) (s : State) : Reacts s (takeCover g s) := by
  unfold takeCover
  split
  · exact .refl s
  · rename_i r hr
    dsimp only
    split
    · exact .refl s
    · rename_i hne
      split
      · rename_i hfull
        have hfull : freeSpace s = 0 := hfull
        refine
          { keeps := fun b hb => by cases b <;> first | rfl | exact absurd (by decide) hb
            slots := fun _ => rfl
            terminals := (Reacts.refl s).terminals
            groups := by simp [raise]
            told := ⟨[], rfl, Nat.zero_le _, ?_, fun _ => .inr (.inr ⟨g, { cover := coverOf g s, since := s.calendar.zoneTime, mark := true }, ?_, rfl, rfl⟩), fun h => absurd rfl h⟩
            events := ⟨rfl, rfl, rfl, rfl, rfl⟩
            stands := by simp [raise, Flags.set, Flags.or]
            conditions := ⟨.inl, .inl, .inl, .inl⟩
            mask := rfl }
        · intro k a b ha hb
          simp only [State.onGroups_groups, raise, State.onAttention_groups, modify_modify, Table.find?_modify] at hb
          by_cases hk : g = k
          · subst hk
            rw [ha] at hb
            simp only [if_true, Option.map_some, Option.some.injEq] at hb
            subst hb
            exact .inr ⟨rfl, rfl, .singleton _, .inr ⟨rfl, hfull⟩⟩
          · rw [if_neg hk, ha] at hb
            cases hb
            exact .inl ⟨rfl, rfl⟩
        · simp only [State.onGroups_groups, raise, State.onAttention_groups, modify_modify, Table.find?_modify, hr, if_true,
            Option.map_some]
      · rename_i hroom
        have hroom : freeSpace s ≠ 0 := hroom
        rw [append_eq]
        refine
          { keeps := fun b hb => by cases b <;> first | rfl | exact absurd (by decide) hb
            slots := fun _ => rfl
            terminals := (Reacts.refl s).terminals
            groups := by simp [raise, shown, recorded]
            told := ⟨[(g, coverOf g s)], rfl, by simp only [List.length_singleton]; omega, ?_, fun _ => .inr (.inl (by simp)), fun _ => shown_shown _⟩
            events := ⟨rfl, rfl, rfl, rfl, rfl⟩
            stands := ?_
            conditions := ?_
            mask := rfl }
        · intro k a b ha hb
          simp only [shown, recorded, State.onGroups_groups, raise, State.onAttention_groups, Table.find?_modify] at hb
          by_cases hk : g = k
          · subst hk
            rw [ha] at hb
            rw [hr] at ha
            cases ha
            simp only [if_true, Option.map_some, Option.some.injEq] at hb
            subst hb
            refine .inr ⟨rfl, rfl, ?_, .inl ⟨rfl, ?_⟩⟩
            · simp only [decide_true, List.filter_cons_of_pos, List.filter_nil, List.map_cons, List.map_nil]
              exact List.isChain_pair.mpr fun h => hne h.symm
            · simp
          · rw [if_neg hk, ha] at hb
            cases hb
            refine .inl ⟨by simp [hk], rfl⟩
        · simp [shown, recorded, raise, Flags.set, Flags.or]
        · exact ⟨fun h => ((Bool.or_eq_true _ _).mp h).imp id of_decide_eq_true,
            fun h => ((Bool.or_eq_true _ _).mp h).imp id of_decide_eq_true,
            fun h => ((Bool.or_eq_true _ _).mp h).imp id of_decide_eq_true,
            fun h => ((Bool.or_eq_true _ _).mp h).imp id fun h => (Bool.not_eq_true' _).mp h⟩

theorem deriveOnce_reacts (s : State) : Reacts s (deriveOnce s) :=
  (Reacts.forEach _ holdService_reacts s).trans (.foldl _ (fun s g => takeCover_reacts g s) _ _)

theorem reactToRise_reacts (before : Bool) (s : State) : Reacts s (reactToRise before s) := by
  unfold reactToRise
  split
  · exact deriveOnce_reacts s
  · exact .refl s

theorem cover_reacts (g : Nat) (s : State) : Reacts s (cover g s) := (takeCover_reacts g s).trans (reactToRise_reacts _ _)

theorem deriveService_reacts (slot : Nat) (s : State) : Reacts s (deriveService slot s) := by
  unfold deriveService
  split
  · exact .refl s
  · split
    · exact .refl s
    · exact (holdService_reacts slot s).trans (cover_reacts _ _)

theorem coverAll_reacts (s : State) : Reacts s (coverAll s) := .foldl _ (fun s g => cover_reacts g s) _ s

theorem deriveAll_reacts (s : State) : Reacts s (deriveAll s) :=
  (Reacts.forEach _ holdService_reacts s).trans (coverAll_reacts _)

theorem haltChanged_reacts (before : Bool) (s : State) : Reacts s (haltChanged before s) := by
  unfold haltChanged
  split
  · exact .refl s
  · exact deriveAll_reacts s

/-! ### Faults -/

/-- What reacts to a state reacts to any state that looks the same slot by slot. -/
theorem Reacts.of_same {u u' t : State} (hk : Keeps [.terminals] u u') (hl : ∀ k, terminal u' k = terminal u k)
    (h : Reacts u t) : Reacts u' t := by
  have hg : u'.groups = u.groups := hk .groups (by decide)
  have hj : u'.journal = u.journal := hk .journal (by decide)
  have ha : u'.attention = u.attention := hk .attention (by decide)
  have hc : u'.calendar = u.calendar := hk .calendar (by decide)
  have hs : u'.supply = u.supply := hk .supply (by decide)
  obtain ⟨l, h1, h2, h3, h4, h5⟩ := h.told
  exact
    { keeps := fun b hb => by
        have e1 := h.keeps b hb
        have e2 := hk b (by revert hb; cases b <;> decide)
        cases b <;> exact e1.trans e2.symm
      slots := fun k => by rw [hl, h.slots]
      terminals := fun k x y hx hy => h.terminals k x y (hl k ▸ hx) hy
      groups := by rw [hg, h.groups]
      told := ⟨l, by rw [hc, h1]; exact (tells_congr _ l hj hc hs).symm, by rw [freeSpace_congr hj]; exact h2,
        by rw [hg, hc]; exact h3, by rw [ha, hc]; exact h4, h5⟩
      events := by rw [ha]; exact h.events
      stands := by rw [ha]; exact h.stands
      conditions := by rw [ha]; exact h.conditions
      mask := by rw [ha]; exact h.mask }

theorem FaultTable.set_get (f : FaultTable) (k : FaultKind) : f.set (f.get k) k = f := by cases k <;> rfl

theorem reported_same {present : Bool} {now : Nat} {r : FaultRecord} (h : r.state.present = present) : r.reported present now = r :=
  if_pos h

theorem reported_rise {now : Nat} {r : FaultRecord} (h : r.state.present = false) :
    r.reported true now = { state := r.state.rise, changed := now } := by
  cases hs : r.state <;> simp_all [FaultRecord.reported, FaultState.present, FaultState.rise]

theorem reported_fall {now : Nat} {r : FaultRecord} (h : r.state.present = true) :
    r.reported false now = { state := r.state.fall, changed := now } := by
  cases hs : r.state <;> simp_all [FaultRecord.reported, FaultState.present, FaultState.fall]

/-- A change of one slot's record that leaves the record found there as it is changes nothing that a lookup sees. -/
theorem onTerminal_same {slot : Nat} {f : Terminal → Terminal} {s : State} {x : Terminal} (h : terminal s slot = some x)
    (hf : f x = x) (k : Nat) : terminal (onTerminal slot f s) k = terminal s k := by
  simp only [terminal, onTerminal, State.onTerminals_terminals, Table.find?_modify] at h ⊢
  split
  · rename_i e
    subst e
    rw [h, Option.map_some, hf]
  · rfl

/-- Two changes that agree on the record found there look the same. -/
theorem onTerminal_agree {slot : Nat} {f g : Terminal → Terminal} {s : State} {x : Terminal} (h : terminal s slot = some x)
    (hf : f x = g x) (k : Nat) : terminal (onTerminal slot f s) k = terminal (onTerminal slot g s) k := by
  simp only [terminal, onTerminal, State.onTerminals_terminals, Table.find?_modify] at h ⊢
  split
  · rename_i e
    subst e
    rw [h, Option.map_some, Option.map_some, hf]
  · rfl

theorem conditionRises_reacts (slot : Nat) (k : FaultKind) (s : State) :
    Reacts (reportFault slot k true s) (conditionRises slot k s) := by
  cases hx : terminal s slot with
  | none =>
    simp only [reportFault, conditionRises, hx]
    exact .refl s
  | some x =>
    simp only [reportFault, conditionRises, hx]
    cases hp : x.watch.faults.present k with
    | true =>
      have hp' : (x.watch.faults.get k).state.present = true := hp
      rw [if_neg (by rw [hp']; simp), if_pos rfl]
      refine .of_same (fun b hb => by cases b <;> first | rfl | exact absurd (by decide) hb) (onTerminal_same hx ?_) (.refl s)
      rw [Terminal.onFault, reported_same hp', FaultTable.set_get]
    | false =>
      have hp' : (x.watch.faults.get k).state.present = false := hp
      rw [if_pos ⟨trivial, hp'⟩, if_neg (by simp)]
      refine .of_same (u := raise .fault (setFault slot k (x.watch.faults.get k).state.rise s)) ?_ ?_ (deriveService_reacts _ _)
      · exact fun b hb => by cases b <;> first | rfl | exact absurd (by decide) hb
      · exact onTerminal_agree (f := Terminal.onFault k (FaultRecord.reported true s.calendar.zoneTime))
          (g := Terminal.onFault k fun _ => { state := (x.watch.faults.get k).state.rise, changed := s.calendar.zoneTime }) hx
          (by rw [Terminal.onFault, reported_rise hp', Terminal.onFault])

theorem conditionEnds_reacts (slot : Nat) (k : FaultKind) (s : State) :
    Reacts (reportFault slot k false s) (conditionEnds slot k s) := by
  cases hx : terminal s slot with
  | none =>
    simp only [reportFault, conditionEnds, hx]
    exact .refl s
  | some x =>
    simp only [reportFault, conditionEnds, hx]
    rw [if_neg (by simp)]
    cases hp : x.watch.faults.present k with
    | true =>
      have hp' : (x.watch.faults.get k).state.present = true := hp
      rw [if_pos rfl]
      refine .of_same (u := setFault slot k (x.watch.faults.get k).state.fall s) ?_ ?_ (deriveService_reacts _ _)
      · exact fun b hb => by cases b <;> first | rfl | exact absurd (by decide) hb
      · refine onTerminal_agree hx ?_
        rw [Terminal.onFault, reported_fall hp']
    | false =>
      have hp' : (x.watch.faults.get k).state.present = false := hp
      rw [if_neg (by simp)]
      refine .of_same (fun b hb => by cases b <;> first | rfl | exact absurd (by decide) hb) (onTerminal_same hx ?_) (.refl s)
      rw [Terminal.onFault, reported_same hp', FaultTable.set_get]

/-- A condition that is reported as it stands moves its fault record, sets FAULT where it rises, and the Fault Monitor follows. -/
theorem reportCondition_reacts (slot : Nat) (k : FaultKind) (present : Bool) (s : State) :
    Reacts (reportFault slot k present s) (reportCondition slot k present s) := by
  unfold reportCondition
  cases present
  · exact conditionEnds_reacts slot k s
  · exact conditionRises_reacts slot k s

/-- An event-kind fault that is raised is LATCHED, and FAULT is set. -/
theorem raiseEventFault_reacts (slot : Nat) (k : FaultKind) (s : State) :
    Reacts (raiseFault slot k s) (raiseEventFault slot k s) := by
  cases hx : terminal s slot with
  | none =>
    simp only [raiseFault, raiseEventFault, hx]
    exact .refl s
  | some x =>
    simp only [raiseFault, raiseEventFault, hx]
    exact .of_same (u := raise .fault (setFault slot k .latched s)) (fun b _ => by cases b <;> rfl)
      (fun _ => rfl) (.refl _)

end Sys2Proof.Machine
end

