-- ==== Sys2Proof/Laws/Accept.lean ====
section
/-!
SUPPORT. What considering a slot for sleep does, in the words of the statements, and what follows the status word of an ACCEPT: one
slot's record told and considered, and beyond that only deriving afresh.
-/

namespace Sys2Proof.Machine

open Sys2Proof

/-! ### A queue beside its SERVICE notices -/

theorem any_without_service (p : Notice → Bool) (hp : ∀ n : Notice, p n = true → n.body.isService = false) (q : List Notice) :
    (q.filter fun n => !n.body.isService).any p = q.any p := by
  rw [List.any_filter]
  congr 1
  funext n
  by_cases h : p n = true
  · simp [h, hp n h]
  · simp [h]

/-- A TIME that is queued leaves the SERVICE notices, and stands among the others as it would without them. -/
theorem notified_time_split (body : NoticeBody) (hb : body.isTime = true) (q : List Notice) :
    services (notified NoticeBody.isTime body q) = services q
      ∧ ((notified NoticeBody.isTime body q).filter fun n => !n.body.isService)
        = notified NoticeBody.isTime body (q.filter fun n => !n.body.isService) := by
  have ht : ∀ b : NoticeBody, b.isTime = true → b.isService = false := by
    intro b
    cases b <;> simp [NoticeBody.isTime, NoticeBody.isService]
  have hs : ∀ n : Notice, (if n.body.isTime then ({ body := body, rode := false } : Notice) else n).body.isService
      = n.body.isService := by
    intro n
    split
    · rename_i h
      simp [ht n.body h, ht body hb]
    · rfl
  have e1 := any_without_service (fun n => decide (n.body = .reset))
    (by intro n h; simp only [decide_eq_true_eq] at h; simp [h, NoticeBody.isService]) q
  have e2 := any_without_service (fun n => n.body.isTime) (fun n => ht n.body) q
  simp only [notified, e1, e2]
  split
  · exact ⟨rfl, rfl⟩
  · split
    · refine ⟨?_, by simp only [List.filter_map, Function.comp_def, hs]⟩
      simp only [services, List.filter_map, Function.comp_def, hs]
      conv => rhs; rw [← List.map_id (q.filter fun n => n.body.isService)]
      refine List.map_congr_left fun n hn => if_neg fun hc => ?_
      simp [ht n.body hc] at hn
    · constructor <;> simp [services, List.filter_append, ht body hb]

/-- Queueing a notice other than RESET neither brings a RESET nor takes one. -/
theorem notified_reset (sort : NoticeBody → Bool) (body : NoticeBody) (hb : body ≠ .reset) (q : List Notice) :
    ((notified sort body q).any fun n => n.body = .reset) = q.any fun n => n.body = .reset := by
  unfold notified
  split
  · rfl
  · rename_i h
    rw [Bool.not_eq_true] at h
    rw [h]
    split
    · rw [List.any_eq_false] at h ⊢
      intro n hn
      obtain ⟨m, hm, rfl⟩ := List.mem_map.mp hn
      split
      · simpa using hb
      · exact h m hm
    · simp [h, hb]

/-- A change of the queue that leaves its SERVICE notices, and does the same to the others on both sides, keeps `Served`. -/
theorem Served.onQueue {x y : Terminal} (f : List Notice → List Notice) (hs : ∀ q, services (f q) = services q)
    (hb : (f y.link.queue).filter (fun n => !n.body.isService) = (f x.link.queue).filter fun n => !n.body.isService)
    (hr : ((f x.link.queue).any fun n => n.body = .reset) = x.link.queue.any fun n => n.body = .reset) (h : Served x y) :
    Served { x with link := { x.link with queue := f x.link.queue } }
      { y with link := { y.link with queue := f y.link.queue } } := by
  refine ⟨?_, ?_⟩
  · have := h.rest
    simp only [Terminal.bare] at this ⊢
    rw [hb]
    rcases x with ⟨_, ⟨⟩, ⟨⟩, _⟩
    rcases y with ⟨_, ⟨⟩, ⟨⟩, _⟩
    simp_all
  · rcases h.notice with ⟨a, b⟩ | ⟨a, b, c⟩
    · exact .inl ⟨by simp [hs, a], b.imp id (.imp id fun b => hr.trans b)⟩
    · exact .inr ⟨a, hr.trans b, by simp [hs, c]⟩

theorem Served.queue {x y : Terminal} (h : Served x y) :
    y.link.queue.filter (fun n => !n.body.isService) = x.link.queue.filter fun n => !n.body.isService :=
  congrArg (fun t : Terminal => t.link.queue) h.rest

/-- A terminal that is told a TIME on both sides. -/
theorem Served.toldTime (body : NoticeBody) (hb : body.isTime = true) {x y : Terminal} (h : Served x y) :
    Served (x.told NoticeBody.isTime body) (y.told NoticeBody.isTime body) := by
  have split := notified_time_split body hb
  refine .onQueue (notified NoticeBody.isTime body) (fun q => (split q).1) ?_ (notified_reset _ _ ?_ _) h
  · rw [(split _).2, (split _).2, h.queue]
  · rintro rfl
    cases hb

/-! ### Considering a slot for sleep (R146) -/

/-- The conditions on which a terminal considered for sleep gets SLEEP. -/
abbrev SleepDue (now : Nat) (x : Terminal) : Prop :=
  x.link.state = .active ∧ (∃ c ∈ x.link.caps, c.keyWake = true) ∧ FreeLong now x.segment ∧ x.quote = .none
    ∧ x.watch.door = .closed ∧ ∀ n ∈ x.link.queue, n.body ≠ .sleep ∧ n.body ≠ .reset

theorem SleepDue.noReset {now : Nat} {x : Terminal} (h : SleepDue now x) :
    (x.link.queue.any fun n => n.body = .reset) = false := by
  rw [List.any_eq_false]
  intro n hn
  simpa using (h.2.2.2.2.2 n hn).2

/-- Neither the service state nor a SERVICE notice bears on sleep. -/
theorem Served.sleepDue {now : Nat} {x y : Terminal} (h : Served x y) : SleepDue now y ↔ SleepDue now x := by
  have bare (z : Terminal) : SleepDue now z.bare ↔ SleepDue now z := by
    have hq : (∀ n ∈ z.link.queue.filter (fun n => !n.body.isService), n.body ≠ .sleep ∧ n.body ≠ .reset)
        ↔ ∀ n ∈ z.link.queue, n.body ≠ .sleep ∧ n.body ≠ .reset := by
      refine ⟨fun h n hn => ?_, fun h n hn => h n (List.mem_filter.mp hn).1⟩
      by_cases hs : n.body.isService = true
      · revert hs
        cases n.body <;> simp [NoticeBody.isService]
      · exact h n (List.mem_filter.mpr ⟨hn, by simpa using hs⟩)
    simp only [SleepDue, Terminal.bare, hq]
  rw [← bare y, h.rest, bare x]

theorem Served.considered (now : Nat) {x y : Terminal} (h : Served x y) : Served (x.considered now) (y.considered now) := by
  unfold Terminal.considered
  by_cases hx : SleepDue now x
  · rw [if_pos hx, if_pos (h.sleepDue.mpr hx)]
    refine .onQueue (fun q => q ++ [{ body := .sleep, rode := false }]) (fun q => ?_) ?_ ?_ h
    · simp [services, List.filter_append, NoticeBody.isService]
    · simp [List.filter_append, h.queue]
    · simp
  · rw [if_neg hx, if_neg fun hy => hx (h.sleepDue.mp hy)]
    exact h

theorem maySleep_iff (now : Nat) (x : Terminal) : maySleep now x = true ↔ SleepDue now x := by
  have hcap : (x.link.caps.map (·.keyWake)).getD false = true ↔ ∃ c ∈ x.link.caps, c.keyWake = true := by
    cases x.link.caps <;> simp
  have hseg : sleepSegment now x.segment = true ↔ FreeLong now x.segment := by
    cases x.segment
    · simp [sleepSegment, FreeLong]
    · simp [sleepSegment, FreeLong, Config.sleepSeconds, -decide_eq_true_eq]
      exact and_congr decide_eq_true_iff decide_eq_true_iff
  have hq : (!holds NoticeBody.isSleep x.link.queue) = true ∧ (!holds NoticeBody.isReset x.link.queue) = true
      ↔ ∀ n ∈ x.link.queue, n.body ≠ .sleep ∧ n.body ≠ .reset := by
    have hb : ∀ b : NoticeBody, (b.isSleep = true ↔ b = .sleep) ∧ (b.isReset = true ↔ b = .reset) := by
      intro b
      cases b <;> simp [NoticeBody.isSleep, NoticeBody.isReset]
    simp only [holds, Bool.not_eq_true', List.any_eq_false, (hb _).1, (hb _).2]
    exact ⟨fun h n hn => ⟨h.1 n hn, h.2 n hn⟩, fun h => ⟨fun n hn => (h n hn).1, fun n hn => (h n hn).2⟩⟩
  simp only [maySleep, SleepDue, Bool.and_eq_true, hcap, hseg, decide_eq_true_eq, ← hq, and_assoc]

/-- Two changes that agree on the record they meet, if there is one, look the same. -/
theorem onTerminal_congr {slot : Nat} {f g : Terminal → Terminal} {s : State} (h : ∀ x, terminal s slot = some x → f x = g x)
    (k : Nat) : terminal (onTerminal slot f s) k = terminal (onTerminal slot g s) k := by
  simp only [terminal, onTerminal, State.onTerminals_terminals, Table.find?_modify] at h ⊢
  split
  · rename_i e
    subst e
    cases hx : Table.find? slot s.terminals with
    | none => rfl
    | some x => simp [h x hx]
  · rfl

theorem onTerminal_id (slot : Nat) (s : State) (k : Nat) : terminal (onTerminal slot id s) k = terminal s k := by
  simp only [terminal, onTerminal, State.onTerminals_terminals, Table.find?_modify]
  split <;> simp

/-- Considering a slot for sleep changes its record as `Terminal.considered` says, and nothing else. -/
theorem considerSleep_reacts (slot : Nat) (s : State) :
    Reacts (onTerminal slot (Terminal.considered s.calendar.zoneTime) s) (considerSleep slot s) := by
  unfold considerSleep
  split
  · rename_i hn
    refine .of_same ?_ (fun k => (onTerminal_congr (by simp [hn]) k).trans (onTerminal_id slot s k)) (.refl s)
    intro b hb
    cases b <;> first | rfl | exact absurd (by decide) hb
  · rename_i x hx
    have due := maySleep_iff s.calendar.zoneTime x
    split
    · rename_i hm
      have hd := due.mp hm
      have hs : (x.link.queue.any fun n => n.body.isSleep) = false := by
        rw [List.any_eq_false]
        intro n hn
        have := (hd.2.2.2.2.2 n hn).1
        revert this
        cases n.body <;> simp [NoticeBody.isSleep]
      have told : x.considered s.calendar.zoneTime
          = { x with link := { x.link with queue := joinQueue NoticeBody.isSleep .sleep x.link.queue } } := by
        rw [Terminal.considered, if_pos hd, joinQueue_eq, notified, hd.noReset, hs]
        rfl
      refine .of_same ?_ (fun k => onTerminal_agree hx told k)
        (.refl (onTerminal slot (fun t =>
          { t with link := { t.link with queue := joinQueue NoticeBody.isSleep .sleep t.link.queue } }) s))
      intro b hb
      cases b <;> first | rfl | exact absurd (by decide) hb
    · rename_i hm
      have same : x.considered s.calendar.zoneTime = x := if_neg fun hd => hm (due.mpr hd)
      refine .of_same ?_ (onTerminal_same hx same) (.refl s)
      intro b hb
      cases b <;> first | rfl | exact absurd (by decide) hb

/-! ### What follows the status word of an ACCEPT (R144) -/

/-- The same change of one slot's record before and after deriving afresh. -/
theorem reacts_onBoth {u t : State} (slot : Nat) (g : Terminal → Terminal) (hg : ∀ x y, Served x y → Served (g x) (g y))
    (h : Reacts u t) : Reacts (onTerminal slot g u) (onTerminal slot g t) := by
  have find (s : State) (k : Nat) :
      terminal (onTerminal slot g s) k = if slot = k then (terminal s k).map g else terminal s k := by
    simp only [terminal, onTerminal, State.onTerminals_terminals, Table.find?_modify]
  obtain ⟨l, h1, h2, h3, h4, h5⟩ := h.told
  exact
    { keeps := fun b hb => by
        have := h.keeps b hb
        cases b <;> first | exact this | exact absurd (by decide) hb
      slots := fun k => by
        rw [find, find]
        split <;> simp [h.slots]
      terminals := fun k x y hx hy => by
        rw [find] at hx hy
        split at hx
        · rename_i e
          rw [if_pos e] at hy
          obtain ⟨a, ha, rfl⟩ := Option.map_eq_some_iff.mp hx
          obtain ⟨b, hb, rfl⟩ := Option.map_eq_some_iff.mp hy
          exact hg _ _ (h.terminals k a b ha hb)
        · rename_i e
          rw [if_neg e] at hy
          exact h.terminals k x y hx hy
      groups := h.groups
      told := ⟨l, h1.trans (tells_congr (u := u) (v := onTerminal slot g u) _ l rfl rfl rfl).symm, h2, h3, h4,
        fun hl => (shown_iff _).mpr ((shown_iff t).mp (h5 hl))⟩
      events := h.events
      stands := h.stands
      conditions := h.conditions
      mask := h.mask }

/-- The slot is told the TIME it was owed and considered for sleep; beyond that only its service state is derived afresh. -/
theorem acceptSlot_reacts (slot : Nat) (owed : Bool) (s : State) :
    Reacts
      (onTerminal slot
        (fun x =>
          (if owed then x.told NoticeBody.isTime (.time s.calendar.zoneTime s.calendar.offset s.calendar.clockSet)
            else x).considered s.calendar.zoneTime) s)
      (acceptSlot slot owed s) := by
  have h := deriveService_reacts slot s
  have hc : (deriveService slot s).calendar = s.calendar := h.calendar
  unfold acceptSlot
  cases owed
  · have sleeps := considerSleep_reacts slot (deriveService slot s)
    rw [hc] at sleeps
    exact (reacts_onBoth slot _ (fun _ _ hxy => hxy.considered _) h).trans sleeps
  · have told {x y : Terminal} (hxy : Served x y) :=
      Served.toldTime (.time s.calendar.zoneTime s.calendar.offset s.calendar.clockSet) rfl hxy
    have sleeps := considerSleep_reacts slot (queueTime slot (deriveService slot s))
    have hq : queueTime slot (deriveService slot s)
        = onTerminal slot
            (Terminal.told NoticeBody.isTime (.time s.calendar.zoneTime s.calendar.offset s.calendar.clockSet))
            (deriveService slot s) := by
      simp only [queueTime, onQueue, onLink, hc, joinQueue_eq]
      rfl
    rw [hq] at sleeps
    rw [show (onTerminal slot (Terminal.told NoticeBody.isTime _) (deriveService slot s)).calendar = s.calendar from hc,
      onTerminal_onTerminal, ← hq] at sleeps
    exact (reacts_onBoth slot _ (fun _ _ hxy => (told hxy).considered _) h).trans sleeps

end Sys2Proof.Machine
end

