-- ==== Sys2Proof/Laws/Derives.lean ====
section
/-!
SUPPORT. Everything that deriving afresh can do. `Derives R s s'` says that `s'` comes from `s` by changes of terminals within the
relation `R`, changes of group records, cover records appended while there is room, and event flags raised. Each shared operation
of the Fault Monitor and of the segments has one lemma that says it is such a change; what follows from it is proved once.
-/

namespace Sys2Proof.Machine

open Sys2Proof

/-! ### What a change of a terminal may touch -/

/-- At most the notice queue, the service state and the fault records change. -/
def Noted (t t' : Terminal) : Prop :=
  ∃ q v f, t' = { t with link := { t.link with queue := q }, watch := { t.watch with service := v, faults := f } }

/-- At most the segment, the notice queue, the service state and the fault records change. -/
def Placed (t t' : Terminal) : Prop :=
  ∃ g q v f, t' =
    { t with segment := g, link := { t.link with queue := q }, watch := { t.watch with service := v, faults := f } }

theorem Noted.refl (t : Terminal) : Noted t t := ⟨t.link.queue, t.watch.service, t.watch.faults, rfl⟩

theorem Noted.trans {a b c : Terminal} (h : Noted a b) (h' : Noted b c) : Noted a c := by
  obtain ⟨q, v, f, rfl⟩ := h; obtain ⟨q', v', f', rfl⟩ := h'; exact ⟨q', v', f', rfl⟩

theorem Noted.placed {a b : Terminal} (h : Noted a b) : Placed a b := by
  obtain ⟨q, v, f, rfl⟩ := h; exact ⟨a.segment, q, v, f, rfl⟩

theorem Placed.refl (t : Terminal) : Placed t t := (Noted.refl t).placed

theorem Placed.trans {a b c : Terminal} (h : Placed a b) (h' : Placed b c) : Placed a c := by
  obtain ⟨g, q, v, f, rfl⟩ := h; obtain ⟨g', q', v', f', rfl⟩ := h'; exact ⟨g', q', v', f', rfl⟩

theorem Noted.cash {t t' : Terminal} (h : Noted t t') : t'.cash = t.cash := by obtain ⟨_, _, _, rfl⟩ := h; rfl
theorem Placed.cash {t t' : Terminal} (h : Placed t t') : t'.cash = t.cash := by obtain ⟨_, _, _, _, rfl⟩ := h; rfl
theorem Noted.quote {t t' : Terminal} (h : Noted t t') : t'.quote = t.quote := by obtain ⟨_, _, _, rfl⟩ := h; rfl
theorem Placed.quote {t t' : Terminal} (h : Placed t t') : t'.quote = t.quote := by obtain ⟨_, _, _, _, rfl⟩ := h; rfl
theorem Noted.config {t t' : Terminal} (h : Noted t t') : t'.config = t.config := by obtain ⟨_, _, _, rfl⟩ := h; rfl
theorem Placed.config {t t' : Terminal} (h : Placed t t') : t'.config = t.config := by obtain ⟨_, _, _, _, rfl⟩ := h; rfl
theorem Noted.plans {t t' : Terminal} (h : Noted t t') : t'.plans = t.plans := by obtain ⟨_, _, _, rfl⟩ := h; rfl
theorem Placed.plans {t t' : Terminal} (h : Placed t t') : t'.plans = t.plans := by obtain ⟨_, _, _, _, rfl⟩ := h; rfl
theorem Noted.segment {t t' : Terminal} (h : Noted t t') : t'.segment = t.segment := by obtain ⟨_, _, _, rfl⟩ := h; rfl
theorem Noted.linkState {t t' : Terminal} (h : Noted t t') : t'.link.state = t.link.state := by
  obtain ⟨_, _, _, rfl⟩ := h; rfl
theorem Placed.linkState {t t' : Terminal} (h : Placed t t') : t'.link.state = t.link.state := by
  obtain ⟨_, _, _, _, rfl⟩ := h; rfl

/-! ### The relation -/

/-- `s'` comes from `s` by deriving afresh. -/
inductive Derives (R : Terminal → Terminal → Prop) (s : State) : State → Prop
  | refl : Derives R s s
  | terminal {s'} (slot : Nat) (f : Terminal → Terminal) (hf : ∀ t, R t (f t)) :
      Derives R s s' → Derives R s (onTerminal slot f s')
  | group {s'} (g : Nat) (f : GroupRecord → GroupRecord) : Derives R s s' → Derives R s (s'.onGroups (Table.modify g f))
  | record {s'} (g : Nat) (c : Cover) (since : Nat) :
      freeSpace s' ≠ 0 → Derives R s s' → Derives R s (append (.coverChange g c since) s')
  | raised {s'} (f : Flag) : Derives R s s' → Derives R s (raise f s')

namespace Derives

variable {R R' : Terminal → Terminal → Prop} {s s' s'' : State}

theorem trans (h : Derives R s s') (h' : Derives R s' s'') : Derives R s s'' := by
  induction h' with
  | refl => exact h
  | terminal slot f hf _ ih => exact ih.terminal slot f hf
  | group g f _ ih => exact ih.group g f
  | record g c since hr _ ih => exact ih.record g c since hr
  | raised f _ ih => exact ih.raised f

theorem mono (hR : ∀ t t', R t t' → R' t t') (h : Derives R s s') : Derives R' s s' := by
  induction h with
  | refl => exact .refl
  | terminal slot f hf _ ih => exact ih.terminal slot f fun t => hR _ _ (hf t)
  | group g f _ ih => exact ih.group g f
  | record g c since hr _ ih => exact ih.record g c since hr
  | raised f _ ih => exact ih.raised f

theorem placed (h : Derives Noted s s') : Derives Placed s s' := h.mono fun _ _ => Noted.placed

theorem foldl {β : Type} (f : State → β → State) (hf : ∀ s b, Derives R s (f s b)) (l : List β) (s : State) :
    Derives R s (l.foldl f s) := by
  induction l generalizing s with
  | nil => exact .refl
  | cons b l ih => exact (hf s b).trans (ih _)

theorem forEach (f : Nat → State → State) (hf : ∀ k s, Derives R s (f k s)) (s : State) : Derives R s (forEachSlot f s) :=
  foldl _ (fun s k => hf k s) _ s

/-! ### What follows from it, once -/

/-- Everything but the terminals, the group records, the journal and the attention flags is as it was. -/
theorem rest (h : Derives R s s') :
    s' = { s with terminals := s'.terminals, groups := s'.groups, journal := s'.journal, attention := s'.attention } := by
  induction h with
  | refl => rfl
  | terminal slot f _ _ ih => rw [ih]; rfl
  | group g f _ ih => rw [ih]; rfl
  | record g c since _ _ ih => rw [ih]; rfl
  | raised f _ ih => rw [ih]; rfl

theorem calendar (h : Derives R s s') : s'.calendar = s.calendar := by rw [h.rest]
theorem planStore (h : Derives R s s') : s'.plans = s.plans := by rw [h.rest]
theorem engine (h : Derives R s s') : s'.engine = s.engine := by rw [h.rest]
theorem sales (h : Derives R s s') : s'.sales = s.sales := by rw [h.rest]
theorem permits (h : Derives R s s') : s'.permits = s.permits := by rw [h.rest]
theorem cash (h : Derives R s s') : s'.cash = s.cash := by rw [h.rest]
theorem line (h : Derives R s s') : s'.line = s.line := by rw [h.rest]
theorem office (h : Derives R s s') : s'.office = s.office := by rw [h.rest]
theorem roster (h : Derives R s s') : s'.roster = s.roster := by rw [h.rest]
theorem service (h : Derives R s s') : s'.service = s.service := by rw [h.rest]
theorem supply (h : Derives R s s') : s'.supply = s.supply := by rw [h.rest]
theorem freeIndex (h : Derives R s s') : s'.freeIndex = s.freeIndex := by rw [h.rest]
theorem pending (h : Derives R s s') : s'.pending = s.pending := by rw [h.rest]

theorem keys (h : Derives R s s') : Table.keys s'.terminals = Table.keys s.terminals := by
  induction h with
  | refl => rfl
  | terminal slot f _ _ ih => simp [onTerminal, ih]
  | group g f _ ih => simpa using ih
  | record g c since _ _ ih => simpa [append, refresh] using ih
  | raised f _ ih => simpa [raise] using ih

theorem groupKeys (h : Derives R s s') : Table.keys s'.groups = Table.keys s.groups := by
  induction h with
  | refl => rfl
  | terminal slot f _ _ ih => simpa [onTerminal] using ih
  | group g f _ ih => simp [ih]
  | record g c since _ _ ih => simpa [append, refresh] using ih
  | raised f _ ih => simpa [raise] using ih

/-- A slot that is configured stays so, its record changed within `R`. -/
theorem terminal_of (hr : ∀ t, R t t) (ht : ∀ a b c, R a b → R b c → R a c) (h : Derives R s s') {k : Nat} {t : Terminal}
    (hk : Machine.terminal s k = some t) : ∃ t', Machine.terminal s' k = some t' ∧ R t t' := by
  induction h with
  | refl => exact ⟨t, hk, hr t⟩
  | terminal slot f hf _ ih =>
    obtain ⟨t', h', hR⟩ := ih
    simp only [Machine.terminal, onTerminal, State.onTerminals_terminals, Table.find?_modify] at h' ⊢
    by_cases hs : slot = k
    · exact ⟨f t', by simp [hs, h'], ht _ _ _ hR (hf t')⟩
    · exact ⟨t', by simp [hs, h'], hR⟩
  | group g f _ ih => exact ih
  | record g c since _ _ ih => exact ih
  | raised f _ ih => exact ih

/-- A slot that is EMPTY stays so. -/
theorem terminal_none (h : Derives R s s') {k : Nat} (hk : Machine.terminal s k = none) : Machine.terminal s' k = none := by
  have := Table.mem_keys_iff (k := k) (t := s'.terminals)
  rw [h.keys, Table.mem_keys_iff] at this
  simp only [Machine.terminal] at hk ⊢
  simp only [hk, Option.isSome_none] at this
  cases h' : Table.find? k s'.terminals <;> simp_all

/-- Every entry of the terminals comes from the entry of its slot, changed within `R`. -/
theorem entries (hr : ∀ t, R t t) (ht : ∀ a b c, R a b → R b c → R a c) (h : Derives R s s') {e : Nat × Terminal}
    (he : e ∈ s'.terminals) : ∃ t, (e.1, t) ∈ s.terminals ∧ R t e.2 := by
  induction h generalizing e with
  | refl => exact ⟨e.2, he, hr _⟩
  | terminal slot f hf _ ih =>
    simp only [onTerminal, State.onTerminals_terminals, Table.modify, List.mem_map] at he
    obtain ⟨e', he', rfl⟩ := he
    obtain ⟨t, h1, h2⟩ := ih he'
    split
    · exact ⟨t, h1, ht _ _ _ h2 (hf _)⟩
    · exact ⟨t, h1, h2⟩
  | group g f _ ih => exact ih he
  | record g c since _ _ ih => exact ih he
  | raised f _ ih => exact ih he

/-- The journal only gains records, and its reservation stands. -/
theorem journal (h : Derives R s s') :
    (∃ more, s'.journal.records = s.journal.records ++ more) ∧ s'.journal.reservation = s.journal.reservation := by
  induction h with
  | refl => exact ⟨⟨[], by simp⟩, rfl⟩
  | terminal slot f _ _ ih => exact ih
  | group g f _ ih => exact ih
  | record g c since _ _ ih =>
    obtain ⟨⟨more, hm⟩, hres⟩ := ih
    refine ⟨?_, ?_⟩
    · simp only [append, refresh, State.onAttention_journal, State.onJournal_journal, hm, List.append_assoc]
      exact ⟨_, rfl⟩
    · simpa [append, refresh] using hres
  | raised f _ ih => exact ih

/-- Used and reserved entries stay within the journal. -/
theorem room (h : Derives R s s') (hs : used s + s.journal.reservation ≤ Config.journalCapacity) :
    used s' + s'.journal.reservation ≤ Config.journalCapacity := by
  induction h with
  | refl => exact hs
  | terminal slot f _ _ ih => exact ih
  | group g f _ ih => exact ih
  | record g c since hr _ ih =>
    simp only [freeSpace, used] at hr ih ⊢
    simp only [append, refresh, State.onAttention_journal, State.onJournal_journal, List.length_append,
      List.length_singleton]
    omega
  | raised f _ ih => exact ih

end Derives

/-! ### The operations -/

theorem onQueue_derives (slot : Nat) (f : List Notice → List Notice) (s : State) : Derives Noted s (onQueue slot f s) :=
  .terminal slot _ (fun t => ⟨f t.link.queue, t.watch.service, t.watch.faults, rfl⟩) .refl

theorem queueTime_derives (slot : Nat) (s : State) : Derives Noted s (queueTime slot s) := onQueue_derives _ _ _

theorem holdService_derives (slot : Nat) (s : State) : Derives Noted s (holdService slot s) := by
  unfold holdService
  split
  · exact .refl
  · rename_i t _
    dsimp only
    split
    · exact .refl
    · have h : Derives Noted s (onWatch slot (fun w => { w with service := serviceOf s t }) s) :=
        .terminal slot _ (fun t' => ⟨t'.link.queue, serviceOf s t, t'.watch.faults, rfl⟩) .refl
      split
      · exact h.trans (onQueue_derives _ _ _)
      · exact h

theorem takeCover_derives {R : Terminal → Terminal → Prop} (g : Nat) (s : State) : Derives R s (takeCover g s) := by
  unfold takeCover
  split
  · exact .refl
  · dsimp only
    split
    · exact .refl
    · have h : ∀ f, Derives R s (raise .cover (s.onGroups (Table.modify g f))) := fun f =>
        (Derives.group g f .refl).raised .cover
      split
      · exact (h _).group g _
      · rename_i hne
        exact (h _).record _ _ _ hne

theorem deriveOnce_derives (s : State) : Derives Noted s (deriveOnce s) :=
  (Derives.forEach _ holdService_derives s).trans (Derives.foldl _ (fun s g => takeCover_derives g s) _ _)

theorem reactToRise_derives (before : Bool) (s : State) : Derives Noted s (reactToRise before s) := by
  unfold reactToRise
  split
  · exact deriveOnce_derives s
  · exact .refl

theorem cover_derives (g : Nat) (s : State) : Derives Noted s (cover g s) :=
  (takeCover_derives g s).trans (reactToRise_derives _ _)

theorem deriveService_derives (slot : Nat) (s : State) : Derives Noted s (deriveService slot s) := by
  unfold deriveService
  split
  · exact .refl
  · split
    · exact .refl
    · exact (holdService_derives slot s).trans (cover_derives _ _)

theorem coverAll_derives (s : State) : Derives Noted s (coverAll s) := Derives.foldl _ (fun s g => cover_derives g s) _ s

theorem deriveAll_derives (s : State) : Derives Noted s (deriveAll s) :=
  (Derives.forEach _ holdService_derives s).trans (coverAll_derives _)

theorem haltChanged_derives (before : Bool) (s : State) : Derives Noted s (haltChanged before s) := by
  unfold haltChanged
  split
  · exact .refl
  · exact deriveAll_derives s

theorem appendOwed_derives {R : Terminal → Terminal → Prop} (s : State) : Derives R s (appendOwed s) := by
  refine Derives.foldl _ (fun s g => ?_) _ s
  split
  · exact .refl
  · split
    · rename_i hne
      simp only [Bool.and_eq_true, decide_eq_true_eq] at hne
      exact Derives.record _ _ _ hne.2 (Derives.group g _ .refl)
    · exact .refl

theorem spaceRose_derives (free : Nat) (halted : Bool) (s : State) : Derives Noted s (spaceRose free halted s) := by
  unfold spaceRose
  split
  · exact (appendOwed_derives s).trans (haltChanged_derives _ _)
  · exact haltChanged_derives _ _

theorem setFault_derives (slot : Nat) (k : FaultKind) (st : FaultState) (s : State) : Derives Noted s (setFault slot k st s) :=
  .terminal slot _ (fun t => ⟨t.link.queue, t.watch.service, t.watch.faults.set _ k, rfl⟩) .refl

theorem conditionRises_derives (slot : Nat) (k : FaultKind) (s : State) : Derives Noted s (conditionRises slot k s) := by
  unfold conditionRises
  split
  · exact .refl
  · split
    · exact .refl
    · exact ((setFault_derives _ _ _ _).raised _).trans (deriveService_derives _ _)

theorem conditionEnds_derives (slot : Nat) (k : FaultKind) (s : State) : Derives Noted s (conditionEnds slot k s) := by
  unfold conditionEnds
  split
  · exact .refl
  · split
    · exact (setFault_derives _ _ _ _).trans (deriveService_derives _ _)
    · exact .refl

theorem reportCondition_derives (slot : Nat) (k : FaultKind) (present : Bool) (s : State) :
    Derives Noted s (reportCondition slot k present s) := by
  unfold reportCondition
  split
  · exact conditionRises_derives _ _ _
  · exact conditionEnds_derives _ _ _

theorem raiseEventFault_derives (slot : Nat) (k : FaultKind) (s : State) : Derives Noted s (raiseEventFault slot k s) := by
  unfold raiseEventFault
  split
  · exact .refl
  · exact (setFault_derives _ _ _ _).raised _

theorem considerSleep_derives (slot : Nat) (s : State) : Derives Noted s (considerSleep slot s) := by
  unfold considerSleep
  split
  · exact .refl
  · split
    · exact onQueue_derives _ _ _
    · exact .refl

theorem deliverBoundary_derives (slot : Nat) (s : State) : Derives Noted s (deliverBoundary slot s) := by
  unfold deliverBoundary
  split
  · exact .refl
  · exact ((onQueue_derives _ _ _).trans (considerSleep_derives _ _)).trans (cover_derives _ _)

theorem refind_derives (slot : Nat) (s : State) : Derives Placed s (refind slot s) := by
  unfold refind
  split
  · exact .refl
  · dsimp only
    split
    · exact .refl
    · rename_i t _ _
      refine Derives.trans ?_ ((deliverBoundary_derives _ _).mono fun _ _ => Noted.placed)
      exact .terminal slot _ (fun t' => ⟨_, t'.link.queue, t'.watch.service, t'.watch.faults, rfl⟩) .refl

theorem refindAll_derives (s : State) : Derives Placed s (refindAll s) := Derives.forEach _ refind_derives s

end Sys2Proof.Machine
end

