-- ==== Sys2Proof/Laws/Accounts.lean ====
section
/-!
SUPPORT. What a command can do to the accounts: the terminals' cash fields, the Cash Unit, the journal and the registered deadline.
`Accounts s s'` lists every way in which they change; each shared operation has one lemma that says it is a chain of these, and
Laws/Steps.lean says so of every command. A law of the accounts is then proved by one induction over a handful of cases.
-/

namespace Sys2Proof.Machine

open Sys2Proof

/-- The slots with their cash fields. -/
def purses (ts : Table Terminal) : List (Nat × CashFields) := ts.map fun e => (e.1, e.2.cash)

/-- The accounts are the same. -/
structure SameAccounts (s t : State) : Prop where
  purses : purses t.terminals = purses s.terminals
  cash : t.cash = s.cash
  journal : t.journal = s.journal
  deadline : t.calendar.deadline = s.calendar.deadline

/-- `s'` comes from `s` by changes of the accounts that the spec lists. -/
inductive Accounts (s : State) : State → Prop
  | refl : Accounts s s
  /-- Nothing of the accounts changes. -/
  | same {s' t} : SameAccounts s' t → Accounts s s' → Accounts s t
  /-- A slot is configured (R164). -/
  | configured {s'} (slot : Nat) (c : TerminalConfig) :
      terminal s' slot = none → Accounts s s' →
      Accounts s (s'.onTerminals (Table.put slot (newTerminal c s'.calendar.zoneTime s'.calendar.uptime)))
  /-- A slot that is in no open round is removed (R113). -/
  | removed {s'} (slot : Nat) :
      inRound slot s' = false → Accounts s s' → Accounts s (s'.onTerminals (Table.erase slot))
  /-- A record is appended from the unreserved free space (R156, R158). -/
  | record {s'} (body : RecordBody) : freeSpace s' ≠ 0 → Accounts s s' → Accounts s (append body s')
  /-- A sale's tender joins a terminal's account (R96). -/
  | sale {s'} (slot : Nat) (coins : Six) (card : Nat) :
      Accounts s s' → Accounts s (onTerminal slot (fun t => { t with cash := t.cash.sale coins card }) s')
  /-- A tally is cut on a PENDING entry of the open round (R104). -/
  | cut {s'} (slot key : Nat) (t : Terminal) (r : Round) (e : RoundEntry) :
      s'.cash.round = some r → roundEntry r slot = some e → e.state = .pending → terminal s' slot = some t →
      Accounts s s' → Accounts s (cutTally slot key t r s')
  /-- A round opens over the round list (R101). -/
  | opened {s'} (collector key : Nat) :
      s'.cash.round = none → roundFits s' (roundList s').length = true → Accounts s s' →
      Accounts s (recordRound collector key (roundList s') s')
  /-- The open round closes (R107). -/
  | closed {s'} (r : Round) : s'.cash.round = some r → Accounts s s' → Accounts s (closeRoundCore r s')
  /-- A deadline is delivered with no round open (R11). -/
  | undue {s'} :
      s'.cash.round = none → Accounts s s' → Accounts s (s'.onCalendar fun c => { c with deadline := none })
  /-- A collection record is reconciled and leaves the list (R110). -/
  | counted {s'} (number : Nat) :
      Accounts s s' →
      Accounts s (s'.onCash fun k => { k with collections := k.collections.filter fun x => x.number ≠ number })
  /-- Records are acknowledged (R160). -/
  | acked {s'} (n : Nat) : Accounts s s' → Accounts s (s'.onJournal fun j => { j with records := j.records.drop n })
  /-- The denomination list or the tolerance is set (R95, R109). -/
  | settings {s'} (d : Six) (tolerance : Nat) :
      tolerance ≤ 1000 ∨ tolerance = s'.cash.tolerance → Accounts s s' → Accounts s (s'.onCash fun c => { c with denominations := d, tolerance := tolerance })
  /-- A cold start (R181). -/
  | cold (straps : Straps) (t : State) : SameAccounts (State.cold straps) t → Accounts s t

theorem SameAccounts.refl (s : State) : SameAccounts s s := ⟨rfl, rfl, rfl, rfl⟩

theorem SameAccounts.trans {a b c : State} (h : SameAccounts a b) (h' : SameAccounts b c) : SameAccounts a c :=
  ⟨h'.purses.trans h.purses, h'.cash.trans h.cash, h'.journal.trans h.journal, h'.deadline.trans h.deadline⟩

/-- A change of one terminal that keeps its cash fields keeps the accounts. -/
theorem purses_modify (slot : Nat) (f : Terminal → Terminal) (hf : ∀ t, (f t).cash = t.cash) (ts : Table Terminal) :
    purses (Table.modify slot f ts) = purses ts := by
  simp only [purses, Table.modify, List.map_map]
  refine List.map_congr_left fun e _ => ?_
  simp only [Function.comp]
  split <;> simp [hf]

/-- A change of every terminal that keeps its cash fields keeps the accounts. -/
theorem purses_mapAll (f : Terminal → Terminal) (hf : ∀ t, (f t).cash = t.cash) (ts : Table Terminal) :
    purses (Table.mapAll f ts) = purses ts := by
  simp [purses, Table.mapAll, Function.comp_def, hf]

theorem SameAccounts.onTerminal (slot : Nat) (f : Terminal → Terminal) (hf : ∀ t, (f t).cash = t.cash) (s : State) :
    SameAccounts s (onTerminal slot f s) := ⟨purses_modify slot f hf _, rfl, rfl, rfl⟩

namespace Accounts

variable {s s' s'' : State}

theorem trans (h : Accounts s s') (h' : Accounts s' s'') : Accounts s s'' := by
  induction h' with
  | refl => exact h
  | same hs _ ih => exact ih.same hs
  | configured slot c hn _ ih => exact ih.configured slot c hn
  | removed slot hr _ ih => exact ih.removed slot hr
  | record body hf _ ih => exact ih.record body hf
  | sale slot coins card _ ih => exact ih.sale slot coins card
  | cut slot key t r e h1 h2 h3 h4 _ ih => exact ih.cut slot key t r e h1 h2 h3 h4
  | opened collector key h1 h2 _ ih => exact ih.opened collector key h1 h2
  | closed r h1 _ ih => exact ih.closed r h1
  | undue h1 _ ih => exact ih.undue h1
  | counted number _ ih => exact ih.counted number
  | acked n _ ih => exact ih.acked n
  | settings d tolerance ht _ ih => exact ih.settings d tolerance ht
  | cold straps t ht => exact .cold straps t ht

/-- The chain read from its last change. -/
theorem after (h' : Accounts s' s'') (h : Accounts s s') : Accounts s s'' := h.trans h'

theorem of_same (h : SameAccounts s s') : Accounts s s' := .same h .refl

/-- A change that leaves terminals, Cash Unit, journal and calendar alone. -/
theorem of_eq (ht : s'.terminals = s.terminals) (hc : s'.cash = s.cash) (hj : s'.journal = s.journal)
    (hd : s'.calendar.deadline = s.calendar.deadline) : Accounts s s' :=
  of_same ⟨by rw [ht], hc, hj, hd⟩

theorem onTerminal (slot : Nat) (f : Terminal → Terminal) (hf : ∀ t, (f t).cash = t.cash) (s : State) :
    Accounts s (onTerminal slot f s) := of_same (.onTerminal slot f hf s)

theorem mapAll (f : Terminal → Terminal) (hf : ∀ t, (f t).cash = t.cash) (s : State) :
    Accounts s (s.onTerminals (Table.mapAll f)) := of_same ⟨purses_mapAll f hf _, rfl, rfl, rfl⟩

theorem onLink (slot : Nat) (f : Link → Link) (s : State) : Accounts s (onLink slot f s) :=
  onTerminal slot (fun t => { t with link := f t.link }) (fun _ => rfl) s
theorem onWatch (slot : Nat) (f : Watch → Watch) (s : State) : Accounts s (onWatch slot f s) :=
  onTerminal slot (fun t => { t with watch := f t.watch }) (fun _ => rfl) s
theorem onQueue (slot : Nat) (f : List Notice → List Notice) (s : State) : Accounts s (onQueue slot f s) := onLink _ _ _
theorem onPlans (f) (s : State) : Accounts s (s.onPlans f) := of_eq rfl rfl rfl rfl
theorem onEngine (f) (s : State) : Accounts s (s.onEngine f) := of_eq rfl rfl rfl rfl
theorem onSales (f) (s : State) : Accounts s (s.onSales f) := of_eq rfl rfl rfl rfl
theorem onPermits (f) (s : State) : Accounts s (s.onPermits f) := of_eq rfl rfl rfl rfl
theorem onGroups (f) (s : State) : Accounts s (s.onGroups f) := of_eq rfl rfl rfl rfl
theorem onLine (f) (s : State) : Accounts s (s.onLine f) := of_eq rfl rfl rfl rfl
theorem onOffice (f) (s : State) : Accounts s (s.onOffice f) := of_eq rfl rfl rfl rfl
theorem onAttention (f) (s : State) : Accounts s (s.onAttention f) := of_eq rfl rfl rfl rfl
theorem onRoster (f) (s : State) : Accounts s (s.onRoster f) := of_eq rfl rfl rfl rfl
theorem onService (f) (s : State) : Accounts s (s.onService f) := of_eq rfl rfl rfl rfl
theorem onSupply (f) (s : State) : Accounts s (s.onSupply f) := of_eq rfl rfl rfl rfl
theorem raise (f : Flag) (s : State) : Accounts s (raise f s) := onAttention _ _
theorem refresh (s : State) : Accounts s (refresh s) := onAttention _ _
theorem onCalendar (f : Calendar → Calendar) (s : State) (hf : (f s.calendar).deadline = s.calendar.deadline) :
    Accounts s (s.onCalendar f) := of_eq rfl rfl rfl hf

theorem foldl {β : Type} (f : State → β → State) (hf : ∀ s b, Accounts s (f s b)) (l : List β) (s : State) :
    Accounts s (l.foldl f s) := by
  induction l generalizing s with
  | nil => exact .refl
  | cons b l ih => exact (hf s b).trans (ih _)

theorem forEach (f : Nat → State → State) (hf : ∀ k s, Accounts s (f k s)) (s : State) : Accounts s (forEachSlot f s) :=
  foldl _ (fun s k => hf k s) _ s

end Accounts

/-- Deriving afresh only appends cover records. -/
theorem Derives.accounts {R : Terminal → Terminal → Prop} (hR : ∀ t t', R t t' → t'.cash = t.cash) {s s' : State}
    (h : Derives R s s') : Accounts s s' := by
  induction h with
  | refl => exact .refl
  | terminal slot f hf _ ih => exact ih.trans (.onTerminal _ _ (fun t => hR _ _ (hf t)) _)
  | group g f _ ih => exact ih.trans (.onGroups _ _)
  | record g c since hr _ ih => exact ih.record _ hr
  | raised f _ ih => exact ih.trans (.raise _ _)

theorem Derives.accountsN {s s' : State} (h : Derives Noted s s') : Accounts s s' := h.accounts fun _ _ => Noted.cash
theorem Derives.accountsP {s s' : State} (h : Derives Placed s s') : Accounts s s' := h.accounts fun _ _ => Placed.cash

/-! ### The shared operations -/

theorem setQuote_accounts (slot : Nat) (q : QuoteSlot) (s : State) : Accounts s (setQuote slot q s) :=
  .onTerminal slot (fun t => { t with quote := q }) (fun _ => rfl) s

theorem setClosed_accounts (slot : Nat) (c : Option ClosedQuote) (s : State) : Accounts s (setClosed slot c s) :=
  .onTerminal slot (fun t => { t with closed := c }) (fun _ => rfl) s

theorem timeForAll_accounts (s : State) : Accounts s (timeForAll s) := by
  refine .forEach _ (fun k s => ?_) s
  split
  · exact .refl
  · split
    · exact .onQueue _ _ _
    · split
      · exact .onLink _ _ _
      · exact .refl

theorem takeSwitch_accounts (slot : Nat) (s : State) : Accounts s (takeSwitch slot s) := by
  unfold takeSwitch
  split
  · exact .refl
  · split
    · split
      · exact .after (.raise _ _) (.onTerminal _ _ (by intro; rfl) _)
      · exact .refl
    · exact .refl

theorem beginWalk_accounts (s : State) : Accounts s (beginWalk s) := by
  unfold beginWalk
  split
  · exact (Accounts.onEngine _ _).trans (setQuote_accounts _ _ _)
  · exact .refl

theorem releaseQuote_accounts (slot : Nat) (q : OpenQuote) (s : State) : Accounts s (releaseQuote slot q s) := by
  unfold releaseQuote
  split
  · exact .onPermits _ _
  · exact .refl

theorem considerSleep_accounts (slot : Nat) (s : State) : Accounts s (considerSleep slot s) :=
  (considerSleep_derives slot s).accountsN

theorem endQuote_accounts (slot : Nat) (s : State) : Accounts s (endQuote slot s) := by
  unfold endQuote
  split
  · exact .refl
  · dsimp only
    refine Accounts.trans (.onQueue slot _ s) (?_ : Accounts (withdrawResult slot s) _)
    split
    · exact .refl
    · exact (Accounts.onEngine _ _).trans ((setQuote_accounts _ _ _).trans (considerSleep_accounts _ _))
    · exact (Accounts.onEngine _ _).trans ((setQuote_accounts _ _ _).trans (considerSleep_accounts _ _))
    · exact (releaseQuote_accounts _ _ _).trans ((setQuote_accounts _ _ _).trans (considerSleep_accounts _ _))

theorem expireQuote_accounts (slot : Nat) (q : OpenQuote) (s : State) : Accounts s (expireQuote slot q s) :=
  (releaseQuote_accounts _ _ _).trans ((setQuote_accounts _ _ _).trans ((setClosed_accounts _ _ _).trans
    ((Accounts.onQueue _ _ _).trans (considerSleep_accounts _ _))))

theorem supersede_accounts (slot : Nat) (q : QuoteSlot) (s : State) : Accounts s (supersede slot q s) := by
  unfold supersede
  split
  · exact .refl
  · exact .refl
  · exact .onEngine _ _
  · exact releaseQuote_accounts _ _ _

theorem acceptQuote_accounts (slot : Nat) (t : Terminal) (ask : Ask) (permit : Option (Nat × PermitKind))
    (plate : Option Plate) (s : State) : Accounts s (acceptQuote slot t ask permit plate s) := by
  unfold acceptQuote
  refine .after (beginWalk_accounts _) (.after (.onEngine _ _) (.after (.onTerminal _ _ (by intro; rfl) _) ?_))
  exact .after (supersede_accounts _ _ _) (.after (.onQueue slot _ _) (.onQueue slot _ s))

theorem takeQuote_accounts (slot kind amount permit : Nat) (plate : Plate) (s : State) :
    Accounts s (takeQuote slot kind amount permit plate s) := by
  unfold takeQuote
  split
  · exact .refl
  · split
    · exact .onQueue _ _ _
    · exact acceptQuote_accounts _ _ _ _ _ _

theorem refuseResult_accounts (slot quoteId firstStep : Nat) (code : Code) (s : State) :
    Accounts s (refuseResult slot quoteId firstStep code s) :=
  (setQuote_accounts _ _ _).trans ((Accounts.onQueue _ _ _).trans (considerSleep_accounts _ _))

theorem openQuote_accounts (e : QueueEntry) (r : WalkResult) (s : State) : Accounts s (openQuote e r s) := by
  unfold openQuote
  dsimp only
  split
  · split
    · exact (Accounts.onPermits _ _).trans ((setQuote_accounts _ _ _).trans (.onQueue _ _ _))
    · exact (setQuote_accounts _ _ _).trans (.onQueue _ _ _)
  · exact (setQuote_accounts _ _ _).trans (.onQueue _ _ _)

theorem keepResult_accounts (e : QueueEntry) (group : Nat) (r : WalkResult) (s : State) :
    Accounts s (keepResult e group r s) := by
  unfold keepResult
  split
  · exact refuseResult_accounts _ _ _ _ _
  · exact refuseResult_accounts _ _ _ _ _
  · exact refuseResult_accounts _ _ _ _ _
  · split
    · exact openQuote_accounts _ _ _
    · split
      · exact refuseResult_accounts _ _ _ _ _
      · exact openQuote_accounts _ _ _

theorem completeWalk_accounts (w : Walk) (s : State) : Accounts s (completeWalk w s) := by
  unfold completeWalk
  dsimp only
  refine Accounts.trans ?_ ((Accounts.onEngine _ _).trans (beginWalk_accounts _))
  split
  · exact .refl
  · split
    · exact .refl
    · exact keepResult_accounts _ _ _ _

theorem silenceSample_accounts (slot : Nat) (s : State) : Accounts s (silenceSample slot s) :=
  .after (conditionEnds_derives _ _ _).accountsN (.onWatch slot _ s)

theorem evaluateBox_accounts (slot : Nat) (s : State) : Accounts s (evaluateBox slot s) := by
  unfold evaluateBox
  split
  · exact .refl
  · exact (reportCondition_derives _ _ _ _).accountsN

theorem consumeQuoteHold_accounts (slot : Nat) (q : OpenQuote) (s : State) : Accounts s (consumeQuoteHold slot q s) := by
  unfold consumeQuoteHold
  split
  · exact .onPermits _ _
  · exact .refl

/-- A sale that is not halted appends its record in the free space. -/
theorem sell_accounts (slot : Nat) (t : Terminal) (q : OpenQuote) (coins : Six) (card : Nat) (s : State)
    (h : salesHalted s = false) : Accounts s (sell slot t q coins card s) := by
  have hroom : freeSpace (s.onSales fun x => { x with nextTicket := nextTicket x.nextTicket }) ≠ 0 := by
    have : freeSpace (s.onSales fun x => { x with nextTicket := nextTicket x.nextTicket }) = freeSpace s := rfl
    rw [this]
    intro h0
    simp [salesHalted, h0] at h
  unfold sell
  dsimp only
  refine .after (considerSleep_accounts _ _) (.after (.onQueue _ _ _) (.after (setClosed_accounts _ _ _)
    (.after (setQuote_accounts _ _ _) (.after (silenceSample_accounts _ _) (.after (.onSales _ _) ?_)))))
  refine .after (consumeQuoteHold_accounts _ _ _) ?_
  have hs := Accounts.sale slot coins card (.after (haltChanged_derives
      (salesHalted (s.onSales fun x => { x with nextTicket := nextTicket x.nextTicket })) _).accountsN
    (Accounts.record (.sale (saleBody slot s.sales.nextTicket q coins card (tenderValue s coins card))) hroom
      (.onSales (fun x => { x with nextTicket := nextTicket x.nextTicket }) s)))
  split
  · exact hs
  · exact .after (evaluateBox_accounts _ _) hs

theorem confirmClosed_accounts (slot quoteId : Nat) (closed : Option ClosedQuote) (s : State) :
    Accounts s (confirmClosed slot quoteId closed s) := by
  unfold confirmClosed
  split
  · split <;> exact .onQueue _ _ _
  · exact .onQueue _ _ _
  · exact .onQueue _ _ _

/-- A CONFIRM that fails no check finds sales not halted. -/
theorem confirmChecks_halted {s : State} {slot : Nat} {t : Terminal} {q : OpenQuote} {quoteId : Nat} {coins : Six}
    {card : Nat} (h : confirmChecks s slot t q quoteId coins card = none) : salesHalted s = false := by
  unfold confirmChecks at h
  split at h
  · cases h
  · split at h
    · cases h
    · split at h
      · cases h
      · simpa using ‹¬salesHalted s = true›

theorem takeConfirm_accounts (slot quoteId : Nat) (coins : Six) (card : Nat) (s : State) :
    Accounts s (takeConfirm slot quoteId coins card s) := by
  unfold takeConfirm
  split
  · exact .refl
  · split
    · exact confirmClosed_accounts _ _ _ _
    · exact .onQueue _ _ _
    · exact .onQueue _ _ _
    · split
      · exact sell_accounts _ _ _ _ _ _ (confirmChecks_halted ‹_›)
      · exact (expireQuote_accounts _ _ _).trans (.onQueue _ _ _)
      · exact .onQueue _ _ _

theorem collectorOpening_accounts (slot key : Nat) (s : State) : Accounts s (collectorOpening slot key s) := by
  unfold collectorOpening
  split
  · exact .refl
  · rename_i t ht
    split
    · exact (raiseEventFault_derives _ _ _).accountsN
    · rename_i r hr
      split
      · exact (raiseEventFault_derives _ _ _).accountsN
      · rename_i e he
        split
        · exact (raiseEventFault_derives _ _ _).accountsN
        · split
          · rename_i hp
            exact .after (conditionEnds_derives _ _ _).accountsN (Accounts.refl.cut slot key t r e hr he hp ht)
          · exact .refl

theorem closeRound_accounts (r : Round) (s : State) (h : s.cash.round = some r) : Accounts s (closeRound r s) :=
  (Accounts.refl.closed r h).trans (spaceRose_derives _ _ _).accountsN

theorem deliverDeadline_accounts (s : State) : Accounts s (deliverDeadline s) := by
  unfold deliverDeadline
  split
  · exact closeRound_accounts _ _ ‹_›
  · exact .undue ‹_› .refl

theorem leaveTo_accounts (slot : Nat) (new : LinkState) (s : State) : Accounts s (leaveTo slot new s) :=
  .after (deriveService_derives _ _).accountsN (.after (endQuote_accounts _ _) (.onLink slot _ s))

theorem barSlot_accounts (slot : Nat) (s : State) : Accounts s (barSlot slot s) :=
  .after (conditionRises_derives _ _ _).accountsN (leaveTo_accounts _ _ _)

theorem endBar_accounts (slot : Nat) (s : State) : Accounts s (endBar slot s) :=
  .after (conditionEnds_derives _ _ _).accountsN (leaveTo_accounts _ _ _)

theorem grantSlot_accounts (slot : Nat) (form : OfferForm) (s : State) : Accounts s (grantSlot slot form s) :=
  .after (deriveService_derives _ _).accountsN (.after (conditionEnds_derives _ _ _).accountsN (.after (.onWatch slot _ _)
    (.after (endQuote_accounts _ _) (.onLink slot _ s))))

theorem acceptSlot_accounts (slot : Nat) (owed : Bool) (s : State) : Accounts s (acceptSlot slot owed s) := by
  unfold acceptSlot
  dsimp only
  refine .after (considerSleep_accounts _ _) ?_
  have hd : Accounts s (deriveService slot s) := (deriveService_derives _ _).accountsN
  split
  · exact .after (.onQueue slot _ _) hd
  · exact hd

theorem fallAsleep_accounts (slot : Nat) (s : State) : Accounts s (fallAsleep slot s) :=
  .after (deriveService_derives _ _).accountsN (.onLink slot _ s)

theorem wakeSlot_accounts (slot : Nat) (s : State) : Accounts s (wakeSlot slot s) :=
  .after (deriveService_derives _ _).accountsN (.after (considerSleep_accounts _ _) (.onLink slot _ s))

theorem takeReport_accounts (slot : Nat) (k : ReportKind) (report : Bool) (s : State) :
    Accounts s (takeReport slot k report s) := by
  unfold takeReport
  split
  · exact .refl
  · split
    · exact .after (reportCondition_derives _ _ _ _).accountsN (.onWatch slot _ s)
    · exact .refl

theorem takeReports_accounts (slot : Nat) (r : Reports) (s : State) : Accounts s (takeReports slot r s) := by
  unfold takeReports
  exact .after (.onWatch slot _ _) (.after (takeReport_accounts _ _ _ _) (.after (takeReport_accounts _ _ _ _)
    (.after (takeReport_accounts _ _ _ _) (takeReport_accounts _ _ _ _))))

theorem filterPower_accounts (slot : Nat) (c : PowerClass) (s : State) : Accounts s (filterPower slot c s) := by
  unfold filterPower
  split
  · exact .refl
  · dsimp only
    split
    · exact .after (reportCondition_derives _ _ _ _).accountsN (.after (.onWatch slot _ _) (.onWatch slot _ s))
    · exact .onWatch slot _ s

theorem criticalRun_accounts (slot : Nat) (c : PowerClass) (s : State) : Accounts s (criticalRun slot c s) := by
  unfold criticalRun
  split
  · exact .refl
  · split
    · exact .after (conditionRises_derives _ _ _).accountsN (.onWatch slot _ s)
    · split
      · split
        · exact .after (conditionEnds_derives _ _ _).accountsN (.onWatch slot _ s)
        · exact .onWatch slot _ s
      · exact .refl

theorem openDoor_accounts (slot : Nat) (key : DoorKey) (s : State) : Accounts s (openDoor slot key s) := by
  unfold openDoor
  dsimp only
  refine .after (deriveService_derives slot _).accountsN ?_
  have he : Accounts s (endQuote slot (withdrawSleep slot (onWatch slot (fun w => { w with door := .opened key }) s))) :=
    .after (endQuote_accounts slot _) (.after (.onQueue slot _ _) (.onWatch slot _ s))
  split
  · exact .after (collectorOpening_accounts _ _ _) he
  · exact .after (conditionRises_derives _ _ _).accountsN he
  · exact he

theorem closeDoor_accounts (slot : Nat) (s : State) : Accounts s (closeDoor slot s) :=
  .after (considerSleep_accounts _ _) (.after (deriveService_derives _ _).accountsN
    (.after (conditionEnds_derives _ _ _).accountsN (.onWatch slot _ s)))

theorem takeDoor_accounts (slot : Nat) (d : Door) (s : State) : Accounts s (takeDoor slot d s) := by
  unfold takeDoor
  split
  · exact .refl
  · split
    · exact openDoor_accounts _ _ _
    · exact closeDoor_accounts _ _
    · exact .refl

theorem takeStatus_accounts (slot : Nat) (w : StatusWord) (s : State) : Accounts s (takeStatus slot w s) :=
  (takeReports_accounts _ _ _).trans ((filterPower_accounts _ _ _).trans ((criticalRun_accounts _ _ _).trans
    (takeDoor_accounts _ _ _)))

/-! ### The line -/

theorem setLine_accounts (mode : LineMode) (frames : List KerbFrame) (s : State) : Accounts s (setLine mode frames s) :=
  .onLine _ _

theorem sendCall_accounts (slot : Nat) (kind : CallKind) (s : State) : Accounts s (sendCall slot kind s) := by
  unfold sendCall
  split
  · exact .refl
  · exact (setLine_accounts _ _ _).trans (.onQueue _ _ _)

theorem seekPhase_accounts (s : State) : Accounts s (seekPhase s) := by
  unfold seekPhase
  split <;> exact setLine_accounts _ _ _

theorem slowPhase_accounts (after : Nat) (s : State) : Accounts s (slowPhase after s) := by
  unfold slowPhase
  split
  · split
    · exact sendCall_accounts _ _ _
    · exact seekPhase_accounts _
  · exact seekPhase_accounts _

theorem normalPhase_accounts (after : Nat) (s : State) : Accounts s (normalPhase after s) := by
  unfold normalPhase
  split
  · exact sendCall_accounts _ _ _
  · exact slowPhase_accounts _ _

theorem afterWindow_accounts (slot : Nat) (kind : CallKind) (s : State) : Accounts s (afterWindow slot kind s) := by
  unfold afterWindow
  split
  · exact (Accounts.onLine _ _).trans (normalPhase_accounts _ _)
  · exact (Accounts.onLine _ _).trans (slowPhase_accounts _ _)

theorem windowOver_accounts (slot : Nat) (kind : CallKind) (s : State) : Accounts s (windowOver slot kind s) :=
  (afterWindow_accounts _ _ _).trans (.onLine _ _)

theorem startCycle_accounts (n : Nat) (s : State) : Accounts s (startCycle n s) :=
  (Accounts.onLine _ _).trans ((Accounts.onLine _ _).trans (normalPhase_accounts _ _))

theorem missSlot_accounts (slot : Nat) (calledAs : LinkState) (s : State) : Accounts s (missSlot slot calledAs s) := by
  unfold missSlot
  split
  · exact .refl
  · split
    · dsimp only
      split
      · exact .after (leaveTo_accounts _ _ _) (.onLink slot _ s)
      · split
        · exact .after (leaveTo_accounts _ _ _) (.onLink slot _ s)
        · exact .onLink slot _ s
    · exact .refl

theorem answerLink_accounts (slot : Nat) (t : Terminal) (rode : Option NoticeBody) (asleep : Bool) (w : StatusWord)
    (request : AnswerRequest) (s : State) : Accounts s (answerLink slot t rode asleep w request s) := by
  unfold answerLink
  split
  · split
    · exact .onLink slot _ s
    · exact leaveTo_accounts _ _ _
  · split
    · exact leaveTo_accounts _ _ _
    · split
      · exact fallAsleep_accounts _ _
      · exact .refl
  · split
    · exact leaveTo_accounts _ _ _
    · split
      · exact wakeSlot_accounts _ _
      · exact .refl
  · exact .refl

theorem handRequest_accounts (slot : Nat) (request : AnswerRequest) (s : State) :
    Accounts s (handRequest slot request s) := by
  unfold handRequest
  split
  · exact takeQuote_accounts _ _ _ _ _ _
  · exact takeConfirm_accounts _ _ _ _ _
  · exact endQuote_accounts _ _
  · exact .refl

theorem validAnswer_accounts (slot : Nat) (t : Terminal) (rode : Option NoticeBody) (asleep : Bool) (w : StatusWord)
    (request : AnswerRequest) (s : State) : Accounts s (validAnswer slot t rode asleep w request s) := by
  unfold validAnswer
  dsimp only
  have h : Accounts s (takeStatus slot w (answerLink slot t rode asleep w request
      (onLink slot (fun l => { l with queue := removeRidden l.queue, misses := 0 }) s))) :=
    .after (takeStatus_accounts _ _ _) (.after (answerLink_accounts _ _ _ _ _ _ _) (.onLink slot _ s))
  have settles (u : State) : Accounts u (if enrols t request then acceptSlot slot t.link.timeOwed u else u) := by
    split
    · exact acceptSlot_accounts _ _ _
    · exact .refl
  split
  · exact .after (settles _) h
  · exact .after (handRequest_accounts _ _ _) (.after (settles _) h)

theorem windowAnswer_accounts (slot : Nat) (calledAs : LinkState) (rode : Option NoticeBody) (head : AnswerHead)
    (request : AnswerRequest) (s : State) : Accounts s (windowAnswer slot calledAs rode head request s) := by
  unfold windowAnswer
  split
  · exact missSlot_accounts _ _ _
  · split
    · exact missSlot_accounts _ _ _
    · split
      · exact .refl
      · split
        · exact validAnswer_accounts _ _ _ _ _ _ _
        · exact .refl

theorem takeAnswer_accounts (head : AnswerHead) (request : AnswerRequest) (s : State) :
    Accounts s (takeAnswer head request s) := by
  unfold takeAnswer
  split
  · exact (windowAnswer_accounts _ _ _ _ _ _).trans (windowOver_accounts _ _ _)
  · exact .refl

theorem takeOffer_accounts (identity : Nat) (form : OfferForm) (s : State) : Accounts s (takeOffer identity form s) := by
  unfold takeOffer
  split
  · split
    · exact .refl
    · split
      · exact (Accounts.onLine _ _).trans (.raise _ _)
      · exact .onLine _ _
  · exact .refl

theorem sendGrant_accounts (e : EarnedOffer) (s : State) : Accounts s (sendGrant e s) := by
  unfold sendGrant
  split
  · exact .refl
  · split
    · exact .refl
    · exact (Accounts.onLine _ _).trans (grantSlot_accounts _ _ _)

theorem endReplyWindow_accounts (n : Nat) (offered : List Nat) (earned : List EarnedOffer) (s : State) :
    Accounts s (endReplyWindow n offered earned s) := by
  unfold endReplyWindow
  dsimp only
  have hc : Accounts s (clearOut s) := .onLine _ s
  split
  · exact .after (setLine_accounts _ _ _) hc
  · exact .after (setLine_accounts _ _ _) (.after (Accounts.foldl _ (fun s e => sendGrant_accounts e s) _ _) hc)

/-! ### The calendar and the starts -/

theorem dayRoll_accounts (s : State) : Accounts s (dayRoll s) :=
  (Accounts.onCalendar _ s rfl).trans ((Accounts.onPermits _ _).trans (timeForAll_accounts _))

theorem deliverIfDue_accounts (s : State) : Accounts s (deliverIfDue s) := by
  unfold deliverIfDue
  split
  · exact deliverDeadline_accounts s
  · exact .refl

theorem rollAfterSet_accounts (s : State) : Accounts s (rollAfterSet s) := by
  unfold rollAfterSet
  split
  · exact .onCalendar _ _ rfl
  · split
    · exact dayRoll_accounts s
    · exact .refl

theorem setClock_accounts (time : Nat) (offset : Int) (s : State) : Accounts s (setClock time offset s) :=
  .after (deliverIfDue_accounts _) (.after (.onSales _ _) (.after (timeForAll_accounts _)
    (.after (deriveAll_derives _).accountsN (.after (refindAll_derives _).accountsP (.after (rollAfterSet_accounts _)
      (.after (.forEach _ takeSwitch_accounts _) (.onCalendar _ s rfl)))))))

theorem wrapZoneTime_accounts (s : State) : Accounts s (wrapZoneTime s) := by
  unfold wrapZoneTime
  dsimp only
  refine .after (.onSales _ _) ?_
  have hd : Accounts s (deriveAll (refindAll (Machine.refresh
      (s.onCalendar fun c => { c with zoneTime := 0, clockSet := false, lastRolled := none })))) :=
    .after (deriveAll_derives _).accountsN (.after (refindAll_derives _).accountsP (.after (.refresh _) (.onCalendar _ s rfl)))
  split
  · exact .after (deliverDeadline_accounts _) hd
  · exact hd

theorem endSecond_accounts (s : State) : Accounts s (endSecond s) := by
  unfold endSecond
  have h : Accounts s ((s.onTerminals (Table.mapAll countSilence)).onCalendar fun c => { c with uptime := c.uptime + 1 }) :=
    .after (.onCalendar _ _ rfl) (.mapAll countSilence (fun t => by unfold countSilence; split <;> rfl) s)
  unfold advanceZoneTime
  split
  · exact .after (wrapZoneTime_accounts _) h
  · exact .after (.onCalendar _ _ rfl) h

theorem endSecondInBackup_accounts (s : State) : Accounts s (endSecondInBackup s) := by
  unfold endSecondInBackup
  split
  · exact .after (.onSales _ _) (.after (.mapAll _ (by intro; rfl) _) (.onCalendar _ s rfl))
  · exact .onCalendar _ _ rfl

theorem holidaysDuringWalk_accounts (days : List Nat) (s : State) : Accounts s (holidaysDuringWalk days s) := by
  unfold holidaysDuringWalk
  split
  · exact .refl
  · exact .of_eq rfl rfl rfl rfl

theorem putHolidays_accounts (days : List Nat) (s : State) : Accounts s (putHolidays days s) := by
  unfold putHolidays
  refine .after (refindAll_derives _).accountsP (.after (holidaysDuringWalk_accounts _ _) (.onCalendar _ s rfl))

theorem startValues_accounts (straps : Straps) (s : State) : Accounts s (startValues straps s) :=
  (Accounts.mapAll Terminal.restarted (fun _ => rfl) s).trans (.of_eq rfl rfl rfl rfl)

theorem closeAtStart_accounts (s : State) : Accounts s (closeAtStart s) := by
  unfold closeAtStart
  split
  · exact .undue ‹_› .refl
  · dsimp only
    split
    · exact (Accounts.refl.closed _ ‹_›).trans ((appendOwed_derives (R := Noted) _).accountsN)
    · exact Accounts.refl.closed _ ‹_›

theorem catchUp_accounts (s : State) : Accounts s (catchUp s) := by
  unfold catchUp
  dsimp only
  refine .after (.onSales _ _) (.after (.mapAll _ (by intro; rfl) _) ?_)
  have h : Accounts s (forEachSlot takeSwitch s) := .forEach _ takeSwitch_accounts s
  split
  · split <;> split
    · exact .after (closeAtStart_accounts _) (.after (dayRoll_accounts _) h)
    · exact .after (dayRoll_accounts _) h
    · exact .after (closeAtStart_accounts _) h
    · exact h
  · split
    · exact closeAtStart_accounts _
    · exact .refl

theorem startCondition_accounts (slot : Nat) (k : FaultKind) (present : Bool) (s : State) :
    Accounts s (startCondition slot k present s) := by
  unfold startCondition
  split
  · exact .refl
  · split
    · exact .refl
    · split
      · exact (setFault_derives _ _ _ _).accountsN.trans (.raise _ _)
      · exact (setFault_derives _ _ _ _).accountsN

theorem startConditions_accounts (slot : Nat) (s : State) : Accounts s (startConditions slot s) := by
  unfold startConditions
  split
  · exact .refl
  · exact (startCondition_accounts _ _ _ _).trans ((startCondition_accounts _ _ _ _).trans (startCondition_accounts _ _ _ _))

theorem startFaults_accounts (s : State) : Accounts s (startFaults s) := by
  unfold startFaults
  exact .after (deriveAll_derives _).accountsN (.forEach _ startConditions_accounts s)

theorem startPorts_accounts (s : State) : Accounts s (startPorts s) := .onLine _ s

theorem startAttention_accounts (keep : Bool) (s : State) : Accounts s (startAttention keep s) := .onAttention _ s

theorem warmStart_accounts (straps : Straps) (keep : Bool) (s : State) : Accounts s (warmStart straps keep s) := by
  unfold warmStart
  exact .after (startPorts_accounts _) (.after (startFaults_accounts _) (.after (catchUp_accounts _)
    (.after (startAttention_accounts _ _) (startValues_accounts straps s))))

theorem startBy_accounts (straps : Straps) (keep : Bool) (s : State) : Accounts s (startBy straps keep s) := by
  unfold startBy
  split
  · exact .cold straps _ ⟨rfl, rfl, rfl, rfl⟩
  · exact warmStart_accounts _ _ _

theorem enterBackup_accounts (cellBelow duringStart : Bool) (s : State) : Accounts s (enterBackup cellBelow duringStart s) :=
  .of_eq rfl rfl rfl rfl

end Sys2Proof.Machine
end

