-- ==== Sys2Proof/Laws/Ports.lean ====
section
/-!
SUPPORT. What the discipline of the two ports makes of a request: where it is taken, and what any request answers.
-/

namespace Sys2Proof.Machine

open Sys2Proof

/-- While the part is RUNNING a command has its effect. -/
theorem whileRunning_running {f : State → State} {s : State} (h : s.supply.part = .running) :
    whileRunning f s = .next (f s) := by simp [whileRunning, h]

/-- In BACKUP a command is lost. -/
theorem whileRunning_backup {f : State → State} {s : State} (h : s.supply.part = .backup) : whileRunning f s = .next s := by
  simp [whileRunning, h]

/-- Whatever a command may leave: its effect, or nothing. -/
theorem whileRunning_cases {f : State → State} {s t : State} (h : whileRunning f s = .next t) :
    (s.supply.part = .running ∧ t = f s) ∨ (s.supply.part ≠ .running ∧ t = s) := by
  unfold whileRunning at h
  split at h
  · exact .inl ⟨‹_›, by simpa using h.symm⟩
  · exact .inr ⟨‹_›, by simpa using h.symm⟩

/-- The office receiver hunts. -/
def hunting (s : State) : State := s.onOffice fun o => { o with reading := false }

/-- A request in progress with its response. -/
def withOfficeReply (kind tag : Nat) (r : Response) (s : State) : State :=
  s.onOffice fun o => { o with current := some { kind := kind, tag := tag, response := r } }

/-- An office request that is taken: its owner acts, and its response is in progress. -/
theorem officeRequest_taken {kind tag : Nat} {act : State → State × Response} {s : State}
    (hr : s.supply.part = .running) (hc : s.office.current = none) :
    officeRequest kind tag act s
      = .next (withOfficeReply kind tag (act (hunting s)).2 (act (hunting s)).1) := by
  have hc' : (s.onOffice fun o => { o with reading := false }).office.current = none := hc
  simp only [officeRequest, whileRunning_running hr, officeArrival, hc']
  rfl

/-- An office request while another is in progress is answered BUSY, or counted as an overrun; its owner does not act. -/
theorem officeRequest_busy {kind tag : Nat} {act : State → State × Response} {s : State} {r : OfficeReply}
    (hr : s.supply.part = .running) (hc : s.office.current = some r) :
    officeRequest kind tag act s
      = .next
          (if s.office.busy.length < Config.maxBusy then
            s.onOffice fun o => { o with reading := false, busy := o.busy ++ [(kind, tag)] }
          else s.onOffice fun o => { o with reading := false, overruns := min 255 (o.overruns + 1) }) := by
  simp only [officeRequest, whileRunning_running hr, officeArrival, State.onOffice_office, hc]
  split <;> rfl

/-- Whatever an office request may leave. -/
theorem officeRequest_cases {kind tag : Nat} {act : State → State × Response} {s t : State}
    (h : officeRequest kind tag act s = .next t) :
    t = s ∨ (∃ f, t = s.onOffice f) ∨ t = withOfficeReply kind tag (act (hunting s)).2 (act (hunting s)).1 := by
  rcases whileRunning_cases h with ⟨hr, rfl⟩ | ⟨_, rfl⟩
  · cases hc : s.office.current with
    | none =>
      have := officeRequest_taken (kind := kind) (tag := tag) (act := act) hr hc
      rw [h] at this
      exact .inr (.inr (by simpa using this))
    | some r =>
      have := officeRequest_busy (kind := kind) (tag := tag) (act := act) hr hc
      rw [h] at this
      refine .inr (.inl ?_)
      injection this with this
      rw [this]
      split <;> exact ⟨_, rfl⟩
  · exact .inl rfl

/-- The service receiver hunts. -/
def serviceHunting (s : State) : State := s.onService fun p => { p with reading := false }

/-- A service request in progress with its response. -/
def withServiceReply (identity kind tag : Nat) (r : Response) (s : State) : State :=
  s.onService fun p => { p with current := some { identity := identity, kind := kind, tag := tag, response := r } }

/-- A service frame that is taken. -/
theorem serviceArrival_taken {identity kind tag : Nat} {act : State → State × Response} {s : State}
    (he : linkEnabled s = true) (hc : s.service.current = none) :
    serviceArrival identity kind tag act s
      = withServiceReply identity kind tag (act (serviceHunting s)).2 (act (serviceHunting s)).1 := by
  have hc' : (s.onService fun p => { p with reading := false }).service.current = none := hc
  simp only [serviceArrival, he, if_true, hc']
  rfl

/-- A service request from a handheld of the roster whose role may ask it is taken: its owner acts. -/
theorem serviceRequest_taken {identity kind tag : Nat} {allowed : Role → Bool}
    {act : RosterEntry → State → State × Response} {s : State} {e : RosterEntry} (hr : s.supply.part = .running)
    (he : linkEnabled s = true) (hc : s.service.current = none) (hf : Table.find? identity s.roster = some e)
    (ha : allowed e.role = true) :
    serviceRequest identity kind tag allowed act s
      = .next (withServiceReply identity kind tag (act e (serviceHunting s)).2 (act e (serviceHunting s)).1) := by
  have hf' : Table.find? identity (serviceHunting s).roster = some e := hf
  rw [serviceRequest, whileRunning_running hr, serviceArrival_taken he hc]
  simp [withSender, hf', ha]

/-- Whatever a whole service frame may leave. -/
theorem serviceArrival_cases {identity kind tag : Nat} {act : State → State × Response} {s : State} :
    serviceArrival identity kind tag act s = s ∨ (∃ f, serviceArrival identity kind tag act s = s.onService f)
      ∨ serviceArrival identity kind tag act s
          = withServiceReply identity kind tag (act (serviceHunting s)).2 (act (serviceHunting s)).1 := by
  cases he : linkEnabled s with
  | false => exact .inl (by simp [serviceArrival, he])
  | true =>
    cases hc : s.service.current with
    | none => exact .inr (.inr (serviceArrival_taken he hc))
    | some r =>
      have hc' : (s.onService fun p => { p with reading := false }).service.current = some r := hc
      refine .inr (.inl ?_)
      simp only [serviceArrival, he, if_true, hc']
      split
      · exact ⟨fun p => { p with reading := false, busy := p.busy ++ [(identity, kind, tag)] }, rfl⟩
      · exact ⟨_, rfl⟩

/-- What the checks of identity and role leave: nothing done, or the owner's act. -/
theorem withSender_cases (identity : Nat) (allowed : Role → Bool) (act : RosterEntry → State → State × Response) (s : State) :
    (withSender identity allowed act s).1 = s ∨ ∃ e, (withSender identity allowed act s).1 = (act e s).1 := by
  unfold withSender
  split
  · exact .inl rfl
  · split
    · exact .inr ⟨_, rfl⟩
    · exact .inl rfl

end Sys2Proof.Machine
end

