-- ==== Sys2Proof/Laws/Steps.lean ====
section
/-!
SUPPORT. Every command changes the accounts only in the ways that Laws/Accounts.lean lists.
-/

namespace Sys2Proof.Machine

open Sys2Proof

theorem whileRunning_accounts {f : State → State} {s t : State} (hf : Accounts s (f s)) (h : whileRunning f s = .next t) :
    Accounts s t := by
  rcases whileRunning_cases h with ⟨_, rfl⟩ | ⟨_, rfl⟩
  · exact hf
  · exact .refl

theorem officeRequest_accounts {kind tag : Nat} {act : State → State × Response} {s t : State}
    (hact : ∀ s, Accounts s (act s).1) (h : officeRequest kind tag act s = .next t) : Accounts s t := by
  rcases officeRequest_cases h with rfl | ⟨f, rfl⟩ | rfl
  · exact .refl
  · exact .onOffice _ _
  · exact .after (.onOffice _ _) (.after (hact _) (.onOffice _ s))

theorem serviceArrival_accounts {identity kind tag : Nat} {act : State → State × Response} {s : State}
    (hact : ∀ s, Accounts s (act s).1) : Accounts s (serviceArrival identity kind tag act s) := by
  rcases serviceArrival_cases (identity := identity) (kind := kind) (tag := tag) (act := act) (s := s) with
    h | ⟨f, h⟩ | h <;> rw [h]
  · exact .refl
  · exact .onService _ _
  · exact .after (.onService _ _) (.after (hact _) (.onService _ s))

theorem serviceRequest_accounts {identity kind tag : Nat} {allowed : Role → Bool}
    {act : RosterEntry → State → State × Response} {s t : State} (hact : ∀ e s, Accounts s (act e s).1)
    (h : serviceRequest identity kind tag allowed act s = .next t) : Accounts s t := by
  refine whileRunning_accounts (serviceArrival_accounts fun s => ?_) h
  rcases withSender_cases identity allowed act s with h | ⟨e, h⟩ <;> rw [h]
  · exact .refl
  · exact hact e s

theorem answering_accounts (f : State → Response) (s : State) : Accounts s (answering f s).1 := .refl

/-! ### The owners' acts -/

theorem takeClockSet_accounts (time : Nat) (offset : Int) (s : State) : Accounts s (takeClockSet time offset s).1 := by
  unfold takeClockSet
  split
  · exact .refl
  · dsimp only
    exact setClock_accounts time offset s

theorem engineerClockSet_accounts (time : Nat) (offset : Int) (s : State) :
    Accounts s (engineerClockSet time offset s).1 := by
  unfold engineerClockSet
  split
  · exact .refl
  · exact takeClockSet_accounts _ _ _

theorem takeHolidaysPut_accounts (days : List Nat) (s : State) : Accounts s (takeHolidaysPut days s).1 := by
  unfold takeHolidaysPut
  split
  · exact .refl
  · show Accounts s (putHolidays days s)
    exact putHolidays_accounts _ _

theorem onPlan_accounts {plan : Nat} {act : State → State × Response} (hact : ∀ s, Accounts s (act s).1) (s : State) :
    Accounts s (onPlan plan act s).1 := by
  unfold onPlan
  split
  · exact .refl
  · split
    · exact .refl
    · exact hact s

theorem putProfile_accounts (plan profile : Nat) (bands : List BandEntry) (s : State) :
    Accounts s (putProfile plan profile bands s).1 := by
  unfold putProfile
  split
  · split
    · exact .refl
    · split
      · exact .refl
      · split
        · exact .refl
        · exact .onPlans _ _
  · exact .refl

theorem closePlan_accounts (plan r v b : Nat) (s : State) : Accounts s (closePlan plan r v b s).1 := by
  unfold closePlan
  split
  · split
    · exact .refl
    · split
      · exact .refl
      · split
        · exact .refl
        · split
          · exact .refl
          · exact .onPlans _ _
  · exact .refl

theorem assignSlot_accounts (plan : Nat) (pending : Bool) (switch : Option Nat) (s : State) (slot : Nat) :
    Accounts s (assignSlot plan pending switch s slot) :=
  .after (refind_derives _ _).accountsP (.onTerminal _ _ (by intro; rfl) _)

theorem takePlanAssign_accounts (plan : Nat) (switch : Option Nat) (slots : List Nat) (s : State) :
    Accounts s (takePlanAssign plan switch slots s).1 := by
  unfold takePlanAssign
  split
  · exact .refl
  · exact .foldl _ (fun s slot => assignSlot_accounts _ _ _ s slot) _ _

theorem takeGracePut_accounts (grace : Nat) (s : State) : Accounts s (takeGracePut grace s).1 := by
  unfold takeGracePut
  split
  · exact .refl
  · dsimp only
    exact .onSales _ _

theorem takePermitPut_accounts (number : Nat) (p : PermitPut) (s : State) : Accounts s (takePermitPut number p s).1 := by
  unfold takePermitPut
  split
  · exact .refl
  · dsimp only
    split
    · exact .refl
    · exact .onPermits _ _

theorem takePermitRevoke_accounts (number : Nat) (s : State) : Accounts s (takePermitRevoke number s).1 := by
  unfold takePermitRevoke
  split
  · exact .refl
  · exact .onPermits _ _

theorem updateSlot_accounts (slot : Nat) (c : TerminalConfig) (t : Terminal) (s : State) :
    Accounts s (updateSlot slot c t s) := by
  have h0 : Accounts s (onTerminal slot (fun t => { t with config := c }) s) := .onTerminal _ _ (by intro; rfl) _
  have h1 : ∀ u, Accounts u (newIdentity slot u) := fun u => .after (deriveService_derives _ _).accountsN (.onLink slot _ u)
  have h2 : ∀ u, Accounts u (cover c.group (cover t.config.group u)) := fun u =>
    .after (cover_derives _ _).accountsN (cover_derives _ _).accountsN
  have h3 : ∀ u, Accounts u (evaluateBox slot u) := fun u => evaluateBox_accounts _ _
  unfold updateSlot
  dsimp only
  have if_accounts : ∀ (p : Prop) [Decidable p] (u v : State), Accounts s u → Accounts u v →
      Accounts s (if p then u else v) := by
    intro p _ u v hu hv
    split
    · exact hu
    · exact .after hv hu
  exact if_accounts _ _ _ (if_accounts _ _ _ (if_accounts _ _ _ h0 (h1 _)) (h2 _)) (h3 _)

theorem takeTerminalPut_accounts (slot : Nat) (c : TerminalConfig) (s : State) :
    Accounts s (takeTerminalPut slot c s).1 := by
  unfold takeTerminalPut
  split
  · exact .refl
  · split
    · exact .after (cover_derives _ _).accountsN (.configured slot c ‹_› .refl)
    · exact updateSlot_accounts _ _ _ _

theorem takeTerminalRemove_accounts (slot : Nat) (s : State) : Accounts s (takeTerminalRemove slot s).1 := by
  unfold takeTerminalRemove
  split
  · exact .refl
  · split
    · exact .refl
    · split
      · exact .refl
      · split
        · exact .refl
        · split
          · exact .refl
          · exact .after (cover_derives _ _).accountsN (.removed slot (by simpa using ‹¬inRound slot s = true›) .refl)

theorem takeDenominationsPut_accounts (values : Six) (s : State) : Accounts s (takeDenominationsPut values s).1 := by
  unfold takeDenominationsPut
  split
  · exact .refl
  · split
    · exact .refl
    · exact .settings values s.cash.tolerance (.inr rfl) .refl

theorem takeTolerancePut_accounts (tolerance : Nat) (s : State) : Accounts s (takeTolerancePut tolerance s).1 := by
  unfold takeTolerancePut
  split
  · exact .refl
  · exact .settings s.cash.denominations tolerance (.inl (by omega)) .refl

theorem reconcile_accounts (c : Collection) (counted : Six) (s : State) (h : freeSpace s ≠ 0) :
    Accounts s (reconcile c counted s) := by
  unfold reconcile
  dsimp only
  split
  · exact .after (raiseEventFault_derives _ _ _).accountsN
      (.counted _ (.after (haltChanged_derives _ _).accountsN (Accounts.refl.record _ h)))
  · exact .counted _ (.after (haltChanged_derives _ _).accountsN (Accounts.refl.record _ h))

theorem takeCountResult_accounts (number : Nat) (counted : Six) (s : State) :
    Accounts s (takeCountResult number counted s).1 := by
  unfold takeCountResult
  split
  · exact .refl
  · split
    · exact .refl
    · exact reconcile_accounts _ _ _ ‹_›

theorem takeRoundStart_accounts (identity : Nat) (sender : RosterEntry) (s : State) :
    Accounts s (takeRoundStart identity sender s).1 := by
  unfold takeRoundStart
  split
  · exact .refl
  · split
    · exact .refl
    · rename_i hr
      dsimp only
      split
      · exact .refl
      · split
        · exact .refl
        · rename_i hf
          exact .after (haltChanged_derives _ _).accountsN (.after (.raise _ _)
            (Accounts.refl.opened identity _ hr (by simpa using hf)))

theorem takeRoundEnd_accounts (identity : Nat) (sender : RosterEntry) (s : State) :
    Accounts s (takeRoundEnd identity sender s).1 := by
  unfold takeRoundEnd
  split
  · exact .refl
  · split
    · exact .refl
    · exact closeRound_accounts _ _ ‹_›

theorem takeFaultAck_accounts (slot fault : Nat) (s : State) : Accounts s (takeFaultAck slot fault s).1 := by
  unfold takeFaultAck
  split
  · exact .refl
  · split
    · exact .refl
    · split
      · exact .refl
      · unfold acknowledge
        dsimp only
        split
        · exact .refl
        · exact .after (deriveService_derives _ _).accountsN (setFault_derives _ _ _ _).accountsN

theorem takeJournalAck_accounts (sequence : Nat) (s : State) : Accounts s (takeJournalAck sequence s).1 := by
  unfold takeJournalAck
  dsimp only
  split
  · exact .after (spaceRose_derives _ _ _).accountsN (Accounts.refl.acked _)
  · split <;> exact .refl

theorem takeStatusRead_accounts (s : State) : Accounts s (takeStatusRead s).1 :=
  .after (.refresh _) (.after (.onAttention _ _) (.onOffice _ s))

theorem takeAttentionMask_accounts (mask : Nat) (s : State) : Accounts s (takeAttentionMask mask s).1 := by
  unfold takeAttentionMask
  split
  · exact .refl
  · dsimp only
    exact .onAttention _ _

theorem takeRosterPut_accounts (identity role key : Nat) (s : State) :
    Accounts s (takeRosterPut identity role key s).1 := by
  unfold takeRosterPut
  split
  · exact .refl
  · dsimp only
    split
    · exact .refl
    · exact .onRoster _ _

theorem takeRosterRemove_accounts (identity : Nat) (s : State) : Accounts s (takeRosterRemove identity s).1 := by
  unfold takeRosterRemove
  split
  · exact .refl
  · exact .onRoster _ _

theorem takeLineRestart_accounts (slot : Nat) (s : State) : Accounts s (takeLineRestart slot s).1 := by
  unfold takeLineRestart
  split
  · exact .refl
  · split
    · exact .refl
    · unfold restartLine
      split
      · exact .onQueue _ _ _
      · exact .onQueue _ _ _
      · exact endBar_accounts _ _
      · exact leaveTo_accounts _ _ _

theorem responseSent_accounts (r : OfficeReply) (s : State) : Accounts s (responseSent r s) := by
  unfold responseSent
  split
  · exact warmStart_accounts _ _ _
  · exact .onOffice _ _

theorem takeBack_accounts (s : State) : Accounts s (takeBack s) := by
  unfold takeBack
  split
  · exact .onQueue _ _ _
  · exact .refl

theorem takeJabber_accounts (s : State) : Accounts s (takeJabber s) := by
  unfold takeJabber
  split
  · exact .after (setLine_accounts _ _ _) (.after (barSlot_accounts _ _) (.onLine _ s))
  · exact .refl

theorem takeLateJabber_accounts (s : State) : Accounts s (takeLateJabber s) := by
  unfold takeLateJabber
  split
  · exact .after (setLine_accounts _ _ _) (.after (barSlot_accounts _ _) ((takeBack_accounts s).trans (.onLine _ _)))
  · exact .refl

/-- Every command changes the accounts only as listed. -/
theorem exec_accounts {c : Instr} {s t : State} (h : exec c s = .next t) : Accounts s t := by
  cases c
  case clockSet src time offset =>
    cases src
    · exact officeRequest_accounts (takeClockSet_accounts _ _) h
    · exact serviceRequest_accounts (fun _ => engineerClockSet_accounts _ _) h
  case clockGet => exact officeRequest_accounts (answering_accounts _) h
  case holidaysPut => exact officeRequest_accounts (takeHolidaysPut_accounts _) h
  case planBegin => exact officeRequest_accounts (onPlan_accounts fun _ => .onPlans _ _) h
  case profilePut => exact officeRequest_accounts (onPlan_accounts fun _ => putProfile_accounts _ _ _ _) h
  case planClose => exact officeRequest_accounts (onPlan_accounts fun _ => closePlan_accounts _ _ _ _ _) h
  case planClear => exact officeRequest_accounts (onPlan_accounts fun _ => .onPlans _ _) h
  case planAssign => exact officeRequest_accounts (takePlanAssign_accounts _ _ _) h
  case gracePut => exact officeRequest_accounts (takeGracePut_accounts _) h
  case permitPut => exact officeRequest_accounts (takePermitPut_accounts _ _) h
  case permitRevoke => exact officeRequest_accounts (takePermitRevoke_accounts _) h
  case permitGet => exact officeRequest_accounts (answering_accounts _) h
  case terminalPut => exact officeRequest_accounts (takeTerminalPut_accounts _ _) h
  case terminalRemove => exact officeRequest_accounts (takeTerminalRemove_accounts _) h
  case terminalAudit => exact officeRequest_accounts (answering_accounts _) h
  case denominationsPut => exact officeRequest_accounts (takeDenominationsPut_accounts _) h
  case tolerancePut => exact officeRequest_accounts (takeTolerancePut_accounts _) h
  case countResult => exact officeRequest_accounts (takeCountResult_accounts _ _) h
  case faultList => exact officeRequest_accounts (answering_accounts _) h
  case faultAck src slot fault =>
    cases src
    · exact officeRequest_accounts (takeFaultAck_accounts _ _) h
    · exact serviceRequest_accounts (fun _ => takeFaultAck_accounts _ _) h
  case groupStatus => exact officeRequest_accounts (answering_accounts _) h
  case journalRead => exact officeRequest_accounts (answering_accounts _) h
  case journalAck => exact officeRequest_accounts (takeJournalAck_accounts _) h
  case status => exact officeRequest_accounts takeStatusRead_accounts h
  case attentionMask => exact officeRequest_accounts (takeAttentionMask_accounts _) h
  case rosterPut => exact officeRequest_accounts (takeRosterPut_accounts _ _ _) h
  case rosterRemove => exact officeRequest_accounts (takeRosterRemove_accounts _) h
  case restart => exact officeRequest_accounts (answering_accounts _) h
  case officeBadRequest => exact officeRequest_accounts (answering_accounts _) h
  case officeBusy kind tag =>
    simp only [exec, execOfficeBusy] at h
    refine whileRunning_accounts ?_ h
    split
    · exact .refl
    · have hb : officeRequest kind tag (answering fun _ => refusal .busy) s
          = whileRunning (officeArrival kind tag (answering fun _ => refusal .busy)) s := rfl
      unfold officeArrival
      dsimp only
      split
      · exact .after (.onOffice _ _) (.onOffice (fun o => { o with reading := false }) s)
      · split <;> exact .after (.onOffice _ _) (.onOffice (fun o => { o with reading := false }) s)
  case officeFrameDiscard => exact whileRunning_accounts (.onOffice _ _) h
  case officeByteTimeout => exact whileRunning_accounts (.onOffice _ _) h
  case officeResponseSent =>
    simp only [exec, execOfficeResponseSent] at h
    refine whileRunning_accounts ?_ h
    split
    · exact .onOffice _ _
    · exact responseSent_accounts _ _
  case ticketCheck => exact serviceRequest_accounts (fun _ => answering_accounts _) h
  case permitCheck => exact serviceRequest_accounts (fun _ => answering_accounts _) h
  case groupCheck => exact serviceRequest_accounts (fun _ => answering_accounts _) h
  case roundStart => exact serviceRequest_accounts (fun _ => takeRoundStart_accounts _ _) h
  case roundList => exact serviceRequest_accounts (fun _ => answering_accounts _) h
  case roundEnd => exact serviceRequest_accounts (fun _ => takeRoundEnd_accounts _ _) h
  case terminalStatus => exact serviceRequest_accounts (fun _ => answering_accounts _) h
  case lineRestart => exact serviceRequest_accounts (fun _ => takeLineRestart_accounts _) h
  case serviceBadRequest => exact whileRunning_accounts (serviceArrival_accounts (answering_accounts _)) h
  case serviceBusy =>
    simp only [exec, execServiceBusy] at h
    refine whileRunning_accounts ?_ h
    split
    · exact .refl
    · exact serviceArrival_accounts (answering_accounts _)
  case serviceFrameDiscard =>
    refine whileRunning_accounts ?_ h
    unfold serviceReads
    split
    · exact .onService _ _
    · exact .refl
  case serviceByteTimeout =>
    refine whileRunning_accounts ?_ h
    unfold serviceReads
    split
    · exact .onService _ _
    · exact .refl
  case serviceResponseSent =>
    simp only [exec, execServiceResponseSent] at h
    refine whileRunning_accounts ?_ h
    split <;> exact .onService _ _
  case cycleStart =>
    refine whileRunning_accounts ?_ h
    split
    · exact startCycle_accounts _ _
    · exact .refl
  case answer => exact whileRunning_accounts (takeAnswer_accounts _ _ _) h
  case quote => exact whileRunning_accounts (takeAnswer_accounts _ _ _) h
  case confirm => exact whileRunning_accounts (takeAnswer_accounts _ _ _) h
  case cancel => exact whileRunning_accounts (takeAnswer_accounts _ _ _) h
  case accept => exact whileRunning_accounts (takeAnswer_accounts _ _ _) h
  case wakeReq => exact whileRunning_accounts (takeAnswer_accounts _ _ _) h
  case miss =>
    refine whileRunning_accounts ?_ h
    unfold takeMiss
    split
    · exact .after (windowOver_accounts _ _ _) (missSlot_accounts _ _ _)
    · exact .refl
  case jabber => exact whileRunning_accounts (takeJabber_accounts _) h
  case jabberLate => exact whileRunning_accounts (takeLateJabber_accounts _) h
  case offer => exact whileRunning_accounts (takeOffer_accounts _ _ _) h
  case replyWindowEnd =>
    refine whileRunning_accounts ?_ h
    unfold takeWindowEnd
    split
    · exact endReplyWindow_accounts _ _ _ _
    · exact .refl
  case linkLostDeadline slot =>
    refine whileRunning_accounts ?_ h
    split
    · exact .after (conditionRises_derives _ _ _).accountsN (.onLink slot _ s)
    · exact .refl
  case barExpiry =>
    refine whileRunning_accounts ?_ h
    split
    · exact endBar_accounts _ _
    · exact .refl
  case walkCompletion =>
    simp only [exec, execWalkCompletion] at h
    refine whileRunning_accounts ?_ h
    split
    · exact .refl
    · exact completeWalk_accounts _ _
  case quoteExpiry =>
    simp only [exec, execQuoteExpiry] at h
    refine whileRunning_accounts ?_ h
    split
    · exact .refl
    · exact expireQuote_accounts _ _ _
  case silent =>
    refine whileRunning_accounts ?_ h
    split
    · exact (conditionRises_derives _ _ _).accountsN
    · exact .refl
  case secondTick =>
    simp only [exec, execSecondTick, Host.Outcome.next.injEq] at h
    subst h
    split
    · exact endSecond_accounts _
    · exact endSecondInBackup_accounts _
  case zoneTimeWrap =>
    simp only [exec, execZoneTimeWrap, Host.Outcome.next.injEq] at h
    subst h
    split
    · split
      · exact endSecond_accounts _
      · exact endSecondInBackup_accounts _
    · exact .refl
  case minuteRoll =>
    refine whileRunning_accounts ?_ h
    split
    · exact .onSales _ _
    · exact .refl
  case dayRoll =>
    refine whileRunning_accounts ?_ h
    split
    · exact dayRoll_accounts _
    · exact .refl
  case segmentBoundary =>
    refine whileRunning_accounts ?_ h
    split
    · exact (refind_derives _ _).accountsP
    · exact .refl
  case switchTimeArrival =>
    refine whileRunning_accounts ?_ h
    split
    · exact .after (refind_derives _ _).accountsP (takeSwitch_accounts _ _)
    · exact .refl
  case roundAutoClose => exact whileRunning_accounts (deliverIfDue_accounts _) h
  case powerFailEntry => exact whileRunning_accounts (enterBackup_accounts _ _ _) h
  case cellBelowRetention =>
    simp only [exec, execCellBelowRetention, Host.Outcome.next.injEq] at h
    subst h
    split
    · exact .onSupply _ _
    · exact .refl
  case powerUp =>
    simp only [exec, execPowerUp, Host.Outcome.next.injEq] at h
    subst h
    split
    · exact startBy_accounts _ _ _
    · exact .refl
  case resetPin => exact whileRunning_accounts (startBy_accounts _ _ _) h
  case officeFrameStart =>
    simp only [exec, execOfficeFrameStart] at h
    exact whileRunning_accounts (.onOffice _ _) h
  case serviceFrameStart =>
    refine whileRunning_accounts ?_ h
    unfold serviceReads
    split
    · exact .onService _ _
    · exact .refl
  case lineFallsQuiet =>
    refine whileRunning_accounts ?_ h
    unfold takeQuiet
    split
    · exact afterWindow_accounts _ _ _
    · exact .refl

end Sys2Proof.Machine
end

