-- ==== Sys2Proof/Laws/Told.lean ====
section
/-!
SUPPORT. What the tender methods, the fault answers and the allowance of a walk are in the words of the rules.
-/

namespace Sys2Proof.Machine

open Sys2Proof

theorem present_eq_inForce (r : FaultRecord) : r.state.present = decide (InForce r) := by
  obtain ⟨state, changed⟩ := r
  cases state <;> simp [FaultState.present, InForce]

theorem cashUsable_eq (t : Terminal) : cashUsable t = decide (CashUsable t) := by
  simp only [cashUsable, hasCash, impacts, FaultTable.present, FaultTable.get, present_eq_inForce, CashUsable]
  cases t.link.caps <;> simp

theorem cardUsable_eq (t : Terminal) : cardUsable t = decide (CardUsable t) := by
  simp only [cardUsable, hasCard, impacts, FaultTable.present, FaultTable.get, present_eq_inForce, CardUsable]
  cases t.link.caps <;> simp [Bool.and_assoc]

theorem faultView_eq (t : Terminal) : faultView t = toldFaults t := by
  simp only [faultView, toldFaults, faultKinds, List.map, FaultTable.get, FaultTable.present, impacts, present_eq_inForce,
    silenceLimit, Config.silenceLimitMin, Config.silenceEstimateMax]
  congr 1
  · simp [Bool.decide_or, Bool.or_assoc]

theorem walkAllowance_eq (s : State) (number : Nat) : walkAllowance s number = allowanceTaken s.permits number := rfl

end Sys2Proof.Machine
end

