-- ==== Sys2Proof/Tests/Slice0.lean ====
section
/-!
SUPPORT. Small tests: ill-formed commands that the well-formedness check refuses, the worked examples of the spec, the bytes of
frames, one step of each family, and for every statement with hypotheses a concrete state and operands that meet them. The
expected values are the spec's own figures or hand calculation from its rules.
-/

namespace Sys2Proof.Tests

set_option Elab.async false

open Sys2Proof Sys2Proof.Machine

/-! ## Well-formedness: a term for each check that the check refuses -/

def plainHead : AnswerHead := { slot := 1, status := 0x000000#24, asleep := false }

def plainBand : BandEntry := { start := 0, kind := 2, step := 0, price := 0, increment := 0, cap := 0, stay := 0 }

theorem test_wf_refuses_calendar :
    ([.clockSet (.office 256) 100000 0, .clockSet (.handheld (256 ^ 4) 0) 100000 0, .clockSet (.handheld 0 256) 100000 0,
      .clockSet (.office 0) (256 ^ 4) 0, .clockSet (.office 0) 100000 32768, .clockSet (.office 0) 100000 (-32769), .clockGet 256,
      .holidaysPut 256 [], .holidaysPut 0 [65536], .holidaysPut 0 (List.replicate 256 1)] : List Instr).all
        (fun i => !i.wf) = true := by decide +kernel

theorem test_wf_refuses_plans :
    ([.planBegin 256 1, .planBegin 0 256, .profilePut 256 1 1 [], .profilePut 0 256 1 [], .profilePut 0 1 256 [],
      .profilePut 0 1 1 (List.replicate 86 plainBand), .profilePut 0 1 1 [{ plainBand with start := 65536 }],
      .profilePut 0 1 1 [{ plainBand with kind := 256 }], .profilePut 0 1 1 [{ plainBand with step := 256 }],
      .profilePut 0 1 1 [{ plainBand with price := 65536 }], .profilePut 0 1 1 [{ plainBand with increment := 65536 }],
      .profilePut 0 1 1 [{ plainBand with cap := 65536 }], .profilePut 0 1 1 [{ plainBand with stay := 65536 }],
      .planClose 256 1 0 0 0, .planClose 0 256 0 0 0, .planClose 0 1 256 0 0, .planClose 0 1 0 256 0, .planClose 0 1 0 0 256,
      .planClear 256 1, .planClear 0 256, .planAssign 256 1 none [], .planAssign 0 256 none [],
      .planAssign 0 1 (some (256 ^ 4)) [], .planAssign 0 1 none [256], .planAssign 0 1 none (List.replicate 256 1)]
        : List Instr).all (fun i => !i.wf) = true := by decide +kernel

theorem test_wf_refuses_settings_and_permits :
    ([.gracePut 256 0, .gracePut 0 256, .permitPut 256 1 1 0 0 0 1 [1] [], .permitPut 0 (256 ^ 3) 1 0 0 0 1 [1] [],
      .permitPut 0 1 256 0 0 0 1 [1] [], .permitPut 0 1 1 65536 0 0 1 [1] [], .permitPut 0 1 1 0 65536 0 1 [1] [],
      .permitPut 0 1 1 0 0 65536 1 [1] [], .permitPut 0 1 1 0 0 0 256 [1] [], .permitPut 0 1 1 0 0 0 1 [256] [],
      .permitPut 0 1 1 0 0 0 1 (List.replicate 256 1) [], .permitPut 0 1 1 0 0 0 1 [1] (List.replicate 256 65),
      .permitRevoke 256 1, .permitRevoke 0 (256 ^ 3), .permitGet 256 1, .permitGet 0 (256 ^ 3),
      .denominationsPut 256 ⟨1, 2, 3, 4, 5, 6⟩, .denominationsPut 0 ⟨1, 2, 3, 4, 5, 65536⟩, .tolerancePut 256 0,
      .tolerancePut 0 65536, .attentionMask 256 0, .attentionMask 0 65536, .rosterPut 256 1 1 1, .rosterPut 0 (256 ^ 4) 1 1,
      .rosterPut 0 1 256 1, .rosterPut 0 1 1 256, .rosterRemove 256 1, .rosterRemove 0 (256 ^ 4)] : List Instr).all
        (fun i => !i.wf) = true := by decide +kernel

theorem test_wf_refuses_office :
    ([.terminalPut 256 1 1 1 100 10, .terminalPut 0 256 1 1 100 10, .terminalPut 0 1 (256 ^ 6) 1 100 10,
      .terminalPut 0 1 1 256 100 10, .terminalPut 0 1 1 1 65536 10, .terminalPut 0 1 1 1 100 256, .terminalRemove 256 1,
      .terminalRemove 0 256, .terminalAudit 256 1, .terminalAudit 0 256, .countResult 256 1 .zero, .countResult 0 65536 .zero,
      .countResult 0 1 ⟨65536, 0, 0, 0, 0, 0⟩, .faultList 256 1, .faultList 0 256, .faultAck (.office 256) 1 1,
      .faultAck (.office 0) 256 1, .faultAck (.office 0) 1 256, .groupStatus 256, .journalRead 256 1, .journalRead 0 256,
      .journalAck 256 1, .journalAck 0 (256 ^ 4), .status 256, .restart 256, .officeBadRequest 256 0, .officeBadRequest 0 256,
      .officeBusy 256 0, .officeBusy 0 256] : List Instr).all (fun i => !i.wf) = true := by decide +kernel

theorem test_wf_refuses_service :
    ([.ticketCheck (256 ^ 4) 0 1 [], .ticketCheck 1 256 1 [], .ticketCheck 1 0 (256 ^ 3) [],
      .ticketCheck 1 0 1 (List.replicate 249 65), .permitCheck (256 ^ 4) 0 1 1 [], .permitCheck 1 256 1 1 [],
      .permitCheck 1 0 (256 ^ 3) 1 [], .permitCheck 1 0 1 256 [], .permitCheck 1 0 1 1 (List.replicate 248 65),
      .groupCheck (256 ^ 4) 0 1, .groupCheck 1 256 1, .groupCheck 1 0 256, .roundStart (256 ^ 4) 0, .roundStart 1 256,
      .roundList (256 ^ 4) 0, .roundList 1 256, .roundEnd (256 ^ 4) 0, .roundEnd 1 256, .terminalStatus (256 ^ 4) 0 1,
      .terminalStatus 1 256 1, .terminalStatus 1 0 256, .lineRestart (256 ^ 4) 0 1, .lineRestart 1 256 1, .lineRestart 1 0 256,
      .serviceBadRequest (some (256 ^ 4)) 0 0, .serviceBadRequest none 256 0, .serviceBadRequest none 0 256,
      .serviceBusy (some (256 ^ 4)) 0 0, .serviceBusy none 256 0, .serviceBusy none 0 256] : List Instr).all
        (fun i => !i.wf) = true := by decide +kernel

theorem test_wf_refuses_line_and_events :
    ([.answer { plainHead with slot := 256 }, .quote { plainHead with slot := 256 } 1 0 0 [], .quote plainHead 256 0 0 [],
      .quote plainHead 1 65536 0 [], .quote plainHead 1 0 (256 ^ 3) [], .quote plainHead 1 0 0 (List.replicate 80 65),
      .confirm { plainHead with slot := 256 } 1 .zero 0, .confirm plainHead 256 .zero 0,
      .confirm plainHead 1 ⟨256, 0, 0, 0, 0, 0⟩ 0, .confirm plainHead 1 .zero 65536, .cancel { plainHead with slot := 256 },
      .accept { plainHead with slot := 256 } 1, .accept plainHead 256, .wakeReq { plainHead with slot := 256 },
      .offer (256 ^ 6) .legacy, .offer 1 (.full 0 256), .linkLostDeadline 25, .barExpiry 25, .quoteExpiry 25, .silent 25,
      .segmentBoundary 25, .switchTimeArrival 25, .powerUp { zone := 64, rate := false, svc := false },
      .resetPin { zone := 64, rate := false, svc := false } false] : List Instr).all (fun i => !i.wf) = true := by decide +kernel

/-! ## Bytes (chapter 12) -/

/-- R183: the check value of the CRC-16 with generator 1021 and start FFFF. -/
theorem test_crc_of_digits : crc16 [0x31, 0x32, 0x33, 0x34, 0x35, 0x36, 0x37, 0x38, 0x39] = 0x29B1#16 := by decide +kernel

/-- Section 12.2: bits 7 and 6 of byte 1 are the power class, 5 to 2 the reports; byte 2 bit 7 is the door, bits 1 and 0 the key. -/
theorem test_status_word :
    readStatus 0x688107#24
        = some
            { power := .low, reports := { paperLow := true, paperOut := false, coinJam := true, cardFault := false },
              door := .opened (.collector 7) }
      ∧ readStatus 0xC00000#24 = none ∧ readStatus 0x000300#24 = none := by decide +kernel

/-- R185: PERMIT_PUT, kind 0A: number (3), kind, zone count and zones, plate, days (2 each), allowance (2), standing. -/
theorem test_office_kinds :
    (officeRequestBytes (.clockSet (.office 9) 0x01020304 (-60))).map (fun r => (r.1, r.2.1, r.2.2))
        = some (0x01, 9, [0x01, 0x02, 0x03, 0x04, 0xFF, 0xC4])
      ∧ officeRequestBytes (.journalAck 7 0x0A0B0C0D) = some (0x17, 7, [0x0A, 0x0B, 0x0C, 0x0D])
      ∧ officeRequestBytes (.attentionMask 1 0x03FF) = some (0x19, 1, [0x03, 0xFF])
      ∧ serviceRequestBytes (.lineRestart 0x11223344 5 24) = some (0x47, 5, 0x11223344, [24]) := by decide +kernel

/-! ## The worked walks (section 3.7), on local day 9005, a Tuesday -/

def freeBand (start : Nat) : Band := { start := start, kind := .free }

def walkBands : List Band := [freeBand 0, { start := 480, kind := .charged 15 50 10 80 180 }, freeBand 1110]

def slot6Bands : List Band := [freeBand 0, { start := 480, kind := .charged 30 120 0 120 120 }, freeBand 1200]

def allDays (bands : List Band) : Table (List Band) := (List.range 8).map fun n => (n + 1, bands)

def noDiscounts : Discounts := { resident := 0, visitor := 0, business := 0 }

def walkPlans : Table PlanSlot := [(1, .ready (allDays walkBands) noDiscounts), (6, .ready (allDays slot6Bands) noDiscounts)]

/-- A minute of local day 9005. -/
def tuesday (hour minute : Nat) : Nat := 9005 * 86400 + hour * 3600 + minute * 60

def walkOf (start : Nat) (ask : Ask) (permit : Option (Nat × PermitKind)) (a0 : Nat) (pending : Option (Nat × Nat)) : WalkInput :=
  { plans := walkPlans
    walk :=
      { entry := { slot := 9, quoteId := 37, start := start, ask := ask, permit := permit, plate := none }, current := some 1,
        pending := pending, offset := 0, a0 := a0, discard := false, reading := [], past := [] } }

/-- Walk 1: A = 200 at 17:52 buys until Wednesday 08:15 for 198, in 53 minutes; A = 30 is BELOW_MINIMUM with a first step of 50. -/
theorem test_walk_1 :
    (let r := (walkOf (tuesday 17 52) (.byAmount 200) none 0 none).run
     (r.outcome, r.cause, r.expiry, r.cost, r.minutes, r.used) = (.ok, .limit, tuesday 32 15, 198, 53, 0))
      ∧ (let r := (walkOf (tuesday 17 52) (.byAmount 30) none 0 none).run
         (r.outcome, r.tried) = (.belowMinimum, 50)) := by decide +kernel

/-- Walk 2: 90 minutes at 10:10 with 40 minutes of allowance cost 264; with 120 they cost 0 and use 90. -/
theorem test_walk_2 :
    (let r := (walkOf (tuesday 10 10) (.byDuration 90) (some (204117, .visitor)) 40 none).run
     (r.outcome, r.cause, r.expiry, r.cost, r.minutes, r.used) = (.ok, .target, tuesday 11 40, 264, 90, 40))
      ∧ (let r := (walkOf (tuesday 10 10) (.byDuration 90) (some (204117, .visitor)) 120 none).run
         (r.outcome, r.cost, r.used) = (.ok, 0, 90)) := by decide +kernel

/-- Walk 3: a switch to plan slot 6 at 12:00 inside the walk; 150 minutes are CLAMPED at 13:20 for 477, and 120 are OK. -/
theorem test_walk_3 :
    (let r := (walkOf (tuesday 11 20) (.byDuration 150) none 0 (some (6, tuesday 12 0))).run
     (r.outcome, r.cause, r.expiry, r.cost, r.minutes, r.firstPlan, r.lastPlan)
       = (.clamped, .maxStay, tuesday 13 20, 477, 120, 1, 6))
      ∧ (let r := (walkOf (tuesday 11 20) (.byDuration 120) none 0 (some (6, tuesday 12 0))).run
         (r.outcome, r.cause, r.cost) = (.ok, .target, 477)) := by decide +kernel

/-- R2: local day 0 was a Saturday's fifth remainder; day 9005 is a Tuesday. -/
theorem test_weekdays : weekday 9005 = 1 ∧ weekdayProfile (weekday 9005) = .tuesday ∧ localDay 60 (9005 * 86400 - 1800) = 9005 := by
  decide +kernel

/-- Section 7.6.1: the estimate moves from 600 to 700, to 638, and to 1252; the limits are 2800, 2552 and 5008. -/
theorem test_silence_arithmetic :
    newEstimate (some 600) 1400 = 700 ∧ newEstimate (some 700) 200 = 638 ∧ newEstimate (some 638) 5553 = 1252
      ∧ silenceLimit (some 700) = 2800 ∧ silenceLimit (some 638) = 2552 ∧ silenceLimit (some 1252) = 5008 := by decide +kernel

/-! ## A small state -/

def station (identity : Nat) : Terminal :=
  let t := newTerminal { identity := identity, group := 4, capacity := 2000, threshold := 60 } 0 0
  { t with
    link :=
      { t.link with
        state := .active, level := some 3, lostDeadline := none,
        caps := some { coins := true, card := true, permitEntry := true, plateEntry := true, keyWake := true } }
    plans := { current := some 1, pending := none }
    segment :=
      some { kind := .charged, plan := 1, profile := .tuesday, band := 2, day := 9005, ends := tuesday 18 30 }
    watch := { t.watch with service := .inService } }

/-- Tuesday 10:10, clock set, slots 1 and 2 enrolled, slot 9 EMPTY, three handhelds, one permit, the line in slot 1's window. -/
def sample : State :=
  let s := State.cold { zone := 0, rate := false, svc := true }
  { s with
    calendar := { s.calendar with zoneTime := tuesday 10 10, uptime := 100, clockSet := true, lastRolled := some 9005 }
    plans := walkPlans ++ [(7, .building (allDays walkBands))]
    terminals := [(1, station 11), (2, station 12)]
    permits :=
      [(204117, { kind := .visitor, zones := [3, 4], plate := none, firstDay := 9000, lastDay := 9030, allowance := 120,
                  suspended := false, consumed := 0, hold := none })]
    groups := Table.modify 4 (fun g => { g with cover := .covered }) s.groups
    roster :=
      [(1, { role := .officer, key := none }), (2, { role := .collector, key := some 5 }), (3, { role := .engineer, key := none })]
    line := { s.line with mode := .window 1 .normal .active none, out := [.call 1 .normal none] } }

/-- `sample` with slot 1's record changed. -/
def sampleWith (f : Terminal → Terminal) : State := onTerminal 1 f sample

def open37 : OpenQuote :=
  { quoteId := 37, ask := .byAmount 200, start := tuesday 9 0, expiry := tuesday 10 0, cost := 198, minutes := 53,
    unspent := some 2, clamped := false, permit := none, plate := none, firstPlan := 1, lastPlan := 1, completedAt := 50,
    validUntil := 170 }

def roundOne : Round :=
  { number := 1, collector := 2, key := 5, start := tuesday 10 0,
    entries := [{ slot := 1, fill := 70, reason := .due, state := .pending }] }

/-- `sample` with a round open over slot 1's box. -/
def sampleRound : State :=
  { sample with
    cash := { sample.cash with round := some roundOne, nextRound := 2 }
    calendar := { sample.calendar with deadline := some (tuesday 18 0) }
    journal := { sample.journal with reservation := 2 } }

/-- `s` in BACKUP with the cell carrying. -/
def inBackup (s : State) : State :=
  { s with supply := { s.supply with part := .backup, main := .below, cell := .carrying }, line := { s.line with mode := .stopped, out := [], ended := none } }

def liveOne : LiveTicket :=
  { ticket := 14, slot := 1, group := 4, start := tuesday 9 0, expiry := tuesday 10 10, permit := none, plate := some [65] }

def after (o : Host.Outcome State Fault Refusal) : Option State :=
  match o with
  | .next t => some t
  | _ => none

/-! ## One step of each family -/

/-- R6, R10: the clock moved to Wednesday takes one day roll and drops a past holiday. -/
theorem test_clock_set_rolls :
    ((after (exec (.clockSet (.office 1) (tuesday 24 0) 0)
        { sample with calendar := { sample.calendar with holidays := [9005, 9006] } })).map fun t =>
      (t.calendar.lastRolled, t.calendar.holidays, t.office.current.map (·.response.code)))
      = some (some 9006, [9006], some .ok) := by decide +kernel

/-- R5: the bounds of a CLOCK_SET. -/
theorem test_clock_set_bounds :
    clockRefusal 86399 0 = some .badTime ∧ clockRefusal 86400 840 = none ∧ clockRefusal 4294000001 0 = some .badTime
      ∧ clockRefusal 86400 855 = some .badOffset ∧ clockRefusal 86400 20 = some .badOffset := by decide +kernel

/-- R127: an in-service terminal in a CHARGED segment adds one to its counter. -/
theorem test_second_tick :
    ((after (exec .secondTick sample)).map fun t =>
      (t.calendar.zoneTime, t.calendar.uptime, (terminal t 1).map (·.watch.silence)))
      = some (tuesday 10 10 + 1, 101, some 1) := by decide +kernel

/-- R20: a plan slot that a terminal names is in use. -/
theorem test_plan_clear :
    ((after (exec (.planClear 1 1) sample)).bind fun t => t.office.current.map (·.response.code)) = some .planInUse
      ∧ ((after (exec (.planClear 1 7) sample)).map fun t => Table.keys t.plans) = some [1, 6] := by decide +kernel

/-- R29: a switch time ahead leaves the current plan and gives PENDING; the segment now ends at the switch. -/
theorem test_plan_assign_pending :
    ((after (exec (.planAssign 1 6 (some (tuesday 12 0)) [1]) sample)).map fun t =>
      ((terminal t 1).map fun x => (x.plans.current, x.segment.map (·.ends)), t.office.current.map (·.response.body)))
      = some (some (some 1, some (tuesday 12 0)), some (.word .pending)) := by decide +kernel

/-- Section 5.9: D = 90 with a0 = 120 begins its walk at once. -/
theorem test_quote_begins_walk :
    ((after (exec (.quote plainHead 2 90 204117 []) sample)).map fun t =>
      (t.engine.walk.map fun w => (w.entry.slot, w.a0, w.entry.start), (terminal t 1).map (·.quote)))
      = some (some (1, 120, tuesday 10 10), some (.walking 1)) := by decide +kernel

/-- Section 5.9: the result opens the quote and holds 90 minutes. -/
theorem test_walk_completion_holds :
    (((after (exec (.quote plainHead 2 90 204117 []) sample)).bind fun t => after (exec .walkCompletion t)).map fun t =>
      (t.engine.walk.isNone, (Table.find? 204117 t.permits).bind (·.hold)))
      = some (true, some { owner := 1, quoteId := 1, minutes := 90 }) := by decide +kernel

/-- Section 4.10: 0, 1, 2, 1, 1, 0 coins are worth 200 and the CONFIRM is SOLD; 0, 0, 0, 1, 1, 0 are a mismatch. -/
theorem test_confirm_sells :
    ((after (exec (.confirm plainHead 37 ⟨0, 1, 2, 1, 1, 0⟩ 0) (sampleWith fun t => { t with quote := .opened open37 }))).map
      fun t => (t.sales.nextTicket, t.journal.records.length, (terminal t 1).map fun x => (x.cash.tally, x.quote)))
      = some (2, 1, some (⟨0, 1, 2, 1, 1, 0⟩, .none)) := by decide +kernel

theorem test_confirm_mismatch :
    ((after (exec (.confirm plainHead 37 ⟨0, 0, 0, 1, 1, 0⟩ 0) (sampleWith fun t => { t with quote := .opened open37 }))).map
      fun t => (t.sales.nextTicket, (terminal t 1).map fun x => x.quote))
      = some (1, some (.opened open37)) := by decide +kernel

/-- R104: an opening with the round's key cuts the box. -/
theorem test_opening_cuts :
    ((after (exec (.answer { plainHead with status := 0x008105#24 })
        (onTerminal 1
          (fun t => { t with cash := { t.cash with tally := ⟨1, 0, 0, 0, 0, 0⟩, accepted := ⟨1, 0, 0, 0, 0, 0⟩ } })
          sampleRound))).map fun t =>
      (t.journal.reservation, t.cash.collections.map (·.value), (terminal t 1).map fun x => (x.cash.tally, x.cash.collected)))
      = some (1, [5], some (.zero, ⟨1, 0, 0, 0, 0, 0⟩)) := by decide +kernel

/-- Section 6.12: 53 380 counted against 53 500 is SHORT by 120 under a tolerance of 50. -/
theorem test_reconciliation :
    Six.value ⟨400, 698, 500, 248, 100, 60⟩ sample.cash.denominations = 53380
      ∧ Six.value ⟨400, 700, 500, 250, 100, 60⟩ sample.cash.denominations = 53500
      ∧ balanceOf (-120) 50 = .short ∧ balanceOf (-120) 150 = .balanced ∧ balanceOf 51 50 = .over := by decide +kernel

/-- R137: the third miss makes the slot LOST and starts its link-lost delay. -/
theorem test_third_miss :
    ((after (exec .miss (sampleWith fun t => { t with link := { t.link with misses := 2 } }))).map fun t =>
      (terminal t 1).map fun x => (x.link.state, x.link.misses, x.link.lostDeadline, x.watch.service))
      = some (some (.lost, 0, some 160, .outOfService)) := by decide +kernel

/-- R145: a jabber in the window bars for 60 seconds, raises JABBER and waits for quiet. -/
theorem test_jabber :
    ((after (exec .jabber sample)).map fun t =>
      (t.line.mode, (terminal t 1).map fun x => (x.link.barExpiry, x.watch.faults.jabber.state)))
      = some (.quiet 1 .normal, some (some 160, .active)) := by decide +kernel

/-- R145: a jabber after slot 1's window bars slot 1, not slot 2, whose call has not been sent after all. -/
theorem test_late_jabber :
    (((after (exec .miss sample)).bind fun t => after (exec .jabberLate t)).map fun t =>
      (t.line.mode, t.line.out, (terminal t 1).map (·.link.state), (terminal t 2).map (·.link.state)))
      = some (.quiet 1 .normal, [], some .barred, some .active) := by decide +kernel

/-- R117: an opening with a key and no round raises DOOR_UNSCHEDULED; raised again when it is LATCHED, its time of last change moves. -/
theorem test_raise_again :
    let opened : State → State := takeDoor 1 (.opened (.collector 5))
    let latched : Terminal := (station 11).onFault .doorUnscheduled fun _ => { state := .latched, changed := 7 }
    ((terminal (opened sample) 1).map (·.watch.faults.doorUnscheduled)) = some { state := .latched, changed := tuesday 10 10 }
      ∧ ((terminal (opened (sampleWith fun _ => latched)) 1).map (·.watch.faults.doorUnscheduled))
        = some { state := .latched, changed := tuesday 10 10 }
      ∧ (opened (sampleWith fun _ => latched)).attention.flags.fault = true := by decide +kernel

/-- R1: a wrap in BACKUP empties the ticket table and the segments, and leaves the round to the next start. -/
def wrappedInBackup : State :=
  (after (exec .secondTick
    { inBackup sampleRound with
      calendar := { sampleRound.calendar with zoneTime := 4294967295 }
      sales := { sampleRound.sales with live := [liveOne] } })).getD sample

theorem test_wrap_in_backup :
    wrappedInBackup.calendar.zoneTime = 0 ∧ wrappedInBackup.calendar.clockSet = false ∧ wrappedInBackup.sales.live = []
      ∧ (terminal wrappedInBackup 1).bind (·.segment) = none ∧ wrappedInBackup.cash.round = some roundOne := by decide +kernel

/-- R11, R16, R107: that start closes the round, and the group, whose clock is UNSET, is UNCOVERED (R129). -/
theorem test_start_after_wrap :
    (after (exec (.powerUp { zone := 0, rate := false, svc := true }) wrappedInBackup)).map (fun u => (u.cash.round, u.calendar.deadline))
        = some (none, none)
      ∧ ((after (exec (.powerUp { zone := 0, rate := false, svc := true }) wrappedInBackup)).map fun u =>
          u.journal.records.map (·.body))
        = some [.roundClosed 1 2 (tuesday 10 0) 0 [(1, .missed)], .coverChange 4 .uncovered 0] := by decide +kernel

/-- R162, section 12.3: a BUSY answer to kind 05 with tag 9, and an OK answer to it, byte for byte before the CRC. -/
theorem test_response_frames :
    (officeBusyFrame (5, 9)).take 6 = [0x7E, 0, 1, 5, 9, 3] ∧ (officeBusyFrame (5, 9)).length = 8
      ∧ ({ kind := 9, tag := 1, response := accepted .empty } : OfficeReply).frame.take 6 = [0x7E, 0, 1, 9, 1, 0]
      ∧ (serviceBusyFrame (0x01020304, 0x40, 7)).take 10 = [0x7E, 0, 5, 0x40, 7, 1, 2, 3, 4, 3] := by decide +kernel

/-- R12, R13: Tuesday 10:10 lies in the second band of plan 1, to 18:30; a switch to plan 6 at 12:00 ends it there. -/
theorem test_segment_found :
    segmentNow sample { current := some 1, pending := none } = (station 11).segment
      ∧ (segmentNow sample { current := some 1, pending := some (6, tuesday 12 0) }).map (·.ends) = some (tuesday 12 0)
      ∧ (segmentNow { sample with calendar := { sample.calendar with holidays := [9005] } } { current := some 1, pending := none }).map
          (·.profile) = some .holiday := by decide +kernel

/-- R141 to R143: the GRANT of a legacy OFFER is at level 1 with COINS alone. -/
theorem test_grant :
    ((after (exec .replyWindowEnd
        { sample with
          line := { sample.line with mode := .reply 4 true [12] [{ identity := 12, slot := 2, form := .legacy }] } })).map
      fun t => (t.line.mode, t.line.out, (terminal t 2).map fun x => (x.link.state, x.link.level)))
      = some (.idle, [.grant 12 2 1 (tuesday 10 10) 0 true], some (.granted, some 1)) := by decide +kernel

/-- R135: after slot 1's window slot 2 is called; after slot 2's, cycle 0 seeks. -/
theorem test_cycle :
    (afterWindow 1 .normal sample).line.out = [.call 2 .normal none] ∧ (afterWindow 2 .normal sample).line.out = [.seek 0] := by
  decide +kernel

/-- R178, R179: a power failure with a spent cell is followed by a cold start. -/
theorem test_cold_after_spent_cell :
    ((after (exec (.powerFailEntry true false) sample)).bind fun t =>
        after (exec (.powerUp { zone := 3, rate := true, svc := false }) t))
      = some { State.cold { zone := 3, rate := true, svc := false } with pending := sample.pending } := by decide +kernel

/-! ## Witnesses: for every statement with hypotheses, concrete values that meet them, clause by clause -/

/-- `sample` with no terminal, plan or permit: every table empty. -/
def bare : State := State.cold { zone := 0, rate := false, svc := true }

/-- A hold of 90 minutes behind slot 1's open quote and a round open over slot 1's box, with two commands waiting. -/
def lawful : State :=
  let s := (after (exec (.quote plainHead 2 90 204117 []) sampleRound)).getD bare
  { (after (exec .walkCompletion s)).getD bare with pending := [.clockGet 1, .status 2] }

theorem witness_StepTakesFront :
    (lawful.pending = .clockGet 1 :: [.status 2]) ∧ sample.pending = [] := ⟨rfl, rfl⟩

theorem witness_lawful_step : ∃ t, step lawful = .next t := ⟨_, rfl⟩

theorem witness_TablesStayOrdered : TablesOrdered lawful := by decide +kernel

theorem witness_CoinsStayAccounted :
    CoinsAccounted lawful ∧ CoinsAccounted (sampleWith fun t =>
      { t with cash := { t.cash with tally := ⟨1, 2, 3, 0, 0, 0⟩, accepted := ⟨2, 2, 3, 0, 0, 0⟩, collected := ⟨1, 0, 0, 0, 0, 0⟩ } }) := by
  decide +kernel

theorem witness_JournalStaysConsecutive :
    JournalConsecutive lawful
      ∧ JournalConsecutive
          { lawful with
            journal :=
              { lawful.journal with
                records :=
                  [4294967295, 1, 2].map fun n =>
                    { sequence := n, zoneTime := 0, unset := false, zone := 0, body := .coverChange 1 .covered 0 }
                nextSequence := 3 } } := by decide +kernel

theorem witness_RoundStaysAccounted : RoundAccounted lawful ∧ RoundAccounted sample := by decide +kernel

theorem witness_HoldsStayOwned :
    TablesOrdered lawful ∧ EngineSound lawful ∧ HoldsOwned lawful
      ∧ (Table.find? 204117 lawful.permits).bind (·.hold) = some { owner := 1, quoteId := 1, minutes := 90 } := by
  refine ⟨by decide +kernel, by decide +kernel, ?_, by decide +kernel⟩
  intro e he h hh
  cases List.mem_singleton.mp he
  cases hh
  exact ⟨_, List.Mem.head _, rfl, rfl, rfl⟩

theorem witness_PlansInUseStayReady : PlansReady lawful ∧ InUse 1 lawful := by
  refine ⟨?_, by decide +kernel⟩
  have own : ∀ e ∈ lawful.terminals, e.2.plans = { current := some 1, pending := none } := by decide +kernel
  rintro plan (⟨e, he, h⟩ | ⟨v, hv, _⟩)
  · rw [own e he] at h
    rcases h with h | ⟨p, hp, _⟩
    · cases h
      decide +kernel
    · cases hp
  · cases hv

theorem lawful_mode : lawful.line.mode = .window 2 .normal .active none := by decide +kernel

theorem witness_LinksStaySound :
    TablesOrdered lawful ∧ EngineSound lawful ∧ LinksSound lawful ∧ (terminal lawful 1).map (·.link.queue.length) = some 1 := by
  refine ⟨by decide +kernel, by decide +kernel, ⟨by decide +kernel, ?_⟩, by decide +kernel⟩
  intro slot kind calledAs h
  rw [lawful_mode] at h
  cases h

theorem witness_StatesStayDerived : TablesOrdered lawful ∧ RoundAccounted lawful ∧ StatesDerived lawful := by decide +kernel

/-- The station in another link state. -/
def linked (state : LinkState) : Terminal := { station 11 with link := { (station 11).link with state := state } }

/-- `sample` with this unreserved free space (R158). -/
def withFree (n : Nat) : State := { sample with journal := { sample.journal with reservation := 1024 - n } }

def withCard (card : Bool) (level : Nat) : Terminal :=
  { station 11 with
    link :=
      { (station 11).link with
        level := some level
        caps := some { coins := true, card := card, permitEntry := false, plateEntry := false, keyWake := false } } }

def faulty (t : Terminal) (k : FaultKind) (state : FaultState) : Terminal :=
  t.onFault k fun _ => { state := state, changed := 0 }

/-- R118, R125: every case of the service state, at the bounds of its conditions: 33 and 32 free entries, HELD and LATCHED, level 2 and 1. -/
theorem witness_StatesStayDerived_service :
    ((withFree 33).calendar.clockSet = true ∧ freeSpace (withFree 33) = 33 ∧ freeSpace (withFree 32) = 32
        ∧ (station 11).link.state = .active ∧ (station 11).watch.door = .closed
        ∧ (station 11).watch.faults = clearFaults 0 ∧ (withCard true 2).link.level = some 2)
      ∧ serviceOf (withFree 33) (station 11) = .inService ∧ serviceOf (withFree 32) (station 11) = .outOfService
      ∧ serviceOf (withFree 33) (linked .sleeping) = .inService ∧ serviceOf (withFree 33) (linked .granted) = .outOfService
      ∧ serviceOf (withFree 33) (faulty (station 11) .doorForced .latched) = .outOfService
      ∧ serviceOf (withFree 33) (faulty (station 11) .jabber .latched) = .inService
      ∧ serviceOf (withFree 33) (faulty (station 11) .jabber .held) = .outOfService
      ∧ serviceOf (withFree 33) (faulty (withCard true 2) .cardFault .held) = .cashOnly
      ∧ serviceOf (withFree 33) (faulty (withCard true 1) .cardFault .held) = .inService
      ∧ serviceOf (withFree 33) (faulty (withCard true 2) .boxFull .active) = .cardOnly
      ∧ serviceOf (withFree 33) (faulty (withCard false 3) .boxFull .active) = .outOfService
      ∧ serviceOf (withFree 33) (faulty (faulty (withCard true 3) .coinJam .held) .cardFault .active) = .outOfService := by
  decide +kernel

/-- R129: a group with no member, one whose member is CHARGED and in service or out of it, one in FREE time, and the clock UNSET. -/
theorem witness_StatesStayDerived_cover :
    ((1, station 11) ∈ sample.terminals ∧ (station 11).config.group = 4 ∧ (station 11).segment.map (·.kind) = some .charged
        ∧ (station 11).watch.service = .inService ∧ (∀ e ∈ sample.terminals, e.2.config.group ≠ 12))
      ∧ coverOf 12 sample = .freeTime ∧ coverOf 4 sample = .covered
      ∧ (let out (kind : SegKind) : State :=
          { sample with
            terminals := sample.terminals.map fun e =>
              (e.1, { e.2 with
                watch := { e.2.watch with service := .outOfService }, segment := e.2.segment.map fun g => { g with kind := kind } }) }
         coverOf 4 (out .charged) = .uncovered ∧ coverOf 4 (out .free) = .freeTime)
      ∧ coverOf 4 { sample with calendar := { sample.calendar with clockSet := false } } = .uncovered := by decide +kernel

theorem witness_MarksStayOwed :
    (TablesOrdered lawful ∧ MarksOnlyWhenFull lawful)
      ∧ (let s : State :=
          { lawful with
            journal := { lawful.journal with reservation := 1024 }
            groups := Table.modify 4 (fun g => { g with mark := true }) lawful.groups }
        TablesOrdered s ∧ MarksOnlyWhenFull s ∧ ∃ t, step s = .next t) :=
  ⟨by decide +kernel, by decide +kernel, by decide +kernel, _, rfl⟩

theorem witness_OfficeFramesRoundTrip :
    ∃ bytes, (Instr.permitPut 1 204117 2 9000 9030 120 1 [3, 4] [65, 66]).wf = true
      ∧ officeBytes (.permitPut 1 204117 2 9000 9030 120 1 [3, 4] [65, 66]) = some bytes := ⟨_, by decide +kernel, rfl⟩

theorem witness_OfficeFramesRoundTrip_response :
    let r : OfficeReply := { kind := 0x1C, tag := 255, response := accepted .empty }
    r.kind < 256 ∧ r.tag < 256 ∧ (r.response.bytes r.kind).length ≤ 1024 := by decide +kernel

theorem witness_ServiceFramesRoundTrip_response :
    let r : ServiceReply := { identity := 0xFFFFFFFF, kind := 0x45, tag := 255, response := refused .noRound }
    r.kind < 256 ∧ r.tag < 256 ∧ r.identity < 2 ^ 32 ∧ (r.response.bytes r.kind).length ≤ 252 := by decide +kernel

theorem witness_ServiceFramesRoundTrip :
    ∃ bytes, (Instr.ticketCheck 0xFFFFFFFF 255 999999 [65, 66]).wf = true
      ∧ serviceBytes (.ticketCheck 0xFFFFFFFF 255 999999 [65, 66]) = some bytes := ⟨_, by decide +kernel, rfl⟩

theorem witness_KerbFramesRoundTrip :
    (∃ bytes, (Instr.quote plainHead 2 90 204117 [65]).wf = true ∧ answerBytes (.quote plainHead 2 90 204117 [65]) = some bytes)
      ∧ (Instr.offer (256 ^ 6 - 1) (.full 0x1F 15)).wf = true := ⟨⟨_, by decide +kernel, rfl⟩, by decide +kernel⟩

theorem witness_StepPrices : (100 : Nat) ≤ 100 ∧ (80 : Nat) ≤ 80 ∧ (0 : Nat) < 1 := by decide

theorem witness_WalksKeepTheTariffLaw :
    (let w := walkOf (tuesday 11 20) (.byDuration 150) none 0 (some (6, tuesday 12 0))
     w.walk.entry.start % 60 = 0 ∧ w.walk.entry.start ≤ Config.lastMinute ∧ ∀ p ∈ w.walk.pending, p.2 % 60 = 0)
      ∧ (let w := walkOf Config.lastMinute (.byAmount 200) none 5 none
         w.walk.entry.start % 60 = 0 ∧ w.walk.entry.start ≤ Config.lastMinute ∧ ∀ p ∈ w.walk.pending, p.2 % 60 = 0) := by
  decide +kernel

/-- Walk 3 is CLAMPED and its 120 minutes OK; a start at the last minute sells nothing; no tender, 30 pence, and walk 1. -/
theorem witness_WalkOutcomes :
    (walkOf (tuesday 11 20) (.byDuration 150) none 0 (some (6, tuesday 12 0))).run.outcome = .clamped
      ∧ (walkOf (tuesday 11 20) (.byDuration 120) none 0 (some (6, tuesday 12 0))).run.outcome = .ok
      ∧ (walkOf Config.lastMinute (.byDuration 1) none 0 none).run.outcome = .noSale
      ∧ (walkOf (tuesday 17 52) (.byAmount 0) none 0 none).run.outcome = .noTender
      ∧ (walkOf (tuesday 17 52) (.byAmount 30) none 0 none).run.outcome = .belowMinimum
      ∧ (walkOf (tuesday 17 52) (.byAmount 200) none 0 none).run.outcome = .ok := by decide +kernel

/-- A walk of plan 1 at a minute of Tuesday, with these minutes bought. -/
def roundAt (hour minute bought : Nat) : WalkState :=
  { t := tuesday hour minute, cost := 0, bought := bought, allowance := 0, k := 0,
    segment := (walkOf (tuesday hour minute) (.byAmount 200) none 0 none).find 0 (tuesday hour minute), finding := 1,
    lastPlan := none, tried := 0 }

/-- R44 to R50: the horizon; the maximum stay of 180 minutes and one minute before it; a limit of 49 under a first step of 50 pence, and
of 50; the step to the segment's end at 18:30; a target at the step's end and one past it; a free pass to 08:00 and one cut at h. -/
theorem witness_WalkOutcomes_rounds :
    let w := walkOf (tuesday 10 10) (.byAmount 200) none 0 none
    let h := tuesday 34 10
    (∃ g, (roundAt 10 10 0).segment = some g ∧ g.band = .charged 15 50 10 80 180 ∧ w.freePass h 1442 (roundAt 10 10 0) = roundAt 10 10 0)
      ∧ (w.rounds (tuesday 10 10) 200 none none 1 (roundAt 10 10 0)).2 = .horizon
      ∧ (w.rounds h 200 none none 1 (roundAt 10 10 180)).2 = .maxStay
      ∧ (w.rounds h 49 none none 1 (roundAt 10 10 179)).1.bought = 180
      ∧ (w.rounds h 49 none none 1 (roundAt 10 10 0)).2 = .limit ∧ (w.rounds h 49 none none 1 (roundAt 10 10 0)).1.tried = 50
      ∧ (w.rounds h 50 none none 1 (roundAt 10 10 0)).1.k = 1
      ∧ (w.rounds h 50 none none 1 (roundAt 18 20 0)).1.k = 0 ∧ (w.rounds h 50 none none 1 (roundAt 18 20 0)).1.t = tuesday 18 30
      ∧ (w.rounds h 50 (some (tuesday 10 25)) none 1 (roundAt 10 10 0)).2 = .target
      ∧ (w.rounds h 50 (some (tuesday 10 26)) none 2 (roundAt 10 10 0)).2 = .limit
      ∧ (w.freePass h 1442 (roundAt 7 0 0)).t = tuesday 8 0 ∧ (w.freePass (tuesday 7 30) 1442 (roundAt 7 0 0)).t = tuesday 7 30 := by
  refine ⟨⟨_, rfl, rfl, ?_⟩, ?_⟩ <;> decide +kernel

/-- R45: a round that meets a NO_STAY band ends in it. -/
theorem witness_WalkOutcomes_noStay :
    let w := walkOf (tuesday 10 10) (.byAmount 200) none 0 none
    let x : WalkState :=
      { roundAt 10 10 0 with
        segment := (roundAt 10 10 0).segment.map fun g =>
          { g with band := .noStay, segment := { g.segment with kind := .noStay } } }
    (w.rounds (tuesday 34 10) 200 none none 1 x).2 = .noStay ∧ x.t ≠ tuesday 34 10 := by decide +kernel

def officeBusyWith (n : Nat) : State :=
  { sample with
    office :=
      { sample.office with
        current := some { kind := 1, tag := 1, response := accepted .empty }, busy := List.replicate n (2, 2), overruns := 255 } }

def linkBusyWith (n : Nat) : State :=
  { sample with
    service :=
      { sample.service with
        current := some { identity := 1, kind := 0x40, tag := 1, response := accepted .empty }
        busy := List.replicate n (2, 2, 2) } }

theorem witness_OfficeRequestsMeetBusy :
    (officeBusyWith 3).supply.part = .running ∧ (officeBusyWith 3).office.current.isSome = true
      ∧ (officeBusyWith 3).office.busy.length < 4 ∧ (officeBusyWith 4).supply.part = .running
      ∧ (officeBusyWith 4).office.current.isSome = true ∧ ¬(officeBusyWith 4).office.busy.length < 4
      ∧ (officeRequestBytes (.gracePut 3 16)).map (fun r => (r.1, r.2.1)) = some (9, 3) := by decide +kernel

theorem witness_ServiceRequestsMeetBusy :
    (linkBusyWith 3).supply.part = .running ∧ (linkBusyWith 3).supply.straps.svc = true
      ∧ (linkBusyWith 3).service.current.isSome = true ∧ (linkBusyWith 3).service.busy.length < 4
      ∧ (linkBusyWith 4).service.current.isSome = true ∧ ¬(linkBusyWith 4).service.busy.length < 4
      ∧ (serviceRequestBytes (.groupCheck 7 3 12)).map (fun r => (r.1, r.2.1, r.2.2.1)) = some (0x42, 3, 7) := by decide +kernel

theorem witness_DeafPorts :
    ((inBackup sample).supply.part = .backup ∧ Instr.status 1 ≠ .secondTick ∧ Instr.status 1 ≠ .zoneTimeWrap
        ∧ Instr.status 1 ≠ .cellBelowRetention ∧ ∀ straps : Straps, Instr.status 1 ≠ .powerUp straps)
      ∧ State.reset.supply.straps.svc = false ∧ (serviceRequestBytes (.groupCheck 7 3 12)).isSome = true := by
  refine ⟨⟨rfl, nofun, nofun, nofun, nofun⟩, rfl, by decide +kernel⟩

/-- Handheld 9 is not in the roster; handheld 1, an officer, may not ask for a round list. -/
theorem witness_ServiceRequestsCheckSender :
    sample.supply.part = .running ∧ sample.supply.straps.svc = true ∧ sample.service.current = none
      ∧ (serviceRequestBytes (.roundList 9 1)).map (fun r => (r.1, r.2.2.1)) = some (0x44, 9)
      ∧ Table.find? 9 sample.roster = none ∧ (serviceRequestBytes (.roundList 1 1)).map (fun r => (r.1, r.2.2.1)) = some (0x44, 1)
      ∧ Table.find? 1 sample.roster = some { role := .officer, key := none } ∧ 0x44 ∉ roleKinds .officer := by decide +kernel

theorem witness_ReceiversAndBadFrames :
    (sample.supply.part = .running ∧ sample.office.current = none ∧ sample.supply.straps.svc = true
        ∧ sample.service.current = none ∧ Table.find? 9 sample.roster = none)
      ∧ ((officeBusyWith 4).supply.part = .running ∧ ∃ r ∈ (officeBusyWith 4).office.current, r.kind ≠ 0x1C)
      ∧ ((linkBusyWith 4).supply.part = .running ∧ (linkBusyWith 4).service.current.isSome = true)
      ∧ (sample.office.busy = [] ∧ sample.service.busy = [])
      ∧ (let s : State := { officeBusyWith 2 with office := { (officeBusyWith 2).office with current := none } }
         s.supply.part = .running ∧ s.office.current = none ∧ s.office.busy = (2, 2) :: [(2, 2)])
      ∧ (let s : State := { linkBusyWith 2 with service := { (linkBusyWith 2).service with current := none } }
         s.supply.part = .running ∧ s.service.current = none ∧ s.service.busy = (2, 2, 2) :: [(2, 2, 2)])
      ∧ (∃ e : RosterEntry, Table.find? 1 sample.roster = some e ∧ 0x40 ∈ roleKinds e.role)
      ∧ (∃ e : RosterEntry, Table.find? 1 sample.roster = some e ∧ ∀ role : Role, 0x00 ∉ roleKinds role)
      ∧ ∃ e : RosterEntry, Table.find? 1 sample.roster = some e ∧ 0x47 ∉ roleKinds e.role ∧ ∃ role : Role, 0x47 ∈ roleKinds role :=
  ⟨by decide +kernel, by decide +kernel, by decide +kernel, by decide +kernel, by decide +kernel, by decide +kernel,
    ⟨_, rfl, by decide⟩, ⟨_, rfl, fun r => by cases r <;> decide⟩, _, rfl,
    by decide, .engineer, by decide⟩

/-! ### The office port and the handhelds -/

theorem witness_PermitGetAnswers :
    OfficeFree sample ∧ Table.find? 1 sample.permits = none ∧ (Table.find? 204117 sample.permits).isSome = true := by decide +kernel

/-- A collection record of box 1 in the list. -/
def sampleCollected : State :=
  { sample with
    cash :=
      { sample.cash with
        collections :=
          [{ number := 3, slot := 1, key := 5, periodStart := 0, periodEnd := tuesday 9 0, expected := ⟨400, 700, 500, 250, 100, 60⟩,
             value := 53500 }]
        nextCollection := 4 } }

theorem witness_ToleranceLaw :
    sample.supply.latch = false ∧ ({ sample with supply := { sample.supply with latch := true } } : State).supply.latch = true
      ∧ lawful.cash.tolerance ≤ 1000 ∧ OfficeFree sampleCollected ∧ 0 < freeSpace sampleCollected
      ∧ (collectionOf 3 sampleCollected).isSome = true := by decide +kernel

theorem witness_AttentionMaskLaw :
    OfficeFree sample ∧ (∃ bit : Nat, 10 ≤ bit ∧ Nat.testBit 0x0400 bit = true)
      ∧ ∀ bit : Nat, 10 ≤ bit → Nat.testBit 0x03FF bit = false :=
  ⟨by decide +kernel, ⟨10, by decide, by decide⟩,
    fun bit h => Nat.testBit_lt_two_pow (Nat.lt_of_lt_of_le (by decide) (Nat.pow_le_pow_right (by decide) h))⟩

theorem witness_StatusReadsAndClears : OfficeFree sample := by decide +kernel

/-- The bounds of DENOMINATIONS_PUT and ROSTER_PUT, a tally that holds the values fast, and a full roster. -/
theorem witness_SettingsAreTaken :
    OfficeFree sample
      ∧ (let bad (before d : Nat) : Prop := d = 0 ∨ 1000 < d ∨ d ≤ before
         let checks (v : Six) (s : State) : List (Prop × Response) :=
            [(bad 0 v.n1, refusedAt .badDenominations 1), (bad v.n1 v.n2, refusedAt .badDenominations 2),
              (bad v.n2 v.n3, refusedAt .badDenominations 3), (bad v.n3 v.n4, refusedAt .badDenominations 4),
              (bad v.n4 v.n5, refusedAt .badDenominations 5), (bad v.n5 v.n6, refusedAt .badDenominations 6),
              ((s.terminals.filter fun e => e.2.cash.tally ≠ .zero).length ≠ 0 ∨ s.cash.collections ≠ [],
                { code := .denominationsInUse,
                  body := .inUse (s.terminals.filter fun e => e.2.cash.tally ≠ .zero).length s.cash.collections.length })]
         NoneFails (checks ⟨1, 2, 3, 4, 5, 1000⟩ sample)
          ∧ FirstFails (checks ⟨0, 2, 3, 4, 5, 6⟩ sample) (refusedAt .badDenominations 1)
          ∧ FirstFails (checks ⟨1, 2, 3, 4, 5, 1001⟩ sample) (refusedAt .badDenominations 6)
          ∧ FirstFails (checks ⟨1, 2, 2, 4, 5, 6⟩ sample) (refusedAt .badDenominations 3)
          ∧ FirstFails (checks ⟨1, 2, 3, 4, 5, 6⟩ sampleCollected) { code := .denominationsInUse, body := .inUse 0 1 })
      ∧ (let checks (identity role key : Nat) (s : State) : List (Prop × Response) :=
            [(identity = 0, refusedAt .badRoster 1), (role < 1 ∨ 3 < role, refusedAt .badRoster 2),
              (role = 2 ∧ key = 0, refusedAt .badRoster 3),
              ((Table.find? identity s.roster).isSome = false ∧ 64 ≤ s.roster.length, refused .rosterFull)]
         let full : State :=
          { sample with roster := (List.range 64).map fun n => (n + 1, { role := .officer, key := none }) }
         NoneFails (checks 9 2 1 sample) ∧ FirstFails (checks 0 1 1 sample) (refusedAt .badRoster 1)
          ∧ FirstFails (checks 9 4 1 sample) (refusedAt .badRoster 2) ∧ FirstFails (checks 9 2 0 sample) (refusedAt .badRoster 3)
          ∧ FirstFails (checks 65 1 1 full) (refused .rosterFull) ∧ NoneFails (checks 64 3 0 full))
      ∧ Table.find? 9 sample.roster = none ∧ (Table.find? 3 sample.roster).isSome = true := by
  dsimp only
  repeat' (first
    | decide +kernel | exact trivial | exact Or.inl ⟨by decide +kernel, rfl⟩
    | refine Or.inr ⟨by decide +kernel, ?_⟩ | refine ⟨by decide +kernel, ?_⟩ | refine ⟨?_, ?_⟩)

theorem witness_OfficeQueriesAnswer :
    OfficeFree sample ∧ terminal sample 24 = none ∧ (terminal sample 1).isSome = true ∧ sample.journal.records = [] := by
  decide +kernel

/-- The last second before the grace ends is IN_GRACE; at its end the entry is as UNKNOWN. The permit's first and last days. -/
theorem witness_ServiceQueriesAnswer :
    LinkFree 1 { role := .officer, key := none } sample ∧ LinkFree 2 { role := .collector, key := some 5 } sample
      ∧ LinkFree 3 { role := .engineer, key := none } sample ∧ (Table.find? 4 sample.groups).isSome = true
      ∧ (let now := sample.calendar.zoneTime
         let ticket (x : LiveTicket) (plate : Plate) : List (Prop × Code) :=
          [(x.expiry + sample.sales.grace * 60 ≤ now, .unknown), (plate ≠ [] ∧ ∃ p ∈ x.plate, p ≠ plate, .plateMismatch),
            (now < x.expiry, .valid), (True, .inGrace)]
         FirstFails (ticket { liveOne with expiry := now - 300 } []) .unknown
          ∧ FirstFails (ticket { liveOne with expiry := now - 299 } []) .inGrace
          ∧ FirstFails (ticket { liveOne with expiry := now } [65]) .inGrace
          ∧ FirstFails (ticket { liveOne with expiry := now + 1 } [65]) .valid
          ∧ FirstFails (ticket { liveOne with expiry := now + 1 } [66]) .plateMismatch)
      ∧ (let permit (p : Permit) (group : Nat) (plate : Plate) : List (Prop × Code) :=
          [(p.suspended = true, .suspended), (today sample < p.firstDay, .notYet), (p.lastDay < today sample, .expired),
            (group ∉ p.zones, .notInZone), (plate ≠ [] ∧ ∃ q ∈ p.plate, q ≠ plate, .plateMismatch), (True, .valid)]
         let p : Permit :=
          { kind := .visitor, zones := [3, 4], plate := some [65], firstDay := 9005, lastDay := 9005, allowance := 0,
            suspended := false, consumed := 0, hold := none }
         FirstFails (permit p 4 [65]) .valid ∧ FirstFails (permit { p with suspended := true } 4 []) .suspended
          ∧ FirstFails (permit { p with firstDay := 9006 } 4 []) .notYet
          ∧ FirstFails (permit { p with lastDay := 9004 } 4 []) .expired ∧ FirstFails (permit p 5 []) .notInZone
          ∧ FirstFails (permit p 4 [66]) .plateMismatch)
      ∧ sampleRound.cash.round = some roundOne ∧ sample.cash.round = none ∧ terminal sample 24 = none
      ∧ terminal sample 1 = some (station 11) := by
  dsimp only
  repeat' (first
    | decide +kernel | exact trivial | exact Or.inl ⟨by decide +kernel, rfl⟩
    | refine Or.inr ⟨by decide +kernel, ?_⟩ | refine ⟨by decide +kernel, ?_⟩ | refine ⟨?_, ?_⟩)

/-! ### Calendar, plans and permits -/

theorem witness_ClockSetJumps :
    SourceFree (.office 1) sample ∧ SourceFree (.handheld 3 1) sample ∧ TablesOrdered sample
      ∧ NoneFails (clockChecks (.office 1) 86400 840 sample) ∧ NoneFails (clockChecks (.office 1) 4294000000 (-840) sample)
      ∧ FirstFails (clockChecks (.handheld 3 1) 86400 0 sample) (refused .clockHeld)
      ∧ FirstFails (clockChecks (.office 1) 86399 0 sample) (refused .badTime)
      ∧ FirstFails (clockChecks (.office 1) 4294000001 0 sample) (refused .badTime)
      ∧ FirstFails (clockChecks (.office 1) 86400 855 sample) (refused .badOffset)
      ∧ FirstFails (clockChecks (.office 1) 86400 (-841) sample) (refused .badOffset)
      ∧ SourceFree (.office 1) sampleRound ∧ TablesOrdered sampleRound ∧ NoneFails (clockChecks (.office 1) (tuesday 18 0) 0 sampleRound)
      ∧ (∃ d ∈ sampleRound.calendar.deadline, d ≤ tuesday 18 0) ∧ (∃ d ∈ sampleRound.calendar.deadline, tuesday 17 59 < d) := by
  refine ⟨⟨by decide +kernel, by decide +kernel⟩, ⟨_, rfl, rfl, rfl, rfl, rfl⟩, by decide +kernel, ?_⟩
  repeat' (first
    | decide +kernel | exact trivial | exact Or.inl ⟨by decide +kernel, rfl⟩
    | refine Or.inr ⟨by decide +kernel, ?_⟩ | refine ⟨by decide +kernel, ?_⟩ | refine ⟨?_, ?_⟩)

theorem witness_HolidaysPutReplaces :
    OfficeFree sample ∧ TablesOrdered sample ∧ NoneFails (holidayChecks []) ∧ NoneFails (holidayChecks [1, 49710])
      ∧ FirstFails (holidayChecks [0]) (refusedAt .badList 1) ∧ FirstFails (holidayChecks [1, 49711]) (refusedAt .badList 2)
      ∧ FirstFails (holidayChecks [7, 7]) (refusedAt .badList 2)
      ∧ FirstFails (holidayChecks ((List.range 33).map (· + 1))) (refusedAt .badList 33) := by
  repeat' (first
    | decide +kernel | exact trivial | exact Or.inl ⟨by decide +kernel, rfl⟩
    | refine Or.inr ⟨by decide +kernel, ?_⟩ | refine ⟨by decide +kernel, ?_⟩ | refine ⟨?_, ?_⟩)

def atTime (zoneTime : Nat) (s : State) : State := { s with calendar := { s.calendar with zoneTime := zoneTime } }

theorem witness_SecondsEnd :
    (sample.supply.part = .running ∧ sample.calendar.zoneTime ≠ 4294967295)
      ∧ ((inBackup sample).supply.part = .backup ∧ (inBackup sample).calendar.zoneTime ≠ 4294967295)
      ∧ ((inBackup (atTime 4294967295 sample)).supply.part = .backup
        ∧ (inBackup (atTime 4294967295 sample)).calendar.zoneTime = 4294967295)
      ∧ (let s := atTime 4294967295 sample
         s.supply.part = .running ∧ s.calendar.zoneTime = 4294967295 ∧ TablesOrdered s ∧ s.calendar.deadline = none)
      ∧ (let s := atTime 4294967295 lawful
         s.supply.part = .running ∧ s.calendar.zoneTime = 4294967295 ∧ TablesOrdered s ∧ s.calendar.deadline ≠ none) := by
  decide +kernel

theorem witness_RollsRunWhenDue :
    sample.supply.part = .running ∧ sample.calendar.zoneTime % 60 = 0 ∧ (atTime (tuesday 10 10 + 59) sample).calendar.zoneTime % 60 ≠ 0
      ∧ (∀ d ∈ sample.calendar.lastRolled, today sample ≤ d)
      ∧ (let s := atTime (tuesday 24 0) sample
         s.supply.part = .running ∧ (∃ d ∈ s.calendar.lastRolled, d < today s) ∧ s.calendar.clockSet = true ∧ TablesOrdered s) := by
  decide +kernel

theorem witness_BoundariesAndSwitches :
    sample.supply.part = .running ∧ State.reset.calendar.clockSet = false ∧ terminal sample 9 = none
      ∧ (terminal sample 1).isSome = true ∧ sample.calendar.clockSet = true
      ∧ (∃ g ∈ (station 11).segment, tuesday 18 29 < g.ends ∧ g.ends ≤ (atTime (tuesday 18 30) sample).calendar.zoneTime)
      ∧ (let x : Terminal := { station 11 with plans := { current := some 1, pending := some (6, tuesday 10 10) } }
         terminal (sampleWith fun _ => x) 1 = some x
          ∧ ∃ p ∈ x.plans.pending, p.2 ≤ sample.calendar.zoneTime ∧ (atTime (tuesday 10 9) sample).calendar.zoneTime < p.2) := by
  decide +kernel

/-- Tuesday 10:10 lies in the charged band between the free ones, 18:30 begins the last band, and a switch time that is now has passed. -/
theorem witness_BoundariesAndSwitches_found :
    (sample.calendar.clockSet = true
        ∧ Table.find? 1 sample.plans = some (.ready (allDays ([freeBand 0] ++ { start := 480, kind := .charged 15 50 10 80 180 } :: [freeBand 1110])) noDiscounts)
        ∧ ((tuesday 10 10 : Nat) : Int) = sample.calendar.zoneTime + 60 * sample.calendar.offset)
      ∧ (∀ profile : Profile, Table.find? profile.number (allDays walkBands)
          = some ([freeBand 0] ++ { start := 480, kind := .charged 15 50 10 80 180 } :: [freeBand 1110]))
      ∧ (480 ≤ tuesday 10 10 % 86400 / 60 ∧ (∀ c ∈ [freeBand 1110], tuesday 10 10 % 86400 / 60 < c.start)
        ∧ ∀ c ∈ [freeBand 1110], c.start ≤ 1439)
      ∧ (∀ profile : Profile, Table.find? profile.number (allDays walkBands)
          = some ([freeBand 0, { start := 480, kind := .charged 15 50 10 80 180 }] ++ freeBand 1110 :: []))
      ∧ (freeBand 1110).start ≤ tuesday 18 30 % 86400 / 60
      ∧ (∃ p ∈ some ((1 : Nat), tuesday 10 10), p.2 ≤ sample.calendar.zoneTime)
      ∧ ¬(∃ p ∈ some ((6 : Nat), tuesday 10 11), p.2 ≤ sample.calendar.zoneTime) := by
  refine ⟨by decide +kernel, fun p => by cases p <;> decide +kernel, by decide +kernel,
    fun p => by cases p <;> decide +kernel, by decide +kernel⟩

def band (start : Nat) : BandEntry := { start := start, kind := 1, step := 15, price := 50, increment := 10, cap := 80, stay := 180 }

/-- `sample` with slot 8 in BUILD without profiles. -/
def sampleBuilding : State := { sample with plans := Table.put 8 (.building []) sample.plans }

theorem witness_PlanStoreRequests :
    OfficeFree sampleBuilding ∧ NoneFails (planChecks 8 sample) ∧ FirstFails (planChecks 0 sample) (refused .badPlanSlot)
      ∧ FirstFails (planChecks 9 sample) (refused .badPlanSlot) ∧ FirstFails (planChecks 1 sample) (refused .planInUse)
      ∧ Table.find? 8 sampleBuilding.plans = some (.building [])
      ∧ Table.find? 7 sample.plans = some (.building (allDays walkBands)) := by
  repeat' (first
    | decide +kernel | exact trivial | exact Or.inl ⟨by decide +kernel, rfl⟩
    | refine Or.inr ⟨by decide +kernel, ?_⟩ | refine ⟨by decide +kernel, ?_⟩ | refine ⟨?_, ?_⟩)

theorem slot5_not_building (profiles : Table (List Band)) : Table.find? 5 sample.plans ≠ some (.building profiles) := by
  have h : Table.find? 5 sample.plans = none := by decide +kernel
  rw [h]
  nofun

theorem witness_PlanStoreRequests_profile :
    FirstFails (profileChecks 5 1 [band 0] sample) (refused .notBuilding)
      ∧ NoneFails (profileChecks 8 8 [{ band 0 with step := 120, price := 2000, increment := 500, cap := 5000, stay := 1440 }] sampleBuilding)
      ∧ NoneFails (profileChecks 8 1 [{ band 0 with step := 1, price := 1, cap := 1 }, { band 1439 with kind := 3 }] sampleBuilding)
      ∧ FirstFails (profileChecks 8 9 [band 0] sampleBuilding) (refused .badProfile)
      ∧ FirstFails (profileChecks 8 1 [] sampleBuilding) (refused .badBandCount)
      ∧ FirstFails (profileChecks 8 1 ((List.range 13).map band) sampleBuilding) (refused .badBandCount)
      ∧ FirstFails (profileChecks 8 1 [band 1] sampleBuilding) { code := .badBand, body := .bandField 1 1 }
      ∧ FirstFails (profileChecks 8 1 [band 0, band 1440] sampleBuilding) { code := .badBand, body := .bandField 2 1 }
      ∧ FirstFails (profileChecks 8 1 [{ band 0 with kind := 4 }] sampleBuilding) { code := .badBand, body := .bandField 1 2 }
      ∧ FirstFails (profileChecks 8 1 [{ band 0 with step := 121 }] sampleBuilding) { code := .badBand, body := .bandField 1 3 }
      ∧ FirstFails (profileChecks 8 1 [{ band 0 with price := 2001 }] sampleBuilding) { code := .badBand, body := .bandField 1 4 }
      ∧ FirstFails (profileChecks 8 1 [{ band 0 with increment := 501 }] sampleBuilding) { code := .badBand, body := .bandField 1 5 }
      ∧ FirstFails (profileChecks 8 1 [{ band 0 with cap := 49 }] sampleBuilding) { code := .badBand, body := .bandField 1 6 }
      ∧ FirstFails (profileChecks 8 1 [{ band 0 with stay := 1441 }] sampleBuilding) { code := .badBand, body := .bandField 1 7 } := by
  repeat' (first
    | decide +kernel | exact trivial
    | exact Or.inl ⟨slot5_not_building, rfl⟩ | refine Or.inr ⟨fun h => h _ rfl, ?_⟩ | refine ⟨fun h => h _ rfl, ?_⟩ | exact Or.inl ⟨by decide +kernel, rfl⟩
    | refine Or.inr ⟨by decide +kernel, ?_⟩ | refine ⟨by decide +kernel, ?_⟩ | refine ⟨?_, ?_⟩)

theorem witness_PlanStoreRequests_close :
    NoneFails (closeChecks 7 100 100 100 (allDays walkBands) sample)
      ∧ FirstFails (closeChecks 8 0 0 0 [] sampleBuilding) { code := .profilesMissing, body := .missing 1 8 }
      ∧ FirstFails (closeChecks 7 101 0 0 (allDays walkBands) sample) (refusedAt .badDiscount 1)
      ∧ FirstFails (closeChecks 7 100 101 0 (allDays walkBands) sample) (refusedAt .badDiscount 2)
      ∧ FirstFails (closeChecks 7 100 100 101 (allDays walkBands) sample) (refusedAt .badDiscount 3) := by
  repeat' (first
    | decide +kernel | exact trivial | exact Or.inl ⟨by decide +kernel, rfl⟩
    | refine Or.inr ⟨by decide +kernel, ?_⟩ | refine ⟨by decide +kernel, ?_⟩ | refine ⟨?_, ?_⟩)

theorem witness_PlanAssignments :
    OfficeFree sample ∧ NoneFails (assignChecks 6 (some (tuesday 10 10)) [1] sample)
      ∧ NoneFails (assignChecks 6 (some (tuesday 10 11)) [2, 1] sample) ∧ NoneFails (assignChecks 6 none [1, 2] sample)
      ∧ FirstFails (assignChecks 9 none [1] sample) (refused .badPlanSlot)
      ∧ FirstFails (assignChecks 7 none [1] sample) (refused .planNotReady)
      ∧ FirstFails (assignChecks 6 none [25] sample) (refused .badSlotSet)
      ∧ FirstFails (assignChecks 6 none [1, 1] sample) (refused .badSlotSet)
      ∧ FirstFails (assignChecks 6 none [1, 24] sample) (refusedAt .slotEmpty 24)
      ∧ FirstFails (assignChecks 6 (some 60) [1] { sample with calendar := { sample.calendar with clockSet := false } })
          (refused .noClock)
      ∧ FirstFails (assignChecks 6 (some (tuesday 12 0 + 59)) [1] sample) (refused .badSwitchTime) := by
  repeat' (first
    | decide +kernel | exact trivial | exact Or.inl ⟨by decide +kernel, rfl⟩
    | refine Or.inr ⟨by decide +kernel, ?_⟩ | refine ⟨by decide +kernel, ?_⟩ | refine ⟨?_, ?_⟩)

/-- A full register: 4096 records of numbers 1 to 4096. -/
def fullRegister : State :=
  { sample with
    permits :=
      (List.range 4096).map fun n =>
        (n + 1,
          { kind := .resident, zones := [1], plate := none, firstDay := 0, lastDay := 0, allowance := 0, suspended := false,
            consumed := 0, hold := none }) }

theorem witness_PermitChanges :
    OfficeFree sample ∧ NoneFails (permitPutChecks 16777215 1 0 49710 1440 2 [12, 1] (List.replicate 8 65) sample)
      ∧ NoneFails (permitPutChecks 204117 3 0 0 0 1 [4] [] sample)
      ∧ FirstFails (permitPutChecks 0 1 0 0 0 1 [1] [] sample) (refusedAt .badPermit 1)
      ∧ FirstFails (permitPutChecks 1 0 0 0 0 1 [1] [] sample) (refusedAt .badPermit 2)
      ∧ FirstFails (permitPutChecks 1 1 0 0 0 1 [13] [] sample) (refusedAt .badPermit 3)
      ∧ FirstFails (permitPutChecks 1 1 0 0 0 1 [1] (List.replicate 9 65) sample) (refusedAt .badPermit 4)
      ∧ FirstFails (permitPutChecks 1 1 0 49711 0 1 [1] [] sample) (refusedAt .badPermit 5)
      ∧ FirstFails (permitPutChecks 1 1 2 1 0 1 [1] [] sample) (refusedAt .badPermit 5)
      ∧ FirstFails (permitPutChecks 1 1 0 0 1441 1 [1] [] sample) (refusedAt .badPermit 6)
      ∧ FirstFails (permitPutChecks 1 1 0 0 0 3 [1] [] sample) (refusedAt .badPermit 7)
      ∧ FirstFails (permitPutChecks 4097 1 0 0 0 1 [1] [] fullRegister) (refused .registerFull)
      ∧ Table.find? 1 sample.permits = none ∧ (Table.find? 204117 sample.permits).isSome = true := by
  repeat' (first
    | decide +kernel | exact trivial | exact Or.inl ⟨by decide +kernel, rfl⟩
    | refine Or.inr ⟨by decide +kernel, ?_⟩ | refine ⟨by decide +kernel, ?_⟩ | refine ⟨?_, ?_⟩)

/-! ### Terminals, faults, journal, cash -/

def config (identity group capacity threshold : Nat) : TerminalConfig :=
  { identity := identity, group := group, capacity := capacity, threshold := threshold }

theorem witness_TerminalTableChanges :
    OfficeFree sample ∧ terminal sample 24 = none ∧ (terminal sample 1).isSome = true
      ∧ NoneFails (terminalPutChecks 24 (config 1 1 100 10) sample)
      ∧ NoneFails (terminalPutChecks 1 (config 11 12 5000 100) sample)
      ∧ NoneFails (terminalPutChecks 1 (config 99 4 2000 60) (sampleWith fun t => { t with link := Link.gone 0 t.link }))
      ∧ FirstFails (terminalPutChecks 25 (config 1 1 100 10) sample) (refused .badSlot)
      ∧ FirstFails (terminalPutChecks 24 (config 0 1 100 10) sample) (refusedAt .badTerminal 1)
      ∧ FirstFails (terminalPutChecks 24 (config 1 13 100 10) sample) (refusedAt .badTerminal 2)
      ∧ FirstFails (terminalPutChecks 24 (config 1 1 99 10) sample) (refusedAt .badTerminal 3)
      ∧ FirstFails (terminalPutChecks 24 (config 1 1 5001 10) sample) (refusedAt .badTerminal 3)
      ∧ FirstFails (terminalPutChecks 24 (config 1 1 100 9) sample) (refusedAt .badTerminal 4)
      ∧ FirstFails (terminalPutChecks 24 (config 1 1 100 101) sample) (refusedAt .badTerminal 4)
      ∧ FirstFails (terminalPutChecks 24 (config 12 1 100 10) sample) (refusedAt .duplicateIdentity 2)
      ∧ FirstFails (terminalPutChecks 1 (config 99 1 100 10) sample) (refused .slotInUse)
      ∧ FirstFails (terminalPutChecks 1 (config 11 4 100 10)
          (sampleWith fun t => { t with cash := { t.cash with tally := ⟨101, 0, 0, 0, 0, 0⟩ } })) (refused .belowTally) := by
  repeat' (first
    | decide +kernel | exact trivial | exact Or.inl ⟨by decide +kernel, rfl⟩
    | refine Or.inr ⟨by decide +kernel, ?_⟩ | refine ⟨by decide +kernel, ?_⟩ | refine ⟨?_, ?_⟩)

theorem witness_TerminalTableChanges_remove :
    NoneFails (terminalRemoveChecks 1 (station 11) sample) ∧ FirstFails (slotChecks 25 sample) (refused .badSlot)
      ∧ FirstFails (slotChecks 24 sample) (refused .slotEmpty)
      ∧ FirstFails (terminalRemoveChecks 1 (station 11) sampleRound) (refused .inRound)
      ∧ FirstFails (terminalRemoveChecks 1 { station 11 with quote := .queued 1 } sample) (refused .quoteInProgress)
      ∧ (let t : Terminal := { station 11 with cash := { (station 11).cash with tally := ⟨1, 0, 0, 0, 0, 0⟩ } }
         FirstFails (terminalRemoveChecks 1 t sample) { code := .tallyOutstanding, body := .tally ⟨1, 0, 0, 0, 0, 0⟩ }) := by
  dsimp only
  repeat' (first
    | decide +kernel | exact trivial | exact Or.inl ⟨by decide +kernel, rfl⟩
    | refine Or.inr ⟨by decide +kernel, ?_⟩ | refine ⟨by decide +kernel, ?_⟩ | refine ⟨?_, ?_⟩)

/-- The station's JABBER fault in each of the four states. -/
def jabbered (state : FaultState) : Terminal :=
  (station 11).onFault .jabber fun _ => { state := state, changed := 0 }

theorem witness_FaultAcksMoveFaults :
    SourceFree (.office 1) sample ∧ SourceFree (.handheld 3 1) sample ∧ faultKindOf 1 = some .linkLost ∧ faultKindOf 13 = some .cashShort
      ∧ FirstFails (slotChecks 1 sample ++ [((faultKindOf 14).isNone = true, refused .badFault)]) (refused .badFault)
      ∧ FirstFails (slotChecks 0 sample ++ [((faultKindOf 1).isNone = true, refused .badFault)]) (refused .badSlot)
      ∧ faultKindOf 2 = some .jabber ∧ terminal (sampleWith fun _ => jabbered .active) 1 = some (jabbered .active)
      ∧ ((jabbered .active).watch.faults.get .jabber).state = .active
      ∧ ((jabbered .latched).watch.faults.get .jabber).state = .latched
      ∧ ((jabbered .held).watch.faults.get .jabber).state = .held
      ∧ ((station 11).watch.faults.get .jabber).state = .clear := by
  refine ⟨⟨by decide +kernel, by decide +kernel⟩, ⟨_, rfl, rfl, rfl, rfl, rfl⟩, ?_⟩
  repeat' (first
    | decide +kernel | exact trivial | exact Or.inl ⟨by decide +kernel, rfl⟩
    | refine Or.inr ⟨by decide +kernel, ?_⟩ | refine ⟨by decide +kernel, ?_⟩ | refine ⟨?_, ?_⟩)

def coverRecord (sequence : Nat) : Record :=
  { sequence := sequence, zoneTime := 0, unset := false, zone := 0, body := .coverChange 1 .covered 0 }

/-- The head, the last record, and numbers half the range behind and past it. -/
theorem witness_JournalAcksRemoveRecords :
    let s : State := { sample with journal := { records := [coverRecord 5, coverRecord 6], reservation := 0, nextSequence := 7 } }
    OfficeFree s ∧ TablesOrdered s ∧ s.journal.records = [] ++ coverRecord 5 :: [coverRecord 6]
      ∧ s.journal.records = [coverRecord 5] ++ coverRecord 6 :: [] ∧ (∀ b ∈ [coverRecord 5], b.sequence ≠ 6)
      ∧ (∀ r ∈ s.journal.records, r.sequence ≠ 4) ∧ (∀ r ∈ s.journal.records, r.sequence ≠ 7)
      ∧ (∀ r ∈ s.journal.records, r.sequence ≠ 2147483654) ∧ ∀ r ∈ s.journal.records, r.sequence ≠ 0 := by decide +kernel

theorem witness_CountsReconcile :
    OfficeFree sampleCollected ∧ (collectionOf 3 sampleCollected).isSome = true ∧ freeSpace sampleCollected ≠ 0
      ∧ FirstFails [(∀ c ∈ sampleCollected.cash.collections, c.number ≠ 4, refused .notFound),
          (freeSpace sampleCollected = 0, refused .journalFull)] (refused .notFound)
      ∧ (let s : State := { sampleCollected with journal := { sampleCollected.journal with reservation := 1024 } }
         FirstFails [(∀ c ∈ s.cash.collections, c.number ≠ 3, refused .notFound), (freeSpace s = 0, refused .journalFull)]
          (refused .journalFull)) := by
  dsimp only
  repeat' (first
    | decide +kernel | exact trivial | exact Or.inl ⟨by decide +kernel, rfl⟩
    | refine Or.inr ⟨by decide +kernel, ?_⟩ | refine ⟨by decide +kernel, ?_⟩ | refine ⟨?_, ?_⟩)

/-- Slot 1's box at its capacity, at its threshold of 60 percent, and one coin below it. -/
def withCoins (n : Nat) : State := sampleWith fun t => { t with cash := { t.cash with tally := ⟨n, 0, 0, 0, 0, 0⟩ } }

theorem witness_RoundListOrder :
    Table.wf (withCoins 1200).terminals = true ∧ (roundList (withCoins 2000)).map (·.reason) = [.full]
      ∧ (roundList (withCoins 1200)).map (·.reason) = [.due] ∧ roundList (withCoins 1199) = [] := by decide +kernel

theorem witness_RoundStartsOpen :
    LinkFree 2 { role := .collector, key := some 5 } (withCoins 1200) ∧ NoneFails (roundChecks (withCoins 1200))
      ∧ FirstFails (roundChecks State.reset) (refused .noClock)
      ∧ FirstFails (roundChecks sampleRound) { code := .roundOpen, body := .roundBusy 1 2 }
      ∧ FirstFails (roundChecks sample) (refused .nothingDue)
      ∧ (let s : State := { withCoins 1200 with journal := { sample.journal with reservation := 1023 } }
         FirstFails (roundChecks s) { code := .noSpace, body := .space 1 64 1 }) := by
  dsimp only
  repeat' (first
    | decide +kernel | exact trivial | exact Or.inl ⟨by decide +kernel, rfl⟩
    | refine Or.inr ⟨by decide +kernel, ?_⟩ | refine ⟨by decide +kernel, ?_⟩ | refine ⟨?_, ?_⟩)

theorem witness_RoundsClose :
    TablesOrdered (atTime (tuesday 18 0) sampleRound) ∧ TablesOrdered sampleRound
      ∧ (atTime (tuesday 18 0) sampleRound).supply.part = .running ∧ sampleRound.cash.round = some roundOne
      ∧ (∃ d ∈ sampleRound.calendar.deadline, d ≤ (atTime (tuesday 18 0) sampleRound).calendar.zoneTime)
      ∧ (∀ d ∈ sampleRound.calendar.deadline, sampleRound.calendar.zoneTime < d)
      ∧ LinkFree 2 { role := .collector, key := some 5 } sampleRound ∧ LinkFree 3 { role := .engineer, key := none } sampleRound
      ∧ sample.cash.round = none ∧ 2 = roundOne.collector
      ∧ (let s : State := { sampleRound with roster := Table.put 4 { role := .collector, key := some 6 } sampleRound.roster }
         LinkFree 4 { role := .collector, key := some 6 } s ∧ 4 ≠ roundOne.collector) := by decide +kernel

/-! ### The line -/

/-- `sample` with slot 2 ABSENT: no slot above 1 is called NORMAL. -/
def lastIsOne : State := onTerminal 2 (fun t => { t with link := Link.gone 0 t.link }) sample

/-- `sample` in cycle 20 with slot 2 SLEEPING. -/
def slowCycle : State :=
  onTerminal 2 (fun t => { t with link := { t.link with state := .sleeping } }) { sample with line := { sample.line with cycle := 20 } }

theorem terminals_of_two (f : Terminal → Terminal) (m : Nat) (x : Terminal) (h : terminal (onTerminal 2 f sample) m = some x) :
    (m = 1 ∧ x = station 11) ∨ (m = 2 ∧ x = f (station 12)) := by
  change (if 1 = m then some (station 11) else if 2 = m then some (f (station 12)) else none) = some x at h
  split at h
  · next e => exact .inl ⟨e.symm, (Option.some.inj h).symm⟩
  · split at h
    · next e => exact .inr ⟨e.symm, (Option.some.inj h).symm⟩
    · exact nomatch h

theorem witness_CyclesGoOn :
    Table.wf sample.terminals = true
      ∧ CalledNext 1 .normal sample 2 (station 12)
      ∧ (Table.wf lastIsOne.terminals = true ∧ NoneCalled 1 .normal lastIsOne ∧ lastIsOne.line.cycle % 16 ≠ 4)
      ∧ (Table.wf slowCycle.terminals = true ∧ slowCycle.line.cycle % 16 = 4 ∧ NoneCalled 1 .normal slowCycle
        ∧ (∃ t, CalledNext 0 .slow slowCycle 2 t) ∧ NoneCalled 2 .slow slowCycle)
      ∧ ({ sample with line := { sample.line with mode := .idle } } : State).line.mode = .idle ∧ sample.line.mode ≠ .idle
      ∧ ({ sample with line := { sample.line with mode := .quiet 1 .normal } } : State).line.mode = .quiet 1 .normal := by
  refine ⟨by decide +kernel, ⟨by decide, rfl, rfl, fun m x h1 h2 _ => by omega⟩, ⟨by decide +kernel, ?_, by decide +kernel⟩,
    ⟨by decide +kernel, by decide +kernel, ?_, ⟨_, by decide, rfl, rfl, ?_⟩, ?_⟩, rfl, nofun, rfl⟩
  · intro m x hm h
    rcases terminals_of_two _ m x h with ⟨rfl, rfl⟩ | ⟨rfl, rfl⟩
    · omega
    · rfl
  · intro m x hm h
    rcases terminals_of_two _ m x h with ⟨rfl, rfl⟩ | ⟨rfl, rfl⟩
    · omega
    · rfl
  · intro m x _ hm h
    rcases terminals_of_two _ m x h with ⟨rfl, rfl⟩ | ⟨rfl, rfl⟩
    · rfl
    · omega
  · intro m x hm h
    rcases terminals_of_two _ m x h with ⟨rfl, rfl⟩ | ⟨rfl, rfl⟩
    · omega
    · omega

def quiet : StatusWord :=
  { power := .ok, reports := { paperLow := false, paperOut := false, coinJam := false, cardFault := false }, door := .closed }

/-- `sample` in slot 1's window with this record of slot 1 and this notice riding. -/
def called (calledAs : LinkState) (rode : Option NoticeBody) (t : Terminal) : State :=
  onTerminal 1 (fun _ => t) { sample with line := { sample.line with mode := .window 1 .normal calledAs rode } }

theorem witness_window (calledAs : LinkState) (rode : Option NoticeBody) (t : Terminal) :
    InWindow 1 .normal rode t (called calledAs rode t) := ⟨rfl, ⟨_, rfl⟩, rfl⟩

/-- An ACTIVE slot, SLEEP delivered with the door closed and with it open, a SLEEPING slot, a GRANTED one, and RESET delivered. -/
theorem witness_AnswersAreTaken :
    InWindow 1 .normal none (station 11) (called .active none (station 11)) ∧ Answers plainHead 1 quiet
      ∧ (station 11).link.state = .active
      ∧ InWindow 1 .normal (some .sleep) (station 11) (called .active (some .sleep) (station 11)) ∧ quiet.door = .closed
      ∧ Answers { plainHead with status := 0x008200#24 } 1 { quiet with door := .opened .engineer }
      ∧ InWindow 1 .normal none (linked .sleeping) (called .sleeping none (linked .sleeping))
      ∧ Answers { plainHead with asleep := true } 1 quiet
      ∧ InWindow 1 .normal (some .wake) (linked .sleeping) (called .sleeping (some .wake) (linked .sleeping))
      ∧ InWindow 1 .normal none (linked .granted) (called .granted none (linked .granted)) ∧ (linked .granted).link.level = some 3
      ∧ CarriesAnswer plainHead (.accept plainHead 2) ∧ (∀ level : Nat, some level = some 3 → Instr.accept plainHead 2 ≠ .accept plainHead level)
      ∧ InWindow 1 .normal (some .reset) (station 11) (called .active (some .reset) (station 11)) :=
  ⟨witness_window _ _ _, by decide +kernel, rfl, witness_window _ _ _, rfl, by decide +kernel, witness_window _ _ _,
    by decide +kernel, witness_window _ _ _, witness_window _ _ _, rfl, .accept 2, fun level h => by cases h; decide,
    witness_window _ _ _⟩

/-- An answer whose slot was removed since its call, and one whose slot is ABSENT. -/
theorem witness_AnswersAreTaken_gone :
    Answers plainHead 1 quiet ∧ CarriesAnswer plainHead (.cancel plainHead)
      ∧ (called .active none (linked .absent)).supply.part = .running
      ∧ (called .active none (linked .absent)).line.mode = .window 1 .normal .active none
      ∧ (∀ x ∈ terminal (called .active none (linked .absent)) 1,
          x.link.state ≠ .granted ∧ x.link.state ≠ .active ∧ x.link.state ≠ .sleeping)
      ∧ terminal { sample with terminals := [] } 1 = none := by
  refine ⟨by decide +kernel, .cancel, rfl, rfl, ?_, rfl⟩
  intro x hx
  cases hx
  decide

/-- The notices of slot 1 after this valid answer of a GRANTED slot. -/
def acceptedWith (w : StatusWord) (t : Terminal) : List NoticeBody :=
  ((terminal (validAnswer 1 t none false w (.accept 3) (called .granted none t)) 1).map
    fun x => x.link.queue.map (·.body)).getD []

/-- The status word of an ACCEPT comes before the service state is derived (R144): a door reported open leaves no SERVICE notice, a held
door reported closed brings SERVICE in service and then the TIME owed. -/
theorem test_accept_takes_status_first :
    (let t := { linked .granted with watch := { (station 11).watch with service := .outOfService } }
     acceptedWith { quiet with door := .opened .engineer } t = []
      ∧ acceptedWith quiet
            { t with watch := { t.watch with door := .opened .engineer }, link := { t.link with timeOwed := true } }
        = [.service .inService, .time sample.calendar.zoneTime sample.calendar.offset sample.calendar.clockSet]) := by
  decide +kernel

/-- A word with PAPER_OUT and CRITICAL over a held CRITICAL condition with nine clear words behind it. -/
def criticalStation : Terminal :=
  (station 11).onFault .powerCritical fun _ => { state := .active, changed := 0 }

theorem witness_StatusWordsAreFiltered :
    (∀ t : Terminal, terminal (sampleWith fun _ => t) 1 = some t)
      ∧ (quiet.reports = (station 11).watch.filtered ∧ quiet.power = (station 11).watch.power ∧ quiet.power ≠ .critical
        ∧ (station 11).watch.faults.present .powerCritical = false ∧ (quiet.door = .closed ↔ (station 11).watch.door = .closed))
      ∧ (readStatus 0x900000#24).map (fun w => (w.power, w.reports.paperOut, w.door)) = some (.critical, true, .closed)
      ∧ criticalStation.watch.door = .closed ∧ criticalStation.watch.faults.powerCritical.state.present = true
      ∧ criticalStation.watch.clearRun < 9
      ∧ 9 ≤ ({ criticalStation with watch := { criticalStation.watch with clearRun := 9 } } : Terminal).watch.clearRun
      ∧ (station 11).watch.faults.powerCritical.state.present = false
      ∧ (let x : Terminal := { station 11 with watch := { (station 11).watch with lastReports := some quiet.reports } }
         x.watch.lastReports.map (·.get .coinJam) = some (quiet.reports.get .coinJam)
          ∧ (station 11).watch.lastReports.map (·.get .coinJam) ≠ some (quiet.reports.get .coinJam)) :=
  ⟨fun _ => rfl, by decide +kernel⟩

/-- Slot 1's door closed, with a quote in progress and without; the door open to a key; the round's key and another; a box visited. -/
theorem witness_DoorsAreTaken :
    (∀ t : Terminal, terminal (onTerminal 1 (fun _ => t) sampleRound) 1 = some t) ∧ (station 11).watch.door = .closed
      ∧ ({ station 11 with quote := .opened open37 } : Terminal).watch.door = .closed
      ∧ ({ station 11 with watch := { (station 11).watch with door := .opened .none } } : Terminal).watch.door = .opened .none
      ∧ (quiet.door = .closed ↔ (station 11).watch.door = .closed)
      ∧ sampleRound.cash.round = some roundOne ∧ (5 = roundOne.key ∧ 6 ≠ roundOne.key)
      ∧ (∀ r ∈ sampleRound.cash.round, 1 ∉ r.entries.map (·.slot) ∨ 6 ≠ r.key)
      ∧ (roundOne.entries.find? fun y => y.slot = 1).map (·.state) = some .pending
      ∧ (let r : Round := { roundOne with entries := roundOne.entries.map fun e => { e with state := .visited } }
         (r.entries.find? fun y => y.slot = 1).map (·.state) = some .visited)
      ∧ sampleCollected.cash.collections.length ≤ 65 :=
  ⟨fun _ => rfl, by decide +kernel⟩

theorem witness_MissesAndJabbers :
    sample.supply.part = .running ∧ sample.line.mode = .window 1 .normal .active none
      ∧ readStatus 0xC00000#24 = none ∧ CarriesAnswer { plainHead with status := 0xC00000#24 } (.wakeReq { plainHead with status := 0xC00000#24 })
      ∧ ({ plainHead with slot := 2 } : AnswerHead).slot ≠ 1 ∧ terminal sample 1 = some (station 11)
      ∧ (station 11).link.state.called = true ∧ (station 11).link.misses < 2
      ∧ 2 ≤ ({ station 11 with link := { (station 11).link with misses := 2 } } : Terminal).link.misses
      ∧ (called .granted none (linked .granted)).line.mode = .window 1 .normal .granted none
      ∧ (linked .granted).link.state.called = true ∧ (linked .absent).link.state.called = false
      ∧ terminal (called .active none (linked .absent)) 1 = some (linked .absent)
      ∧ terminal { sample with line := { sample.line with mode := .window 9 .normal .active none } } 9 = none
      ∧ sample.line.ended = none ∧ (lineGoesOn 1 .normal sample).line.ended = some (1, .normal)
      ∧ (lineGoesOn 1 .normal sample).supply.part = .running
      ∧ ∀ (slot : Nat) (kind : CallKind) (calledAs : LinkState) (rode : Option NoticeBody), LineMode.idle ≠ .window slot kind calledAs rode :=
  ⟨rfl, rfl, rfl, .wakeReq, by decide, rfl, rfl, by decide, by decide, rfl, rfl, rfl, rfl, rfl, rfl, rfl, rfl, nofun⟩

/-- The first reply window with nothing taken, and the fourth with two OFFERs earned. -/
def replying (number : Nat) (taken : Bool) (offered : List Nat) (earned : List EarnedOffer) : State :=
  { sample with line := { sample.line with mode := .reply number taken offered earned } }

theorem witness_OffersEarnGrants :
    (replying 1 false [] []).supply.part = .running ∧ (replying 1 false [] []).line.mode = .reply 1 false [] []
      ∧ (∀ (caps : Byte) (level : Nat), OfferForm.legacy = .full caps level → 1 ≤ level ∧ level ≤ 15)
      ∧ (∀ (caps : Byte) (level : Nat), OfferForm.full 0x1F 15 = .full caps level → 1 ≤ level ∧ level ≤ 15)
      ∧ ¬(∀ (caps : Byte) (level : Nat), OfferForm.full 0x1F 16 = .full caps level → 1 ≤ level ∧ level ≤ 15)
      ∧ (∀ e ∈ sample.terminals, e.2.config.identity ≠ 77)
      ∧ (∃ e ∈ sample.terminals, e.2.config.identity = 12 ∧ ∀ y ∈ sample.terminals, y.2.config.identity = 12 → y = e)
      ∧ (1 < 4 ∧ 4 ≤ 4)
      ∧ (terminal sample 9 = none ∧ terminal sample 1 = some (station 11) ∧ (station 11).config.identity = 11
        ∧ (station 11).config.identity ≠ 12 ∧ (station 11).link.state ≠ .barred ∧ (linked .barred).link.state = .barred) := by
  refine ⟨rfl, rfl, nofun, ?_, ?_, by decide +kernel, by decide +kernel, by decide, by decide +kernel⟩
  · intro caps level h
    cases h
    decide
  · intro h
    exact absurd (h _ _ rfl).2 (by decide)

theorem witness_LineRestarts :
    LinkFree 3 { role := .engineer, key := none } sample ∧ FirstFails (slotChecks 25 sample) (refused .badSlot)
      ∧ FirstFails (slotChecks 9 sample) (refused .slotEmpty) ∧ terminal sample 1 = some (station 11)
      ∧ (station 11).link.state = .active
      ∧ (∀ state : LinkState, LinkFree 3 { role := .engineer, key := none } (called .active none (linked state))
        ∧ terminal (called .active none (linked state)) 1 = some (linked state)) := by
  refine ⟨by decide +kernel, .inl ⟨by decide, rfl⟩, .inr ⟨by decide, .inl ⟨rfl, rfl⟩⟩, rfl, rfl, fun state => ?_⟩
  exact ⟨⟨rfl, rfl, rfl, rfl⟩, rfl⟩

theorem witness_UptimeDeadlines :
    sample.supply.part = .running ∧ terminal sample 9 = none ∧ sample.calendar.uptime = 100
      ∧ (∀ t : Terminal, terminal (sampleWith fun _ => t) 1 = some t)
      ∧ (∃ d ∈ ({ (station 11).link with state := .lost, lostDeadline := some 100 } : Link).lostDeadline, d ≤ 100)
      ∧ (∃ d ∈ ({ (station 11).link with state := .barred, barExpiry := some 100 } : Link).barExpiry, d ≤ 100)
      ∧ (∀ d ∈ (station 11).link.barExpiry, 100 < d) ∧ { open37 with validUntil := 100 }.validUntil ≤ 100 ∧ 100 < open37.validUntil
      ∧ (station 11).watch.silence ≤ 1800
      ∧ 1800 < ({ station 11 with watch := { (station 11).watch with silence := 1801 } } : Terminal).watch.silence :=
  ⟨rfl, rfl, rfl, fun _ => rfl, by decide +kernel⟩

/-! ### Quotes, sales and supply -/

def queuedEntry (slot quoteId : Nat) : QueueEntry :=
  { slot := slot, quoteId := quoteId, start := tuesday 10 10, ask := .byDuration 90, permit := some (204117, .visitor), plate := none }

def walkOf1 (discard : Bool) : Walk :=
  { (walkOf (tuesday 10 10) (.byDuration 90) (some (204117, .visitor)) 120 none).walk with
    entry := queuedEntry 1 4, discard := discard }

/-- Slot 1's plain answer has been got and its status word taken: the state in which its request is handed on, and its record there. -/
def heardIn (s : State) : State := takeStatus 1 quiet (gotAnswer 1 s)

def heardSlot (s : State) : Terminal := (terminal (heardIn s) 1).getD (station 11)

/-- An ACTIVE slot 1 hands its request on in `heardIn s`. -/
abbrev Hands (s : State) (x : Terminal) : Prop :=
  InWindow 1 .normal none x s ∧ HandsOn 1 none x quiet s (heardIn s) (heardSlot s)

theorem hands {s : State} {x : Terminal} (hw : InWindow 1 .normal none x s)
    (h : x.link.state = .active ∧ Table.wf s.terminals = true ∧ terminal (heardIn s) 1 = some (heardSlot s)) : Hands s x :=
  ⟨hw, nofun, h.2.1, h.2.2, .inl ⟨h.1, rfl⟩⟩

/-- A QUOTE of slot 1 that is refused with this code, and one that passes. -/
abbrev QuoteFails (s : State) (x : Terminal) (kind amount permit : Nat) (plate : Plate) (code : Code) : Prop :=
  Hands s x ∧ FirstFails (quoteTable 1 (heardSlot s) kind amount permit plate (heardIn s)) code

abbrev QuotePasses (s : State) (x : Terminal) (kind amount permit : Nat) (plate : Plate) : Prop :=
  Hands s x ∧ NoneFails (quoteTable 1 (heardSlot s) kind amount permit plate (heardIn s))

/-- `sample` with this record of slot 1. -/
def at1 (t : Terminal) : State := called .active none t

theorem witness_QuotesAreTaken :
    Answers plainHead 1 quiet ∧ ((heardIn sample).engine.walk = none → (heardIn sample).engine.queue = [])
      ∧ QuotePasses sample (station 11) 2 1440 204117 [] ∧ QuotePasses sample (station 11) 1 0 204117 []
      ∧ QuoteFails { sample with calendar := { sample.calendar with clockSet := false } } (station 11) 1 5 0 [] .noClock
      ∧ QuoteFails { sample with journal := { sample.journal with reservation := 992 } } (station 11) 1 5 0 [] .salesHalted
      ∧ QuotePasses { sample with journal := { sample.journal with reservation := 991 } } (station 11) 1 5 0 []
      ∧ (let x : Terminal := { station 11 with watch := { (station 11).watch with service := .outOfService } }
         QuoteFails (at1 x) x 1 5 0 [] .outOfService)
      ∧ QuoteFails sample (station 11) 3 5 0 [] .badQuote ∧ QuoteFails sample (station 11) 2 0 0 [] .badQuote
      ∧ QuoteFails sample (station 11) 2 1441 0 [] .badQuote ∧ QuoteFails sample (station 11) 1 5 0 [200] .badQuote
      ∧ (let x : Terminal := { station 11 with link := { (station 11).link with level := some 1 } }
         QuoteFails (at1 x) x 2 5 0 [] .notAtLevel)
      ∧ (let x : Terminal := { station 11 with link := { (station 11).link with level := some 2 } }
         QuoteFails (at1 x) x 1 5 204117 [] .notAtLevel)
      ∧ (let x : Terminal := { station 11 with plans := { current := none, pending := none } }
         QuoteFails (at1 x) x 1 5 0 [] .noPlan)
      ∧ QuoteFails sample (station 11) 1 0 0 [] .noTender ∧ QuoteFails sample (station 11) 1 5 7 [] .permitUnknown
      ∧ QuoteFails (atTime (9031 * 86400) sample) (station 11) 1 5 204117 [] .permitNotValid
      ∧ (let x : Terminal := { station 11 with config := config 11 5 2000 60 }
         QuoteFails (at1 x) x 1 5 204117 [] .permitNotInZone) := by
  dsimp only
  repeat' (first
    | decide +kernel | exact trivial | exact hands ⟨rfl, ⟨_, rfl⟩, rfl⟩ (by decide +kernel) | exact Or.inl ⟨by decide +kernel, rfl⟩
    | refine Or.inr ⟨by decide +kernel, ?_⟩ | refine ⟨by decide +kernel, ?_⟩ | refine ⟨?_, ?_⟩)

/-- A SLEEPING slot that wakes by its QUOTE hands it on as an ACTIVE one. -/
theorem witness_QuotesAreTaken_woken :
    let s := called .sleeping none (linked .sleeping)
    let h := takeStatus 1 quiet (wakeSlot 1 (gotAnswer 1 s))
    let z := (terminal h 1).getD (station 11)
    InWindow 1 .normal none (linked .sleeping) s ∧ HandsOn 1 none (linked .sleeping) quiet s h z
      ∧ NoneFails (quoteTable 1 z 2 90 204117 [] h) ∧ z.quote = .none :=
  ⟨⟨rfl, ⟨_, rfl⟩, rfl⟩, ⟨nofun, by decide +kernel, by decide +kernel, .inr ⟨rfl, rfl⟩⟩, by
    repeat' (first
      | decide +kernel | exact trivial | refine ⟨by decide +kernel, ?_⟩ | refine ⟨?_, ?_⟩)⟩

/-- Behind a walk in flight of slot 2, a QUOTE of slot 1 waits. -/
theorem witness_QuotesAreTaken_queued :
    let s : State := { sample with engine := { queue := [], walk := some (walkOf1 false) } }
    Hands s (station 11) ∧ (heardIn s).engine.walk = some (walkOf1 false) :=
  ⟨hands ⟨rfl, ⟨_, rfl⟩, rfl⟩ (by decide +kernel), by decide +kernel⟩

/-- `sample` with a plate on the permit, a hold of slot 2, and slot 2's walk in flight behind a queued entry of slot 1. -/
def sampleHeld (plate : Option Plate) (hold : Option Hold) : State :=
  { sample with permits := sample.permits.map fun e => (e.1, { e.2 with plate := plate, hold := hold }) }

theorem witness_QuotesAreTaken_permits :
    QuoteFails (sampleHeld (some [65, 65]) none) (station 11) 1 5 204117 [66, 66] .permitPlate
      ∧ QuotePasses (sampleHeld (some [65, 65]) none) (station 11) 1 5 204117 [65, 65]
      ∧ QuoteFails (sampleHeld none (some { owner := 2, quoteId := 4, minutes := 9 })) (station 11) 1 5 204117 [] .permitBusy
      ∧ QuotePasses (sampleHeld none (some { owner := 1, quoteId := 4, minutes := 9 })) (station 11) 1 5 204117 [] := by
  repeat' (first
    | decide +kernel | exact trivial | exact hands ⟨rfl, ⟨_, rfl⟩, rfl⟩ (by decide +kernel) | exact Or.inl ⟨by decide +kernel, rfl⟩
    | refine Or.inr ⟨by decide +kernel, ?_⟩ | refine ⟨by decide +kernel, ?_⟩ | refine ⟨?_, ?_⟩)

/-- Slot 1 is WALKING its quote 4 and slot 2 is QUEUED. -/
def walking (discard : Bool) : State :=
  { onTerminal 2 (fun t => { t with quote := .queued 6 }) (sampleWith fun t => { t with quote := .walking 4 }) with
    engine := { queue := [queuedEntry 2 6], walk := some (walkOf1 discard) } }

theorem witness_WalksComplete :
    (sample.engine.walk = none ∧ sample.engine.queue = [])
      ∧ (let u : State := { walking false with engine := { (walking false).engine with walk := none } }
         u.engine.walk = none ∧ u.engine.queue = queuedEntry 2 6 :: [] ∧ (terminal u 2).isSome = true)
      ∧ ((walking true).supply.part = .running ∧ (walking true).engine.walk = some (walkOf1 true) ∧ (walkOf1 true).discard = true)
      ∧ ((walking false).engine.walk = some (walkOf1 false) ∧ (walkOf1 false).discard = false
        ∧ (terminal (walking false) 1).isSome = true) := ⟨⟨rfl, rfl⟩, ⟨rfl, rfl, rfl⟩, ⟨rfl, rfl, rfl⟩, rfl, rfl, rfl⟩

/-- A result that says so with this outcome and these used minutes. -/
def resultOf (outcome : Outcome) (used : Nat) : WalkResult :=
  { (walkOf (tuesday 10 10) (.byDuration 90) none 0 none).run with outcome := outcome, used := used }

theorem witness_WalksComplete_results :
    NoneFails (resultChecks (queuedEntry 1 4) 4 (WalkInput.run { plans := walkPlans, walk := walkOf1 false }) (walking false))
      ∧ FirstFails (resultChecks (queuedEntry 1 4) 4 (resultOf .noTender 0) (walking false)) (.noTender, 0)
      ∧ FirstFails (resultChecks (queuedEntry 1 4) 4 (resultOf .noSale 0) (walking false)) (.noSale, 0)
      ∧ FirstFails (resultChecks (queuedEntry 1 4) 4 { resultOf .belowMinimum 0 with tried := 50 } (walking false)) (.belowMinimum, 50)
      ∧ FirstFails (resultChecks (queuedEntry 1 4) 5 (resultOf .ok 90) (walking false)) (.permitChanged, 0)
      ∧ NoneFails (resultChecks (queuedEntry 1 4) 4 (resultOf .ok 120) (walking false))
      ∧ FirstFails (resultChecks (queuedEntry 1 4) 4 (resultOf .ok 121) (walking false)) (.permitChanged, 0)
      ∧ FirstFails (resultChecks (queuedEntry 1 4) 4 (resultOf .ok 90)
          (sampleHeld none (some { owner := 2, quoteId := 4, minutes := 9 }))) (.permitBusy, 0) := by
  repeat' (first
    | decide +kernel | exact trivial | exact Or.inl ⟨by decide +kernel, rfl⟩
    | refine Or.inr ⟨by decide +kernel, ?_⟩ | refine ⟨by decide +kernel, ?_⟩ | refine ⟨?_, ?_⟩)

/-- Slot 1's quote 37 of section 4.10 is OPEN. -/
def opened37 : Terminal := { station 11 with quote := .opened open37 }

theorem no_duration_37 (v : Nat) : ¬∃ d, open37.ask = .byDuration d ∧ (v < open37.cost ∨ 65535 < v) := by
  rintro ⟨d, h, _⟩
  exact nomatch (show Ask.byAmount 200 = .byDuration d from h)

theorem exact_37 : ¬((∃ a, open37.ask = .byAmount a ∧ 200 ≠ a) ∨ ∃ d, open37.ask = .byDuration d ∧ (200 < open37.cost ∨ 65535 < 200)) := by
  rintro (⟨a, h, hv⟩ | h)
  · cases (show Ask.byAmount 200 = .byAmount a from h)
    exact hv rfl
  · exact no_duration_37 200 h

/-- A CONFIRM of slot 1 on this open quote, refused with this code. -/
abbrev ConfirmFails (s : State) (x : Terminal) (q : OpenQuote) (quoteId : Nat) (coins : Six) (card : Nat) (code : Code) : Prop :=
  Hands s x ∧ (heardSlot s).quote = .opened q ∧ FirstFails (confirmTable 1 (heardSlot s) q quoteId coins card (heardIn s)) code

theorem witness_ConfirmsSell :
    let s := at1 opened37
    Answers plainHead 1 quiet ∧ Hands s opened37 ∧ (heardSlot s).quote = .opened open37
      ∧ NoneFails (confirmTable 1 (heardSlot s) open37 37 ⟨0, 1, 2, 1, 1, 0⟩ 0 (heardIn s)) :=
  ⟨by decide +kernel, hands ⟨rfl, ⟨_, rfl⟩, rfl⟩ (by decide +kernel), by decide +kernel, by decide +kernel, by decide +kernel,
    by decide +kernel, by decide +kernel, exact_37, by decide +kernel, by decide +kernel, trivial⟩

/-- A table with room for one entry more, and one with none, whose first entry is the first of the earliest expiry. -/
theorem witness_ConfirmsSell_live :
    let others (n : Nat) : List LiveTicket := (List.range n).map fun k => { liveOne with ticket := k + 100 }
    ((others 2047).filter fun y => y.ticket ≠ liveOne.ticket).length < 2048
      ∧ 2048 ≤ ((others 2048).filter fun y => y.ticket ≠ liveOne.ticket).length
      ∧ (∃ y after, ((others 2048).filter fun y => y.ticket ≠ liveOne.ticket) = [] ++ y :: after ∧ ∀ o ∈ after, y.expiry ≤ o.expiry) := by
  refine ⟨by decide +kernel, by decide +kernel, ?_⟩
  refine ⟨{ liveOne with ticket := 100 }, ((List.range 2048).map fun k => { liveOne with ticket := k + 100 }).tail, ?_, ?_⟩
  · rw [List.filter_eq_self.mpr]
    · decide +kernel
    · intro y hy
      obtain ⟨k, -, rfl⟩ := List.mem_map.mp hy
      simp [liveOne]
  · intro o ho
    obtain ⟨k, -, rfl⟩ := List.mem_map.mp (List.mem_of_mem_tail ho)
    exact Nat.le_refl _

/-- Quotes in every stage, with every closed record. -/
def stages : List (QuoteSlot × Option ClosedQuote) :=
  [(.none, none), (.none, some (.expired 9)), (.none, some (.sold 9 1 0 60 5 0)), (.queued 4, none), (.walking 4, none),
    (.opened open37, none)]

theorem stages_heard : ∀ e ∈ stages,
    let x : Terminal := { station 11 with quote := e.1, closed := e.2 }
    (x.link.state = .active ∧ Table.wf (at1 x).terminals = true ∧ terminal (heardIn (at1 x)) 1 = some (heardSlot (at1 x)))
      ∧ (heardSlot (at1 x)).quote = e.1 ∧ (heardSlot (at1 x)).closed = e.2 := by decide +kernel

theorem witness_ConfirmsRefused :
    ConfirmFails (at1 opened37) opened37 open37 36 ⟨0, 1, 2, 1, 1, 0⟩ 0 .quoteUnknown
      ∧ (let q : OpenQuote := { open37 with validUntil := 100 }
         let x : Terminal := { opened37 with quote := .opened q }
         ConfirmFails (at1 x) x q 37 ⟨0, 1, 2, 1, 1, 0⟩ 0 .quoteExpired)
      ∧ ConfirmFails { at1 opened37 with journal := { sample.journal with reservation := 992 } } opened37 open37 37
          ⟨0, 1, 2, 1, 1, 0⟩ 0 .salesHalted
      ∧ (let x : Terminal := { opened37 with watch := { opened37.watch with service := .outOfService } }
         ConfirmFails (at1 x) x open37 37 ⟨0, 1, 2, 1, 1, 0⟩ 0 .outOfService)
      ∧ ConfirmFails (at1 opened37) opened37 open37 37 ⟨0, 0, 0, 1, 1, 0⟩ 0 .tenderMismatch
      ∧ (let q : OpenQuote := { open37 with ask := .byDuration 53 }
         let x : Terminal := { opened37 with quote := .opened q }
         ConfirmFails (at1 x) x q 37 .zero 65536 .tenderMismatch)
      ∧ ∀ e ∈ stages,
        let x : Terminal := { station 11 with quote := e.1, closed := e.2 }
        Hands (at1 x) x ∧ (heardSlot (at1 x)).quote = e.1 ∧ (heardSlot (at1 x)).closed = e.2 := by
  refine ⟨⟨hands ⟨rfl, ⟨_, rfl⟩, rfl⟩ (by decide +kernel), by decide +kernel, .inl ⟨by decide, rfl⟩⟩,
    ⟨hands ⟨rfl, ⟨_, rfl⟩, rfl⟩ (by decide +kernel), by decide +kernel, .inr ⟨by decide, .inl ⟨by decide +kernel, rfl⟩⟩⟩,
    ⟨hands ⟨rfl, ⟨_, rfl⟩, rfl⟩ (by decide +kernel), by decide +kernel,
      .inr ⟨by decide, .inr ⟨by decide +kernel, .inl ⟨by decide +kernel, rfl⟩⟩⟩⟩,
    ⟨hands ⟨rfl, ⟨_, rfl⟩, rfl⟩ (by decide +kernel), by decide +kernel,
      .inr ⟨by decide, .inr ⟨by decide +kernel, .inr ⟨by decide +kernel, .inl ⟨by decide +kernel, rfl⟩⟩⟩⟩⟩,
    ⟨hands ⟨rfl, ⟨_, rfl⟩, rfl⟩ (by decide +kernel), by decide +kernel,
      .inr ⟨by decide, .inr ⟨by decide +kernel, .inr ⟨by decide +kernel, .inr ⟨by decide +kernel,
        .inl ⟨.inl ⟨_, rfl, by decide +kernel⟩, rfl⟩⟩⟩⟩⟩⟩,
    ⟨hands ⟨rfl, ⟨_, rfl⟩, rfl⟩ (by decide +kernel), by decide +kernel,
      .inr ⟨by decide, .inr ⟨by decide +kernel, .inr ⟨by decide +kernel, .inr ⟨by decide +kernel,
        .inl ⟨.inr ⟨_, rfl, by decide +kernel⟩, rfl⟩⟩⟩⟩⟩⟩, ?_⟩
  intro e he
  have h := stages_heard e he
  exact ⟨hands (witness_window _ _ _) h.1, h.2⟩

/-- A terminal with no working card reader, and a permit revoked after the result. -/
theorem witness_ConfirmsRefused_last :
    (let x : Terminal := { opened37 with link := { opened37.link with caps := none } }
     ConfirmFails (at1 x) x open37 37 ⟨0, 1, 2, 1, 1, 0⟩ 0 .tenderRefused)
      ∧ (let q : OpenQuote := { open37 with permit := some (7, 0) }
         let x : Terminal := { opened37 with quote := .opened q }
         ConfirmFails (at1 x) x q 37 ⟨0, 1, 2, 1, 1, 0⟩ 0 .permitRevoked) := by
  refine ⟨⟨hands ⟨rfl, ⟨_, rfl⟩, rfl⟩ (by decide +kernel), by decide +kernel,
    .inr ⟨by decide, .inr ⟨by decide +kernel, .inr ⟨by decide +kernel, .inr ⟨by decide +kernel, .inr ⟨exact_37,
    .inl ⟨by decide +kernel, rfl⟩⟩⟩⟩⟩⟩⟩, ⟨hands ⟨rfl, ⟨_, rfl⟩, rfl⟩ (by decide +kernel), by decide +kernel,
    .inr ⟨by decide, .inr ⟨by decide +kernel, .inr ⟨by decide +kernel,
      .inr ⟨by decide +kernel, .inr ⟨exact_37, .inr ⟨by decide +kernel, .inl ⟨by decide +kernel, rfl⟩⟩⟩⟩⟩⟩⟩⟩⟩

/-- Coins and card each fail by their own capability, level and faults (R67, R125), and a0 is 0 without a VALID record (R40, R86). -/
theorem witness_Confirms_methods :
    CashUsable (station 11) ∧ CardUsable (station 11)
      ∧ ¬CashUsable (faulty (station 11) .boxFull .held) ∧ CardUsable (faulty (station 11) .boxFull .held)
      ∧ ¬CardUsable (faulty (station 11) .cardFault .active) ∧ CardUsable (faulty (station 11) .cardFault .latched)
      ∧ ¬CardUsable (withCard true 1) ∧ CardUsable (withCard true 2) ∧ ¬CardUsable (withCard false 3)
      ∧ allowanceTaken sample.permits 204117 = 120 ∧ allowanceTaken sample.permits 7 = 0
      ∧ allowanceTaken (sampleHeld none (some { owner := 2, quoteId := 4, minutes := 9 })).permits 204117 = 111
      ∧ allowanceTaken (sample.permits.map fun e => (e.1, { e.2 with suspended := true })) 204117 = 0 := by
  refine ⟨?_, ?_, ?_, ?_, ?_, ?_, ?_, ?_, ?_, ?_⟩ <;> decide +kernel

/-- CANCEL with a quote in every stage, and from a SLEEPING slot that wakes by it. -/
theorem witness_CancelsEndQuotes :
    Answers plainHead 1 quiet ∧ Table.wf sample.terminals = true
      ∧ (∀ e ∈ stages,
        let x : Terminal := { station 11 with quote := e.1, closed := e.2 }
        Hands (at1 x) x ∧ (heardSlot (at1 x)).quote = e.1)
      ∧ (let s := called .sleeping none (linked .sleeping)
         let h := takeStatus 1 quiet (wakeSlot 1 (gotAnswer 1 s))
         InWindow 1 .normal none (linked .sleeping) s
          ∧ HandsOn 1 none (linked .sleeping) quiet s h ((terminal h 1).getD (station 11))) :=
  ⟨by decide +kernel, by decide +kernel, fun e he => ⟨hands (witness_window _ _ _) (stages_heard e he).1, (stages_heard e he).2.1⟩, ⟨rfl, ⟨_, rfl⟩, rfl⟩,
    nofun, by decide +kernel, by decide +kernel, .inr ⟨rfl, rfl⟩⟩

theorem witness_SupplyAndStarts :
    ((inBackup sample).supply.part = .backup ∧ TablesOrdered (inBackup sample) ∧ (inBackup sample).supply.latch = false ∧ (inBackup sample).supply.cell = .carrying)
      ∧ (sample.supply.part = .running ∧ TablesOrdered sample ∧ sample.supply.latch = false ∧ sample.supply.cell = .standby)
      ∧ (let s : State := { inBackup sample with supply := { (inBackup sample).supply with latch := true } }
         s.supply.part = .backup ∧ s.supply.latch = true)
      ∧ ({ sample with supply := { sample.supply with latch := true } } : State).supply.latch = true ∧ OfficeFree sample
      ∧ (let s : State := answered 0x1C 1 (accepted .empty) sample
         s.supply.part = .running ∧ TablesOrdered s ∧ ∃ r ∈ s.office.current, r.kind = 0x1C ∧ r.response.code = .ok) := by decide +kernel

end Sys2Proof.Tests
end

section
/-!
PROOFS. The office reads: a taken request that only answers from the state leaves the state with that answer in progress, and the
answers of PERMIT_GET (R84).
-/

namespace Sys2Proof.Machine

open Sys2Proof

/-- A reply set on the hunting office port is what the rules call an answered request. -/
theorem withOfficeReply_hunting (kind tag : Nat) (r : Response) (s : State) :
    withOfficeReply kind tag r (hunting s) = answered kind tag r s := rfl

/-- A read that the free office port takes has its answer in progress, and nothing else changes (R161, R162). -/
theorem officeRequest_answering {f : State → Response} {s : State} (kind tag : Nat) (hfree : OfficeFree s) :
    officeRequest kind tag (answering f) s = .next (answered kind tag (f (hunting s)) s) := by
  obtain ⟨hrunning, hcurrent⟩ := hfree
  rw [officeRequest_taken hrunning hcurrent]
  exact congrArg _ (withOfficeReply_hunting kind tag (f (hunting s)) s)

/-- PERMIT_GET does not read the office receiver. -/
theorem permitAnswer_hunting (number : Nat) (s : State) : permitAnswer number (hunting s) = permitAnswer number s := rfl

theorem refusal_eq_refused (c : Code) : refusal c = refused c := rfl

theorem okWith_eq_accepted (b : Body) : okWith b = accepted b := rfl

theorem remaining_eq (p : Permit) : remaining p = p.allowance - p.consumed - (p.hold.map (·.minutes)).getD 0 := rfl

theorem permitAnswer_absent {number : Nat} {s : State} (h : Table.find? number s.permits = none) :
    permitAnswer number s = refused .notFound := by
  simp only [permitAnswer, h, refusal_eq_refused]

theorem permitAnswer_held {number : Nat} {s : State} {p : Permit} (h : Table.find? number s.permits = some p) :
    permitAnswer number s
      = accepted
          (.permit number p (p.allowance - p.consumed - (p.hold.map (·.minutes)).getD 0) (today s) s.calendar.clockSet) := by
  simp only [permitAnswer, h, okWith_eq_accepted, remaining_eq]

/-- A PERMIT_GET that the free office port takes has the register's answer in progress, and nothing else changes (R84). -/
theorem exec_permitGet {s : State} (tag number : Nat) (hfree : OfficeFree s) :
    exec (.permitGet tag number) s = .next (answered 0x0C tag (permitAnswer number s) s) := by
  have harm : exec (.permitGet tag number) s = officeRequest 0x0C tag (answering (permitAnswer number)) s := rfl
  rw [harm, officeRequest_answering 0x0C tag hfree, permitAnswer_hunting]

/-- Settles O25: the taken read answers `permitAnswer`, whose two cases are those of R84. -/
theorem permitGetAnswers : Obligations.PermitGetAnswers := by
  intro s tag number hfree
  constructor
  · intro habsent
    rw [exec_permitGet tag number hfree, permitAnswer_absent habsent]
  · intro p hheld
    rw [exec_permitGet tag number hfree, permitAnswer_held hheld]

end Sys2Proof.Machine
end

section
/-!
PROOFS. The tolerance (R109): what a start keeps of the Cash Unit, the range that every step keeps, TOLERANCE_PUT, and its use in
COUNT_RESULT (R110).
-/

namespace Sys2Proof.Machine

open Sys2Proof

/-! ### What a start keeps of the Cash Unit -/

/-- An action that keeps the Cash Unit keeps it when it is taken for every configured slot. -/
theorem forEachSlot_cash {f : Nat → State → State} (hf : ∀ k s, (f k s).cash = s.cash) (s : State) :
    (forEachSlot f s).cash = s.cash :=
  List.foldlRecOn (motive := fun u => u.cash = s.cash) (Table.keys s.terminals) _ rfl fun u hu k _ => (hf k u).trans hu

theorem timeForAll_cash (s : State) : (timeForAll s).cash = s.cash := by
  refine forEachSlot_cash (fun k u => ?_) s
  split
  · rfl
  · split
    · rfl
    · split <;> rfl

theorem dayRoll_cash (s : State) : (dayRoll s).cash = s.cash := timeForAll_cash _

theorem takeSwitch_cash (slot : Nat) (s : State) : (takeSwitch slot s).cash = s.cash := by
  unfold takeSwitch
  split
  · rfl
  · split
    · split <;> rfl
    · rfl

/-- The deadline of a start leaves no round open, and the rest of the Cash Unit as it was (R16, R107). -/
theorem closeAtStart_cash (s : State) : (closeAtStart s).cash = { s.cash with round := none } := by
  unfold closeAtStart
  split
  · next hround => rw [← hround]; rfl
  · next r _ =>
    have hclosed : (closeRoundCore r s).cash = { s.cash with round := none } := rfl
    dsimp only
    split
    · exact ((appendOwed_derives (R := Noted) _).cash).trans hclosed
    · exact hclosed

/-- Of the Cash Unit, the Calendar's catch-up touches the open round alone (R16). -/
theorem catchUp_cash (s : State) : ∃ round, (catchUp s).cash = { s.cash with round := round } := by
  have hdue (due : Bool) (u : State) (hu : u.cash = s.cash) :
      ∃ round, (if due then closeAtStart u else u).cash = { s.cash with round := round } := by
    cases due with
    | true => exact ⟨none, (closeAtStart_cash u).trans (by rw [hu])⟩
    | false => exact ⟨s.cash.round, hu⟩
  have hswitched : (forEachSlot takeSwitch s).cash = s.cash := forEachSlot_cash takeSwitch_cash s
  unfold catchUp
  split
  · refine hdue _ _ ?_
    split
    · exact (dayRoll_cash _).trans hswitched
    · exact hswitched
  · exact hdue _ s rfl

theorem startCondition_derives (slot : Nat) (k : FaultKind) (present : Bool) (s : State) :
    Derives Noted s (startCondition slot k present s) := by
  unfold startCondition
  split
  · exact .refl
  · split
    · exact .refl
    · split
      · exact (setFault_derives _ _ _ _).raised _
      · exact setFault_derives _ _ _ _

theorem startConditions_derives (slot : Nat) (s : State) : Derives Noted s (startConditions slot s) := by
  unfold startConditions
  split
  · exact .refl
  · exact (startCondition_derives _ _ _ _).trans ((startCondition_derives _ _ _ _).trans (startCondition_derives _ _ _ _))

theorem startFaults_derives (s : State) : Derives Noted s (startFaults s) :=
  (Derives.forEach _ startConditions_derives s).trans (deriveAll_derives _)

theorem startValues_cash (straps : Straps) (s : State) : (startValues straps s).cash = s.cash := rfl

theorem startAttention_cash (keep : Bool) (s : State) : (startAttention keep s).cash = s.cash := rfl

theorem startPorts_cash (s : State) : (startPorts s).cash = s.cash := rfl

/-- Of the Cash Unit, a warm start or an office restart touches the open round alone (R93, R181). -/
theorem warmStart_cash (straps : Straps) (keep : Bool) (s : State) :
    ∃ round, (warmStart straps keep s).cash = { s.cash with round := round } := by
  obtain ⟨round, hcaught⟩ := catchUp_cash (startAttention keep (startValues straps s))
  rw [startAttention_cash, startValues_cash] at hcaught
  exact ⟨round, by rw [warmStart, startPorts_cash, (startFaults_derives _).cash, hcaught]⟩

theorem warmStart_tolerance (straps : Straps) (keep : Bool) (s : State) :
    (warmStart straps keep s).cash.tolerance = s.cash.tolerance := by
  obtain ⟨round, hcash⟩ := warmStart_cash straps keep s
  rw [hcash]

theorem cold_tolerance (straps : Straps) : (State.cold straps).cash.tolerance = 50 := rfl

/-- With the retention-lost latch clear a start keeps the tolerance (R109, R179). -/
theorem startBy_tolerance_warm {s : State} (straps : Straps) (keep : Bool) (hlatch : s.supply.latch = false) :
    (startBy straps keep s).cash.tolerance = s.cash.tolerance := by
  simp only [startBy, hlatch, Bool.false_eq_true, if_false, warmStart_tolerance]

/-- With the retention-lost latch set a start is cold: the tolerance is 50 (R109, R179). -/
theorem startBy_tolerance_cold {s : State} (straps : Straps) (keep : Bool) (hlatch : s.supply.latch = true) :
    (startBy straps keep s).cash.tolerance = 50 := by
  simp only [startBy, hlatch, if_true]
  rfl

theorem officeRestart_tolerance (s : State) : (officeRestart s).cash.tolerance = s.cash.tolerance :=
  warmStart_tolerance _ _ s

/-! ### The range -/

/-- Every step changes the accounts only as listed. -/
theorem step_accounts {s t : State} (h : step s = .next t) : Accounts s t := by
  unfold step at h
  split at h
  · cases h; exact .refl
  · exact .after (exec_accounts h) (.of_eq rfl rfl rfl rfl)

/-- No change of the accounts takes the tolerance above 1000: TOLERANCE_PUT is the one that sets it, besides a cold start (R109). -/
theorem Accounts.tolerance_le {s t : State} (h : Accounts s t) (hs : s.cash.tolerance ≤ 1000) : t.cash.tolerance ≤ 1000 := by
  induction h with
  | refl => exact hs
  | same hsame _ ih => rw [hsame.cash]; exact ih
  | settings d tolerance hset _ ih =>
    rcases hset with hrange | hkept
    · exact hrange
    · exact hkept.trans_le ih
  | cold straps t hsame => rw [hsame.cash, cold_tolerance]; decide
  | configured _ _ _ _ ih => exact ih
  | removed _ _ _ ih => exact ih
  | record _ _ _ ih => exact ih
  | sale _ _ _ _ ih => exact ih
  | cut _ _ _ _ _ _ _ _ _ _ ih => exact ih
  | opened _ _ _ _ _ ih => exact ih
  | closed _ _ _ ih => exact ih
  | undue _ _ ih => exact ih
  | counted _ _ ih => exact ih
  | acked _ _ ih => exact ih

theorem tolerance_kept : Kept fun s => s.cash.tolerance ≤ 1000 := fun _ _ hs h => (step_accounts h).tolerance_le hs

/-! ### TOLERANCE_PUT and COUNT_RESULT -/

theorem takeTolerancePut_within {tolerance : Nat} (s : State) (h : tolerance ≤ 1000) :
    takeTolerancePut tolerance s = ({ s with cash := { s.cash with tolerance := tolerance } }, accepted .empty) := by
  rw [takeTolerancePut, if_neg (Nat.not_lt.mpr h)]
  rfl

theorem takeTolerancePut_above {tolerance : Nat} (s : State) (h : ¬tolerance ≤ 1000) :
    takeTolerancePut tolerance s = (s, refused .badTolerance) := by
  rw [takeTolerancePut, if_pos (Nat.not_le.mp h), refusal_eq_refused]

/-- A TOLERANCE_PUT that the free office port takes sets the tolerance, or answers BAD_TOLERANCE and leaves it (R109). -/
theorem exec_tolerancePut {s : State} (tag tolerance : Nat) (hfree : OfficeFree s) :
    exec (.tolerancePut tag tolerance) s
      = .next
          (if tolerance ≤ 1000 then
            answered 0x11 tag (accepted .empty) { s with cash := { s.cash with tolerance := tolerance } }
          else answered 0x11 tag (refused .badTolerance) s) := by
  have harm : exec (.tolerancePut tag tolerance) s = officeRequest 0x11 tag (takeTolerancePut tolerance) s := rfl
  obtain ⟨hrunning, hcurrent⟩ := hfree
  rw [harm, officeRequest_taken hrunning hcurrent]
  split
  · next h => rw [takeTolerancePut_within _ h]; rfl
  · next h => rw [takeTolerancePut_above _ h]; rfl

/-- What a COUNT_RESULT answers for a record of the list, with room in the journal (R110). -/
theorem takeCountResult_response {s : State} {number : Nat} {c : Collection} (counted : Six)
    (hrecord : collectionOf number s = some c) (hroom : freeSpace s ≠ 0) :
    (takeCountResult number counted s).2
      = accepted
          (.reconciled (outcomeFor s c counted) c.value (counted.value s.cash.denominations) (discrepancyOf s c counted)) := by
  simp only [takeCountResult, hrecord, hroom, if_false, okWith_eq_accepted]

/-- A COUNT_RESULT that the free office port takes for a record of the list has its outcome in progress (R110). -/
theorem exec_countResult_response {s : State} {number : Nat} {c : Collection} (tag : Nat) (counted : Six)
    (hfree : OfficeFree s) (hroom : 0 < freeSpace s) (hrecord : collectionOf number s = some c) :
    ∃ t : State, exec (.countResult tag number counted) s = .next t
      ∧ t.office.current
          = some
              { kind := 0x12
                tag := tag
                response :=
                  accepted
                    (.reconciled (outcomeFor s c counted) c.value (counted.value s.cash.denominations)
                      (discrepancyOf s c counted)) } := by
  have harm : exec (.countResult tag number counted) s = officeRequest 0x12 tag (takeCountResult number counted) s := rfl
  have hresponse := takeCountResult_response (s := hunting s) counted hrecord (Nat.ne_of_gt hroom)
  obtain ⟨hrunning, hcurrent⟩ := hfree
  refine ⟨_, harm.trans (officeRequest_taken hrunning hcurrent), ?_⟩
  rw [hresponse]
  rfl

/-- Settles O26: a start touches of the Cash Unit the open round alone or is cold, `Accounts` gives the range, and the two requests
are taken as `exec_tolerancePut` and `exec_countResult_response` say. -/
theorem toleranceLaw : Obligations.ToleranceLaw := by
  refine ⟨cold_tolerance, fun s straps keep => ?_, tolerance_kept, fun s tag tolerance => exec_tolerancePut tag tolerance, ?_⟩
  · exact ⟨startBy_tolerance_warm straps keep, startBy_tolerance_cold straps keep, officeRestart_tolerance s⟩
  · intro s tag number counted c hfree hroom hrecord
    exact exec_countResult_response tag counted hfree hroom hrecord

end Sys2Proof.Machine
end

section
/-!
PROOFS. Attention: ATTENTION_MASK and the mask after every start (R167, R168), and STATUS (R165, R166).
-/

namespace Sys2Proof.Machine

open Sys2Proof

/-- While the part is RUNNING, ATTN tells the flags under the mask alone (R165). -/
theorem attn_running {s : State} (h : s.supply.part = .running) : attn s = s.attention.flags.anyEnabled s.attention.mask := by
  simp only [attn, h, decide_true, Bool.true_and]

/-! ### The mask after a start -/

/-- What each action keeps is kept when the action is taken for every configured slot. -/
theorem forEachSlot_keeps {α : Type} (figure : State → α) {f : Nat → State → State}
    (hf : ∀ k s, figure (f k s) = figure s) (s : State) : figure (forEachSlot f s) = figure s :=
  List.foldlRecOn (motive := fun u => figure u = figure s) (Table.keys s.terminals) _ rfl fun u hu k _ => (hf k u).trans hu

/-- No deriving afresh changes the mask. -/
theorem Derives.mask {R : Terminal → Terminal → Prop} {s t : State} (h : Derives R s t) : t.attention.mask = s.attention.mask := by
  induction h with
  | refl => rfl
  | terminal _ _ _ _ ih => exact ih
  | group _ _ _ ih => exact ih
  | record _ _ _ _ _ ih => exact ih
  | raised _ _ ih => exact ih

theorem timeForAll_mask (s : State) : (timeForAll s).attention.mask = s.attention.mask := by
  refine forEachSlot_keeps (·.attention.mask) (fun k u => ?_) s
  split
  · rfl
  · split
    · rfl
    · split <;> rfl

theorem dayRoll_mask (s : State) : (dayRoll s).attention.mask = s.attention.mask := timeForAll_mask _

theorem takeSwitch_mask (slot : Nat) (s : State) : (takeSwitch slot s).attention.mask = s.attention.mask := by
  unfold takeSwitch
  split
  · rfl
  · split
    · split <;> rfl
    · rfl

theorem closeAtStart_mask (s : State) : (closeAtStart s).attention.mask = s.attention.mask := by
  unfold closeAtStart
  split
  · rfl
  · next r _ =>
    have hclosed : (closeRoundCore r s).attention.mask = s.attention.mask := rfl
    dsimp only
    split
    · exact ((appendOwed_derives (R := Noted) _).mask).trans hclosed
    · exact hclosed

theorem catchUp_mask (s : State) : (catchUp s).attention.mask = s.attention.mask := by
  have hdue (due : Bool) (u : State) (hu : u.attention.mask = s.attention.mask) :
      (if due then closeAtStart u else u).attention.mask = s.attention.mask := by
    cases due with
    | true => exact (closeAtStart_mask u).trans hu
    | false => exact hu
  have hswitched : (forEachSlot takeSwitch s).attention.mask = s.attention.mask :=
    forEachSlot_keeps (·.attention.mask) takeSwitch_mask s
  unfold catchUp
  split
  · refine hdue _ _ ?_
    split
    · exact (dayRoll_mask _).trans hswitched
    · exact hswitched
  · exact hdue _ s rfl

/-- Step 2 of a start enables every flag (R167). -/
theorem startAttention_mask (keep : Bool) (s : State) : (startAttention keep s).attention.mask = Flags.all := rfl

theorem startPorts_mask (s : State) : (startPorts s).attention.mask = s.attention.mask := rfl

/-- After step 2 no step of a warm start or an office restart changes the mask (R181). -/
theorem warmStart_mask (straps : Straps) (keep : Bool) (s : State) : (warmStart straps keep s).attention.mask = Flags.all := by
  rw [warmStart, startPorts_mask, (startFaults_derives _).mask, catchUp_mask, startAttention_mask]

theorem coldStart_mask (straps : Straps) (keep : Bool) (s : State) : (coldStart straps keep s).attention.mask = Flags.all := rfl

theorem startBy_mask (straps : Straps) (keep : Bool) (s : State) : (startBy straps keep s).attention.mask = Flags.all := by
  unfold startBy
  split
  · exact coldStart_mask straps keep s
  · exact warmStart_mask straps keep s

theorem officeRestart_mask (s : State) : (officeRestart s).attention.mask = Flags.all := warmStart_mask _ _ s

/-! ### ATTENTION_MASK -/

/-- A mask operand names a flag that does not exist exactly where it is 1024 or more (R185). -/
theorem high_bit_iff (mask : Nat) : (∃ bit : Nat, 10 ≤ bit ∧ mask.testBit bit = true) ↔ 1024 ≤ mask := by
  constructor
  · rintro ⟨bit, hbit, hset⟩
    calc 1024 = 2 ^ 10 := by decide
      _ ≤ 2 ^ bit := Nat.pow_le_pow_right (by decide) hbit
      _ ≤ mask := Nat.ge_two_pow_of_testBit hset
  · intro h
    obtain ⟨bit, hbit, hset⟩ := Nat.exists_ge_and_testBit_of_ge_two_pow (n := 10) h
    exact ⟨bit, hbit, hset⟩

theorem takeAttentionMask_bad {mask : Nat} (s : State) (h : 1024 ≤ mask) :
    takeAttentionMask mask s = (s, refused .badMask) := by
  rw [takeAttentionMask, if_pos h, refusal_eq_refused]

theorem takeAttentionMask_good {mask : Nat} (s : State) (h : ¬1024 ≤ mask) :
    takeAttentionMask mask s
      = ({ s with attention := { s.attention with mask := maskOf mask } }, accepted (.mask (maskOf mask))) := by
  rw [takeAttentionMask, if_neg h, okWith_eq_accepted]
  rfl

/-- An ATTENTION_MASK that the free office port takes sets the mask, or answers BAD_MASK and leaves it (R167). -/
theorem exec_attentionMask {s : State} (tag mask : Nat) (hfree : OfficeFree s) :
    exec (.attentionMask tag mask) s
      = .next
          (if 1024 ≤ mask then answered 0x19 tag (refused .badMask) s
          else
            answered 0x19 tag (accepted (.mask (maskOf mask)))
              { s with attention := { s.attention with mask := maskOf mask } }) := by
  have harm : exec (.attentionMask tag mask) s = officeRequest 0x19 tag (takeAttentionMask mask) s := rfl
  obtain ⟨hrunning, hcurrent⟩ := hfree
  rw [harm, officeRequest_taken hrunning hcurrent]
  split
  · next h => rw [takeAttentionMask_bad _ h]; rfl
  · next h => rw [takeAttentionMask_good _ h]; rfl

/-- Settles O27: the mask operand is bad exactly where a bit from 10 on is set, and step 2 of every start enables every flag. -/
theorem attentionMaskLaw : Obligations.AttentionMaskLaw := by
  refine ⟨fun s tag mask hfree => ?_, fun s straps keep => ⟨startBy_mask straps keep s, officeRestart_mask s⟩⟩
  refine ⟨fun hbad => ?_, fun hgood => ⟨?_, attn_running hfree.1⟩⟩
  · rw [exec_attentionMask tag mask hfree, if_pos ((high_bit_iff mask).mp hbad)]
  · have hlow : ¬1024 ≤ mask := by
      rw [← high_bit_iff]
      rintro ⟨bit, hbit, hset⟩
      exact Bool.false_ne_true ((hgood bit hbit).symm.trans hset)
    rw [exec_attentionMask tag mask hfree, if_neg hlow]
    rfl

/-! ### STATUS -/

/-- The state that a taken STATUS leaves, before its response: every flag cleared but those whose condition holds, and no overrun
(R166). -/
def statusCleared (s : State) : State :=
  shown { s with office := { s.office with overruns := 0 }, attention := { s.attention with flags := Flags.none } }

theorem takeStatusRead_eq (s : State) : takeStatusRead s = (statusCleared s, statusAnswer s) := by
  rw [takeStatusRead, refresh_eq_shown]
  rfl

/-- A STATUS that the free office port takes answers from the state as it was, and leaves it cleared (R166). -/
theorem exec_status {s : State} (tag : Nat) (hfree : OfficeFree s) :
    exec (.status tag) s = .next (answered 0x18 tag (statusAnswer s) (statusCleared s)) := by
  have harm : exec (.status tag) s = officeRequest 0x18 tag takeStatusRead s := rfl
  obtain ⟨hrunning, hcurrent⟩ := hfree
  rw [harm, officeRequest_taken hrunning hcurrent, takeStatusRead_eq]
  rfl

/-- Settles O28: the taken STATUS answers `statusAnswer` and leaves `statusCleared`, whose flags are the conditions that hold. -/
theorem statusReadsAndClears : Obligations.StatusReadsAndClears := by
  intro s tag hfree
  exact ⟨exec_status tag hfree, attn_running hfree.1⟩

end Sys2Proof.Machine
end

section
/-!
PROOFS. The laws of the accounts: coins (R96), consecutive journal records (R155), and the accounts of the round (R157, R101, R104,
R107). `Accounts` lists every way in which a step changes the accounts, so each law is one induction over that list.
-/

namespace Sys2Proof.Machine

open Sys2Proof

/-! ### What a command leaves of its law, from its chain of changes -/

/-- A law of the accounts that every listed change keeps is kept by every step. -/
theorem kept_of_accounts {law : State → Prop} (h : ∀ s t, Accounts s t → law s → law t) : Kept law :=
  fun s t hs hstep => h s t (step_accounts hstep) hs

/-! ### The coins (R96) -/

theorem mem_purses {ts : Table Terminal} {p : Nat × CashFields} :
    p ∈ purses ts ↔ ∃ e ∈ ts, (e.1, e.2.cash) = p := List.mem_map

theorem coinsAccounted_iff (s : State) : CoinsAccounted s ↔ ∀ p ∈ purses s.terminals, CoinLaw p.2 := by
  constructor
  · intro h p hp
    obtain ⟨e, he, rfl⟩ := mem_purses.mp hp
    exact h e he
  · intro h e he
    exact h _ (mem_purses.mpr ⟨e, he, rfl⟩)

theorem Six.add_right_comm (a b c : Six) : (a.add b).add c = (a.add c).add b := by
  simp only [Six.add, Six.mk.injEq]
  omega

theorem Six.zero_add (a : Six) : Six.zero.add a = a := by simp [Six.add, Six.zero]

theorem Six.add_comm (a b : Six) : a.add b = b.add a := by
  simp only [Six.add, Six.mk.injEq]
  omega

/-- A sale gives the tally and lifetime accepted the same coins. -/
theorem CoinLaw.sale {c : CashFields} (h : CoinLaw c) (coins : Six) (card : Nat) : CoinLaw (c.sale coins card) := by
  change c.accepted.add coins = (c.tally.add coins).add c.collected
  rw [show c.accepted = c.tally.add c.collected from h, Six.add_right_comm]

/-- A cut moves the tally into lifetime collected. -/
theorem CoinLaw.cut {c : CashFields} (h : CoinLaw c) (now : Nat) : CoinLaw (c.cut now) := by
  change c.accepted = Six.zero.add (c.collected.add c.tally)
  rw [Six.zero_add, Six.add_comm, ← show c.accepted = c.tally.add c.collected from h]

/-- The entries of a table after one of them is put: those before, and the one put. -/
theorem Table.mem_of_mem_put {α : Type} {k : Nat} {v : α} {t : Table α} {e : Nat × α} (h : e ∈ Table.put k v t) :
    e = (k, v) ∨ e ∈ t := by
  induction t with
  | nil => exact .inl (List.mem_singleton.mp h)
  | cons d t ih =>
    obtain ⟨j, w⟩ := d
    simp only [Table.put] at h
    split at h
    · exact List.mem_cons.mp h
    · split at h
      · exact (List.mem_cons.mp h).imp_right (List.mem_cons_of_mem _)
      · rcases List.mem_cons.mp h with rfl | h
        · exact .inr (List.mem_cons_self ..)
        · exact (ih h).imp_right (List.mem_cons_of_mem _)

/-- An entry of a table after one of them changes is as it was, or is the one that changed. -/
theorem Table.mem_of_mem_modify {α : Type} {k : Nat} {f : α → α} {t : Table α} {e : Nat × α} (h : e ∈ Table.modify k f t) :
    e ∈ t ∨ ∃ v, (k, v) ∈ t ∧ e = (k, f v) := by
  obtain ⟨d, hd, rfl⟩ := List.mem_map.mp h
  split
  · next hk => exact .inr ⟨d.2, hk ▸ hd, by rw [hk]⟩
  · exact .inl hd

/-- One terminal's cash fields change within the law. -/
theorem CoinsAccounted.onTerminal {s : State} (h : CoinsAccounted s) (slot : Nat) {f : Terminal → Terminal}
    (hf : ∀ t, CoinLaw t.cash → CoinLaw (f t).cash) : CoinsAccounted (onTerminal slot f s) := by
  intro e he
  rcases Table.mem_of_mem_modify he with he | ⟨x, hx, rfl⟩
  · exact h e he
  · exact hf x (h _ hx)

theorem Accounts.coins {s t : State} (h : Accounts s t) (hs : CoinsAccounted s) : CoinsAccounted t := by
  induction h with
  | same hsame _ ih => rw [coinsAccounted_iff, hsame.purses, ← coinsAccounted_iff]; exact ih
  | cold straps t hsame => rw [coinsAccounted_iff, hsame.purses]; exact fun p hp => nomatch hp
  | configured slot c _ _ ih =>
    intro e he
    rcases Table.mem_of_mem_put he with rfl | he
    · rfl
    · exact ih e he
  | removed slot _ _ ih => exact fun e he => ih e (List.mem_filter.mp he).1
  | sale slot coins card _ ih => exact ih.onTerminal slot fun _ hx => hx.sale coins card
  | @cut s' slot key x r e _ _ _ _ _ ih =>
    have hcash : CoinsAccounted (appendReserved (.collection (newCollection s' slot key x)) s') := ih
    exact hcash.onTerminal slot fun _ hx => hx.cut _
  | refl => exact hs
  | record _ _ _ ih => exact ih
  | opened _ _ _ _ _ ih => exact ih
  | closed _ _ _ ih => exact ih
  | undue _ _ ih => exact ih
  | counted _ _ ih => exact ih
  | acked _ _ ih => exact ih
  | settings _ _ _ _ ih => exact ih

/-- Settles O6: a sale and a cut are the only changes of cash fields, and each keeps the equality. -/
theorem coinsStayAccounted : Obligations.CoinsStayAccounted := kept_of_accounts fun _ _ h hs => h.coins hs

/-! ### The journal's numbers (R155) -/

/-- A record with the next number keeps the records consecutive. -/
theorem consecutive_append {next : Nat} {l : List Record} (h : consecutive next l = true) {r : Record} (hr : r.sequence = next) :
    consecutive (nextSequence next) (l ++ [r]) = true := by
  induction l with
  | nil => simp [consecutive, hr]
  | cons a l ih =>
    cases l with
    | nil =>
      simp only [consecutive, decide_eq_true_eq] at h
      simp [consecutive, hr, h]
    | cons b l =>
      simp only [consecutive, Bool.and_eq_true] at h
      simp only [List.cons_append, consecutive, Bool.and_eq_true]
      exact ⟨h.1, ih h.2⟩

theorem consecutive_tail {next : Nat} {a : Record} {l : List Record} (h : consecutive next (a :: l) = true) :
    consecutive next l = true := by
  cases l with
  | nil => rfl
  | cons b l =>
    simp only [consecutive, Bool.and_eq_true] at h
    exact h.2

theorem consecutive_drop {next : Nat} {l : List Record} (h : consecutive next l = true) (n : Nat) :
    consecutive next (l.drop n) = true := by
  induction n generalizing l with
  | zero => exact h
  | succ n ih =>
    cases l with
    | nil => exact h
    | cons a l => exact ih (consecutive_tail h)

theorem JournalConsecutive.append {s : State} (h : JournalConsecutive s) (body : RecordBody) :
    JournalConsecutive (append body s) := consecutive_append h rfl

theorem JournalConsecutive.appendReserved {s : State} (h : JournalConsecutive s) (body : RecordBody) :
    JournalConsecutive (appendReserved body s) := consecutive_append h rfl

theorem Accounts.consecutive {s t : State} (h : Accounts s t) (hs : JournalConsecutive s) : JournalConsecutive t := by
  induction h with
  | same hsame _ ih => rw [JournalConsecutive, hsame.journal]; exact ih
  | cold straps t hsame => rw [JournalConsecutive, hsame.journal]; rfl
  | record body _ _ ih => exact ih.append body
  | cut _ _ _ _ _ _ _ _ _ _ ih => exact JournalConsecutive.appendReserved (s := State.onCash _ _) ih _
  | closed _ _ _ ih => exact ih.appendReserved _
  | acked n _ ih => exact consecutive_drop ih n
  | refl => exact hs
  | configured _ _ _ _ ih => exact ih
  | removed _ _ _ ih => exact ih
  | sale _ _ _ _ ih => exact ih
  | opened _ _ _ _ _ ih => exact ih
  | undue _ _ ih => exact ih
  | counted _ _ ih => exact ih
  | settings _ _ _ _ ih => exact ih

/-- Settles O7: records are appended with the next number and leave from the head. -/
theorem journalStaysConsecutive : Obligations.JournalStaysConsecutive := kept_of_accounts fun _ _ h hs => h.consecutive hs

end Sys2Proof.Machine
end

section
/-!
PROOFS. The round list (R97, R98), and the accounts of the round that every step keeps: the reservation (R157), the collection records
(R101, R104), the room of the journal (R155) and the registered deadline (R11).
-/

namespace Sys2Proof.Machine

open Sys2Proof

/-! ### The round list (R98) -/

/-- The entry of a terminal whose box is due, for its first reason (R98 steps 1 and 2). -/
def dueEntry (e : Nat × Terminal) : Option RoundEntry :=
  (dueReason e.2).map fun reason => { slot := e.1, fill := boxFill e.2, reason := reason, state := .pending }

theorem insertEntry_perm (a : RoundEntry) (l : List RoundEntry) : (insertEntry a l).Perm (a :: l) := by
  induction l with
  | nil => exact .refl _
  | cons b l ih =>
    unfold insertEntry
    split
    · exact .refl _
    · exact (ih.cons b).trans (.swap a b l)

/-- The list of the due entries of a table, each at its place. -/
def entriesOf (ts : Table Terminal) : List RoundEntry :=
  ts.foldr (fun e acc => match dueEntry e with | none => acc | some x => insertEntry x acc) []

theorem roundList_eq (s : State) : roundList s = entriesOf s.terminals := by
  unfold roundList entriesOf
  congr 1
  funext e acc
  simp only [dueEntry]
  cases dueReason e.2 <;> rfl

theorem entriesOf_perm (ts : Table Terminal) : (entriesOf ts).Perm (ts.filterMap dueEntry) := by
  induction ts with
  | nil => exact .refl _
  | cons e ts ih =>
    rw [List.filterMap_cons]
    simp only [entriesOf, List.foldr_cons] at ih ⊢
    cases dueEntry e with
    | none => exact ih
    | some x => exact (insertEntry_perm x _).trans (ih.cons x)

theorem roundList_perm (s : State) : (roundList s).Perm (s.terminals.filterMap dueEntry) :=
  roundList_eq s ▸ entriesOf_perm _

theorem mem_roundList {s : State} {x : RoundEntry} : x ∈ roundList s ↔ ∃ e ∈ s.terminals, dueEntry e = some x := by
  rw [(roundList_perm s).mem_iff, List.mem_filterMap]

theorem dueEntry_slot {e : Nat × Terminal} {x : RoundEntry} (h : dueEntry e = some x) : x.slot = e.1 := by
  obtain ⟨_, _, rfl⟩ := Option.map_eq_some_iff.mp h
  rfl

theorem dueEntry_state {e : Nat × Terminal} {x : RoundEntry} (h : dueEntry e = some x) : x.state = .pending := by
  obtain ⟨_, _, rfl⟩ := Option.map_eq_some_iff.mp h
  rfl

/-- The slots of the due entries stand in the table's order, with those left out that are not due. -/
theorem dueSlots_sublist (ts : Table Terminal) : ((ts.filterMap dueEntry).map (·.slot)).Sublist (Table.keys ts) := by
  induction ts with
  | nil => exact .refl _
  | cons e ts ih =>
    rw [List.filterMap_cons]
    cases h : dueEntry e with
    | none => exact ih.cons e.1
    | some x =>
      have hslot : x.slot = e.1 := dueEntry_slot h
      simp only [List.map_cons, Table.keys, hslot] at ih ⊢
      exact ih.cons_cons e.1

theorem Table.keys_nodup {α : Type} {t : Table α} (h : Table.wf t = true) : (Table.keys t).Nodup :=
  ((Table.wf_iff t).mp h).imp Nat.ne_of_lt

theorem roundList_nodup {s : State} (h : Table.wf s.terminals = true) : ((roundList s).map (·.slot)).Nodup :=
  ((roundList_perm s).map _).nodup_iff.mpr ((dueSlots_sublist _).nodup (Table.keys_nodup h))

theorem roundList_pending {s : State} {x : RoundEntry} (h : x ∈ roundList s) : x.state = .pending := by
  obtain ⟨e, _, hdue⟩ := mem_roundList.mp h
  exact dueEntry_state hdue

theorem roundList_configured {s : State} {x : RoundEntry} (h : x ∈ roundList s) : x.slot ∈ Table.keys s.terminals := by
  obtain ⟨e, he, hdue⟩ := mem_roundList.mp h
  rw [dueEntry_slot hdue]
  exact List.mem_map_of_mem he

/-! ### The order of the round list (R98 step 4) -/

/-- An entry stands before another in the order of R98 step 4. -/
abbrev Precedes (a b : RoundEntry) : Prop :=
  a.reason.rank < b.reason.rank ∨ (a.reason = b.reason ∧ (b.fill < a.fill ∨ (a.fill = b.fill ∧ a.slot < b.slot)))

theorem rank_injective {a b : DueReason} (h : a.rank = b.rank) : a = b := by
  cases a <;> cases b <;> first | rfl | cases h

theorem entryBefore_iff (a b : RoundEntry) : entryBefore a b = true ↔ Precedes a b := by
  unfold entryBefore Precedes
  by_cases hr : a.reason = b.reason
  · rw [if_neg (by simp [hr])]
    by_cases hf : a.fill = b.fill
    · simp [hr, hf]
    · simp [hr, hf]
  · have hrank : a.reason.rank ≠ b.reason.rank := fun h => hr (rank_injective h)
    simp [hr, hrank]

theorem Precedes.trans {a b c : RoundEntry} (h : Precedes a b) (h' : Precedes b c) : Precedes a c := by
  unfold Precedes at h h' ⊢
  rcases h with h | ⟨h, hfill⟩ <;> rcases h' with h' | ⟨h', hfill'⟩
  · exact .inl (h.trans h')
  · exact .inl (h' ▸ h)
  · exact .inl (h ▸ h')
  · exact .inr ⟨h.trans h', by omega⟩

/-- Of two entries of different slots one stands before the other. -/
theorem Precedes.total {a b : RoundEntry} (hslot : a.slot ≠ b.slot) (h : ¬Precedes a b) : Precedes b a := by
  unfold Precedes at h ⊢
  by_cases hr : a.reason = b.reason
  · simp only [hr, Nat.lt_irrefl, true_and, false_or] at h ⊢
    omega
  · have hrank : a.reason.rank ≠ b.reason.rank := fun e => hr (rank_injective e)
    exact .inl (by omega)

theorem insertEntry_sorted {a : RoundEntry} {l : List RoundEntry} (hl : l.Pairwise Precedes)
    (hslot : a.slot ∉ l.map (·.slot)) : (insertEntry a l).Pairwise Precedes := by
  induction l with
  | nil => exact List.pairwise_singleton _ _
  | cons b l ih =>
    obtain ⟨hb, hl'⟩ := List.pairwise_cons.mp hl
    simp only [List.map_cons, List.mem_cons, not_or] at hslot
    obtain ⟨hne, hrest⟩ := hslot
    unfold insertEntry
    split
    · next hab =>
      have hab : Precedes a b := (entryBefore_iff a b).mp hab
      refine List.pairwise_cons.mpr ⟨fun c hc => ?_, hl⟩
      rcases List.mem_cons.mp hc with rfl | hc
      · exact hab
      · exact hab.trans (hb c hc)
    · next hab =>
      have hba : Precedes b a := Precedes.total hne fun h => hab ((entryBefore_iff a b).mpr h)
      refine List.pairwise_cons.mpr ⟨fun c hc => ?_, ih hl' hrest⟩
      rcases List.mem_cons.mp ((insertEntry_perm a l).mem_iff.mp hc) with rfl | hc
      · exact hba
      · exact hb c hc

theorem entriesOf_sorted {ts : Table Terminal} (h : (Table.keys ts).Nodup) : (entriesOf ts).Pairwise Precedes := by
  induction ts with
  | nil => exact .nil
  | cons e ts ih =>
    obtain ⟨hkey, hkeys⟩ := List.nodup_cons.mp h
    have hrest := ih hkeys
    simp only [entriesOf, List.foldr_cons] at hrest ⊢
    cases hdue : dueEntry e with
    | none => exact hrest
    | some x =>
      refine insertEntry_sorted hrest fun hmem => hkey ?_
      rw [← dueEntry_slot hdue]
      exact (dueSlots_sublist ts).subset (((entriesOf_perm ts).map _).mem_iff.mp hmem)

/-- The reason of a due box, in the words of R97 and R98. -/
theorem dueReason_eq_some {t : Terminal} {reason : DueReason} :
    dueReason t = some reason
      ↔ (0 < t.cash.tally.total ∨ t.watch.filtered.coinJam = true)
        ∧ ((reason = .full ∧ t.config.capacity ≤ t.cash.tally.total)
          ∨ (reason = .jam ∧ t.cash.tally.total < t.config.capacity ∧ t.watch.filtered.coinJam = true)
          ∨ (reason = .due ∧ t.cash.tally.total < t.config.capacity ∧ t.watch.filtered.coinJam = false
            ∧ t.config.threshold ≤ boxFill t)) := by
  have hpos : (t.cash.tally.total = 0 && !coinJam t) = true ↔ ¬(0 < t.cash.tally.total ∨ coinJam t = true) := by
    simp only [Bool.and_eq_true, decide_eq_true_eq, Bool.not_eq_true', not_or, Bool.not_eq_true]
    exact and_congr_left' (by omega)
  have hfull : boxFull t = true ↔ t.config.capacity ≤ t.cash.tally.total := decide_eq_true_iff
  change _ ↔ (0 < t.cash.tally.total ∨ coinJam t = true)
    ∧ (_ ∨ (_ ∧ _ ∧ coinJam t = true) ∨ (_ ∧ _ ∧ coinJam t = false ∧ _))
  unfold dueReason
  split
  · next h => exact ⟨nofun, fun h' => absurd h'.1 (hpos.mp h)⟩
  · next h =>
    have hdue := not_not.mp (mt hpos.mpr h)
    rw [and_iff_right hdue]
    split
    · next h =>
      have hnot := Nat.not_lt.mpr (hfull.mp h)
      simp only [hfull.mp h, hnot, and_true, and_false, false_and, or_false, Option.some.injEq]
      exact eq_comm
    · next h =>
      have hless : t.cash.tally.total < t.config.capacity := Nat.not_le.mp (mt hfull.mpr h)
      split
      · next h => simp [h, hless, Nat.not_le.mpr hless, eq_comm]
      · next h =>
        simp only [Bool.not_eq_true] at h
        split
        · next hthreshold => simp [h, hless, Nat.not_le.mpr hless, hthreshold, eq_comm]
        · next hthreshold => simp [h, Nat.not_le.mpr hless, hthreshold]

/-- Settles O44: insertion at its place keeps the order, since no two entries have one slot, and the entries are the due boxes. -/
theorem roundListOrder : Obligations.RoundListOrder := by
  intro s hwf
  refine ⟨roundList_eq s ▸ entriesOf_sorted (Table.keys_nodup hwf), fun x => ?_⟩
  rw [mem_roundList]
  constructor
  · rintro ⟨⟨slot, t⟩, he, hdue⟩
    obtain ⟨reason, hreason, rfl⟩ := Option.map_eq_some_iff.mp hdue
    exact ⟨t, Table.find?_of_mem hwf he, rfl, rfl, dueReason_eq_some.mp hreason⟩
  · rintro ⟨t, ht, hstate, hfill, hdue⟩
    have hfill : x.fill = boxFill t := hfill
    refine ⟨(x.slot, t), Table.mem_of_find? ht, ?_⟩
    rw [hfill] at hdue
    rw [dueEntry, dueReason_eq_some.mpr hdue, Option.map_some, ← hfill, ← hstate]

/-! ### The accounts of the round -/

theorem keys_purses (ts : Table Terminal) : (purses ts).map Prod.fst = Table.keys ts := by
  simp [purses, Table.keys, Function.comp_def]

theorem Table.wf_congr {α β : Type} {t : Table α} {u : Table β} (h : Table.keys t = Table.keys u) : Table.wf t = Table.wf u := by
  rw [Bool.eq_iff_iff, Table.wf_iff, Table.wf_iff, h]

/-- Fewer records, and the round, its reservation and the slots as they were, leave the accounts of the round. -/
theorem RoundAccounted.of_less {s t : State} (h : RoundAccounted s) (hkeys : Table.keys t.terminals = Table.keys s.terminals)
    (hreserved : t.journal.reservation = s.journal.reservation) (hused : used t ≤ used s)
    (hcollections : t.cash.collections.length ≤ s.cash.collections.length) (hround : t.cash.round = s.cash.round)
    (hdeadline : t.calendar.deadline = s.calendar.deadline) : RoundAccounted t := by
  obtain ⟨h1, h2, h3, h4, h5, h6⟩ := h
  refine ⟨by rw [hreserved, hround, h1], by omega, by rw [hround]; omega, by rw [hdeadline, hround, h4], ?_, ?_⟩
  · rw [Table.wf_congr hkeys, h5]
  · rw [hround]
    intro r hr
    obtain ⟨hnodup, hmissed, hslots⟩ := h6 r hr
    exact ⟨hnodup, hmissed, hkeys ▸ hslots⟩

@[simp] theorem keys_onTerminal (slot : Nat) (f : Terminal → Terminal) (s : State) :
    Table.keys (onTerminal slot f s).terminals = Table.keys s.terminals := Table.keys_modify slot f s.terminals

theorem used_congr {s t : State} (h : t.journal = s.journal) : used t = used s := by rw [used, used, h]

theorem roundEntry_mem {r : Round} {slot : Nat} {e : RoundEntry} (h : roundEntry r slot = some e) :
    e ∈ r.entries ∧ e.slot = slot :=
  ⟨List.mem_of_find?_eq_some h, by simpa using List.find?_some h⟩

/-- A visited entry is PENDING no longer. -/
def RoundEntry.visitedAt (slot : Nat) (e : RoundEntry) : RoundEntry :=
  if e.slot = slot then { e with state := .visited } else e

theorem visit_entries (r : Round) (slot : Nat) : (r.visit slot).entries = r.entries.map (RoundEntry.visitedAt slot) := rfl

theorem visitedAt_slot (slot : Nat) (e : RoundEntry) : (e.visitedAt slot).slot = e.slot := by
  unfold RoundEntry.visitedAt
  split <;> rfl

theorem visitedAt_of_ne {slot : Nat} {e : RoundEntry} (h : e.slot ≠ slot) : e.visitedAt slot = e := if_neg h

/-- A visit takes one from the PENDING entries where the slot's one entry is PENDING. -/
theorem pending_visited {l : List RoundEntry} {slot : Nat} {e : RoundEntry} (hnodup : (l.map (·.slot)).Nodup) (he : e ∈ l)
    (hslot : e.slot = slot) (hpending : e.state = .pending) :
    ((l.map (RoundEntry.visitedAt slot)).filter fun x => x.state = .pending).length + 1
      = (l.filter fun x => x.state = .pending).length := by
  induction l with
  | nil => cases he
  | cons a l ih =>
    obtain ⟨ha, hl⟩ := List.nodup_cons.mp hnodup
    rw [List.map_cons]
    rcases List.mem_cons.mp he with rfl | he
    · have hothers : l.map (RoundEntry.visitedAt slot) = l.map id := by
        refine List.map_congr_left fun x hx => visitedAt_of_ne fun hxs => ha ?_
        exact List.mem_map.mpr ⟨x, hx, hxs.trans hslot.symm⟩
      rw [List.map_id] at hothers
      have hvisited : (e.visitedAt slot).state = .visited := by rw [RoundEntry.visitedAt, if_pos hslot]
      rw [hothers, List.filter_cons_of_neg (by simp [hvisited]), List.filter_cons_of_pos (by simp [hpending]),
        List.length_cons]
    · have hne : a.slot ≠ slot := fun h => ha (List.mem_map.mpr ⟨e, he, hslot.trans h.symm⟩)
      rw [visitedAt_of_ne hne, List.filter_cons, List.filter_cons]
      split
      · rw [List.length_cons, List.length_cons, ih hl he]
      · exact ih hl he

theorem RoundSound.visit {s : State} {r : Round} (h : RoundSound s r) (slot : Nat) : RoundSound s (r.visit slot) := by
  obtain ⟨hnodup, hmissed, hslots⟩ := h
  have hmap : (r.visit slot).entries.map (·.slot) = r.entries.map (·.slot) := by
    simp [visit_entries, Function.comp_def, visitedAt_slot]
  refine ⟨hmap ▸ hnodup, fun e he => ?_, fun e he => ?_⟩
  · obtain ⟨x, hx, rfl⟩ := List.mem_map.mp (visit_entries r slot ▸ he)
    unfold RoundEntry.visitedAt
    split
    · nofun
    · exact hmissed x hx
  · obtain ⟨x, hx, rfl⟩ := List.mem_map.mp (visit_entries r slot ▸ he)
    rw [visitedAt_slot]
    exact hslots x hx

/-- A cut takes its record and its collection record from what the round reserved (R104). -/
theorem RoundAccounted.cut {s : State} (h : RoundAccounted s) {slot key : Nat} {t : Terminal} {r : Round} {e : RoundEntry}
    (hround : s.cash.round = some r) (hentry : roundEntry r slot = some e) (hpending : e.state = .pending) :
    RoundAccounted (cutTally slot key t r s) := by
  obtain ⟨hres, hroom, hrecords, hdeadline, hwf, hsound⟩ := h
  have hr : RoundSound s r := hsound r hround
  obtain ⟨hmem, hslot⟩ := roundEntry_mem hentry
  have hone : pendingEntries (r.visit slot) + 1 = pendingEntries r := pending_visited hr.1 hmem hslot hpending
  have hkeys : Table.keys (cutTally slot key t r s).terminals = Table.keys s.terminals :=
    keys_onTerminal slot _ (appendReserved _ _)
  rw [hround] at hres hrecords hdeadline
  simp only [owedReservation, reservedCollections, Option.map_some, Option.getD_some] at hres hrecords hdeadline
  refine ⟨?_, ?_, ?_, hdeadline, by rw [Table.wf_congr hkeys, hwf], fun q hq => ?_⟩
  · change s.journal.reservation - 1 = pendingEntries (r.visit slot) + 1
    omega
  · change (s.journal.records ++ [_]).length + (s.journal.reservation - 1) ≤ _
    have : used s = s.journal.records.length := rfl
    rw [List.length_append, List.length_singleton]
    omega
  · change (s.cash.collections ++ [_]).length + pendingEntries (r.visit slot) ≤ _
    rw [List.length_append, List.length_singleton]
    omega
  · obtain rfl : r.visit slot = q := Option.some.inj hq
    obtain ⟨hnodup, hmissed, hslots⟩ := hr.visit slot
    exact ⟨hnodup, hmissed, fun x hx => hkeys ▸ hslots x hx⟩

/-- A round opens within the space that its checks found (R101). -/
theorem RoundAccounted.opened {s : State} (h : RoundAccounted s) (collector key : Nat) (hround : s.cash.round = none)
    (hfits : roundFits s (roundList s).length = true) : RoundAccounted (recordRound collector key (roundList s) s) := by
  obtain ⟨hres, hroom, hrecords, -, hwf, -⟩ := h
  rw [hround] at hres hrecords
  simp only [owedReservation, reservedCollections, Option.map_none, Option.getD_none] at hres hrecords
  have hall : pendingEntries (newRound collector key (roundList s) s) = (roundList s).length :=
    congrArg List.length (List.filter_eq_self.mpr fun x hx => by simpa using roundList_pending hx)
  obtain ⟨hrecordsFit, hjournalFits⟩ := (Bool.and_eq_true _ _).mp hfits
  have hrecordsFit : (roundList s).length ≤ Config.maxCollections - s.cash.collections.length :=
    of_decide_eq_true hrecordsFit
  have hjournalFits : (roundList s).length + 1 ≤ Config.journalCapacity - used s - s.journal.reservation :=
    of_decide_eq_true hjournalFits
  refine ⟨congrArg (· + 1) hall.symm, ?_, ?_, rfl, hwf, fun q hq => ?_⟩
  · change used s + ((roundList s).length + 1) ≤ _
    omega
  · change s.cash.collections.length + pendingEntries (newRound collector key (roundList s) s) ≤ _
    omega
  · obtain rfl : newRound collector key (roundList s) s = q := Option.some.inj hq
    exact ⟨roundList_nodup hwf, fun x hx => by rw [roundList_pending hx]; nofun, fun x hx => roundList_configured hx⟩

/-- A round closes on its last reserved entry (R107). -/
theorem RoundAccounted.closed {s : State} (h : RoundAccounted s) {r : Round} (hround : s.cash.round = some r) :
    RoundAccounted (closeRoundCore r s) := by
  obtain ⟨hres, hroom, hrecords, -, hwf, -⟩ := h
  rw [hround] at hres
  simp only [owedReservation] at hres
  refine ⟨rfl, ?_, ?_, rfl, hwf, nofun⟩
  · change (s.journal.records ++ [_]).length + 0 ≤ _
    have : used s = s.journal.records.length := rfl
    rw [List.length_append, List.length_singleton]
    omega
  · change s.cash.collections.length + 0 ≤ _
    omega

theorem Accounts.round {s t : State} (h : Accounts s t) (hs : RoundAccounted s) : RoundAccounted t := by
  induction h with
  | refl => exact hs
  | same hsame _ ih =>
    refine ih.of_less ?_ (by rw [hsame.journal]) (used_congr hsame.journal).le (by rw [hsame.cash]) (by rw [hsame.cash])
      hsame.deadline
    rw [← keys_purses, hsame.purses, keys_purses]
  | cold straps t hsame =>
    have hcold : RoundAccounted (State.cold straps) := ⟨rfl, Nat.zero_le _, Nat.zero_le _, rfl, rfl, nofun⟩
    refine hcold.of_less ?_ (by rw [hsame.journal]) (used_congr hsame.journal).le (by rw [hsame.cash]) (by rw [hsame.cash])
      hsame.deadline
    rw [← keys_purses, hsame.purses, keys_purses]
  | configured slot c _ _ ih =>
    obtain ⟨hres, hroom, hrecords, hdeadline, hwf, hsound⟩ := ih
    refine ⟨hres, hroom, hrecords, hdeadline, Table.wf_put _ _ _ hwf, fun r hr => ?_⟩
    obtain ⟨hnodup, hmissed, hslots⟩ := hsound r hr
    exact ⟨hnodup, hmissed, fun e he => (Table.mem_keys_put ..).mpr (.inr (hslots e he))⟩
  | @removed s' slot hout _ ih =>
    obtain ⟨hres, hroom, hrecords, hdeadline, hwf, hsound⟩ := ih
    refine ⟨hres, hroom, hrecords, hdeadline, Table.wf_erase _ _ hwf, fun r hr => ?_⟩
    obtain ⟨hnodup, hmissed, hslots⟩ := hsound r hr
    refine ⟨hnodup, hmissed, fun e he => ?_⟩
    have hround : s'.cash.round = some r := hr
    have hne : slot ≠ e.slot := by
      rintro rfl
      have hsome : (roundEntry r e.slot).isSome = true := List.find?_isSome.mpr ⟨e, he, by simp⟩
      rw [inRound, hround, Option.bind_some, hsome] at hout
      cases hout
    have hkey := hslots e he
    rw [Table.mem_keys_iff] at hkey ⊢
    rwa [State.onTerminals_terminals, Table.find?_erase_ne hne]
  | @record s' body hfree _ ih =>
    obtain ⟨hres, hroom, hrest⟩ := ih
    refine ⟨hres, ?_, hrest⟩
    change (s'.journal.records ++ [_]).length + s'.journal.reservation ≤ _
    have : used s' = s'.journal.records.length := rfl
    rw [freeSpace] at hfree
    rw [List.length_append, List.length_singleton]
    omega
  | sale slot coins card _ ih => exact ih.of_less (keys_onTerminal ..) rfl le_rfl le_rfl rfl rfl
  | cut slot key t r e hround hentry hpending _ _ ih => exact ih.cut hround hentry hpending
  | opened collector key hround hfits _ ih => exact ih.opened collector key hround hfits
  | closed r hround _ ih => exact ih.closed hround
  | undue hround _ ih =>
    obtain ⟨hres, hroom, hrecords, -, hrest⟩ := ih
    exact ⟨hres, hroom, hrecords, by rw [State.onCalendar_cash, hround]; rfl, hrest⟩
  | counted number _ ih => exact ih.of_less rfl rfl le_rfl (List.length_filter_le ..) rfl rfl
  | acked n _ ih => exact ih.of_less rfl rfl (by simp [used]) le_rfl rfl rfl
  | settings _ _ _ _ ih => exact ih

/-- Settles O8: each listed change of the accounts keeps the round's. -/
theorem roundStaysAccounted : Obligations.RoundStaysAccounted := kept_of_accounts fun _ _ h hs => h.round hs

end Sys2Proof.Machine
end

section
/-!
PROOFS. What a step can do, said once: beside the two ports and the retention-lost latch a command is one act of a block. Every law that
speaks of more than the accounts is proved of each act.
-/

namespace Sys2Proof.Machine

open Sys2Proof

/-- At most the two ports and the retention-lost latch differ. -/
def Aside (s t : State) : Prop :=
  ∃ o v l, t = { s with office := o, service := v, supply := { s.supply with latch := l } }

theorem Aside.refl (s : State) : Aside s s := ⟨s.office, s.service, s.supply.latch, rfl⟩

theorem Aside.onOffice (s : State) (f : OfficePort → OfficePort) : Aside s (s.onOffice f) := ⟨_, _, _, rfl⟩

theorem Aside.onService (s : State) (f : ServicePort → ServicePort) : Aside s (s.onService f) := ⟨_, _, _, rfl⟩

/-- One act of a block while the part runs, with what the block has checked by then. -/
inductive Act (s : State) : State → Prop
  | idle : Act s s
  | clockSet (time : Nat) (offset : Int) : Act s (setClock time offset s)
  | holidaysPut (days : List Nat) : Act s (putHolidays days s)
  | planPut (plan : Nat) (p : PlanSlot) : planInUse plan s = false → Act s (s.onPlans (Table.put plan p))
  | planCleared (plan : Nat) : planInUse plan s = false → Act s (s.onPlans (Table.erase plan))
  | planAssigned (plan : Nat) (switch : Option Nat) (slots : List Nat) :
      assignRefusal plan switch slots s = none →
      Act s (slots.foldl (assignSlot plan (assignsPending switch s) switch) s)
  | salesSet (f : Sales → Sales) : Act s (s.onSales f)
  | permitPut (number : Nat) (p : PermitPut) :
      Act s (s.onPermits (Table.put number (permitRecord p (Table.find? number s.permits))))
  | permitRevoked (number : Nat) : Act s (s.onPermits (Table.erase number))
  | slotConfigured (slot : Nat) (c : TerminalConfig) :
      terminalRefusal slot c s = none → terminal s slot = none → Act s (configureSlot slot c s)
  | slotUpdated (slot : Nat) (c : TerminalConfig) (t : Terminal) :
      terminalRefusal slot c s = none → terminal s slot = some t → Act s (updateSlot slot c t s)
  | slotRemoved (slot : Nat) (t : Terminal) : terminal s slot = some t → t.quote = .none → Act s (removeSlot slot t s)
  | cashSet (d : Six) (tolerance : Nat) : Act s (s.onCash fun c => { c with denominations := d, tolerance := tolerance })
  | counted (c : Collection) (counts : Six) : freeSpace s ≠ 0 → Act s (reconcile c counts s)
  | roundOpened (collector key : Nat) :
      s.cash.round = none → roundFits s (roundList s).length = true → Act s (openRound collector key (roundList s) s)
  | roundClosed (r : Round) : s.cash.round = some r → Act s (closeRound r s)
  | faultAcked (slot : Nat) (k : FaultKind) (st : FaultState) : Act s (deriveService slot (setFault slot k st s))
  | recordsAcked (n : Nat) : Act s (removeRecords n s)
  | attentionSet (f : Attention → Attention) : Act s (s.onAttention f)
  | rosterPut (identity : Nat) (e : RosterEntry) : Act s (s.onRoster (Table.put identity e))
  | rosterErased (identity : Nat) : Act s (s.onRoster (Table.erase identity))
  | resetQueued (slot : Nat) (t : Terminal) :
      terminal s slot = some t → t.link.state.enrolled = true → Act s (onQueue slot resetQueue s)
  | barEnded (slot : Nat) (t : Terminal) : terminal s slot = some t → t.link.state = .barred → Act s (endBar slot s)
  | slotLeft (slot : Nat) (t : Terminal) :
      terminal s slot = some t → t.link.state.enrolled = false → t.link.state ≠ .barred → Act s (leaveTo slot .absent s)
  | restarted (straps : Straps) (keep : Bool) : Act s (startBy straps keep s)
  | officeRestarted : Act s (officeRestart s)
  | cycleStarted (number : Nat) : s.line.mode = .idle → Act s (startCycle number s)
  | answered (slot : Nat) (kind : CallKind) (calledAs : LinkState) (rode : Option NoticeBody) (head : AnswerHead)
      (request : AnswerRequest) :
      s.line.mode = .window slot kind calledAs rode →
      Act s (windowOver slot kind (windowAnswer slot calledAs rode head request s))
  | missed (slot : Nat) (kind : CallKind) (calledAs : LinkState) (rode : Option NoticeBody) :
      s.line.mode = .window slot kind calledAs rode → Act s (windowOver slot kind (missSlot slot calledAs s))
  | jabbered (slot : Nat) (kind : CallKind) (calledAs : LinkState) (rode : Option NoticeBody) :
      s.line.mode = .window slot kind calledAs rode → Act s (setLine (.quiet slot kind) [] (barSlot slot (clearOut s)))
  | jabberedLate (slot : Nat) (kind : CallKind) :
      s.line.ended = some (slot, kind) → Act s (setLine (.quiet slot kind) [] (barSlot slot (clearOut (takeBack s))))
  | fellQuiet (slot : Nat) (kind : CallKind) : s.line.mode = .quiet slot kind → Act s (afterWindow slot kind s)
  | offered (identity : Nat) (form : OfferForm) : Act s (takeOffer identity form s)
  | replyEnded (number : Nat) (taken : Bool) (offered : List Nat) (earned : List EarnedOffer) :
      s.line.mode = .reply number taken offered earned → Act s (endReplyWindow number offered earned s)
  | linkLost (slot : Nat) : Act s (conditionRises slot .linkLost (onLink slot (fun l => { l with lostDeadline := none }) s))
  | walkCompleted (w : Walk) : s.engine.walk = some w → Act s (completeWalk w s)
  | quoteExpired (slot : Nat) (q : OpenQuote) : lapsedQuote slot s = some q → Act s (expireQuote slot q s)
  | silent (slot : Nat) : Act s (conditionRises slot .silent s)
  | secondEnded : Act s (endSecond s)
  | dayRolled : Act s (dayRoll s)
  | refound (slot : Nat) : Act s (refind slot s)
  | switched (slot : Nat) : Act s (refind slot (takeSwitch slot s))
  | deadlineMet : Act s (deliverDeadline s)
  | powerFailed (cellBelow duringStart : Bool) : Act s (enterBackup cellBelow duringStart s)

/-- The act of a request on the state that the port hands its owner. -/
abbrev Acts (act : State → State × Response) : Prop := ∀ s : State, Act s (act s).1

/-! ### The owners' acts -/

theorem takeClockSet_acts (time : Nat) (offset : Int) : Acts (takeClockSet time offset) := by
  intro s
  unfold takeClockSet
  split
  · exact .idle
  · dsimp only
    exact .clockSet time offset

theorem engineerClockSet_acts (time : Nat) (offset : Int) : Acts (engineerClockSet time offset) := by
  intro s
  unfold engineerClockSet
  split
  · exact .idle
  · exact takeClockSet_acts time offset s

theorem takeHolidaysPut_acts (days : List Nat) : Acts (takeHolidaysPut days) := by
  intro s
  unfold takeHolidaysPut
  split
  · exact .idle
  · show Act s (putHolidays days s)
    exact .holidaysPut days

theorem onPlan_acts {plan : Nat} {act : State → State × Response} (h : ∀ s, planInUse plan s = false → Act s (act s).1) :
    Acts (onPlan plan act) := by
  intro s
  unfold onPlan
  split
  · exact .idle
  · split
    · exact .idle
    · next hfree => exact h s (by simpa using hfree)

theorem putProfile_acts {plan : Nat} (profile : Nat) (bands : List BandEntry) (s : State) (h : planInUse plan s = false) :
    Act s (putProfile plan profile bands s).1 := by
  unfold putProfile
  split
  · split
    · exact .idle
    · split
      · exact .idle
      · split
        · exact .idle
        · exact .planPut plan _ h
  · exact .idle

theorem closePlan_acts {plan : Nat} (r v b : Nat) (s : State) (h : planInUse plan s = false) :
    Act s (closePlan plan r v b s).1 := by
  unfold closePlan
  split
  · split
    · exact .idle
    · split
      · exact .idle
      · split
        · exact .idle
        · split
          · exact .idle
          · exact .planPut plan _ h
  · exact .idle

theorem takePlanAssign_acts (plan : Nat) (switch : Option Nat) (slots : List Nat) : Acts (takePlanAssign plan switch slots) := by
  intro s
  unfold takePlanAssign
  split
  · exact .idle
  · next h => exact .planAssigned plan switch slots h

theorem takeGracePut_acts (grace : Nat) : Acts (takeGracePut grace) := by
  intro s
  unfold takeGracePut
  split
  · exact .idle
  · dsimp only
    exact .salesSet _

theorem takePermitPut_acts (number : Nat) (p : PermitPut) : Acts (takePermitPut number p) := by
  intro s
  unfold takePermitPut
  split
  · exact .idle
  · dsimp only
    split
    · exact .idle
    · exact .permitPut number p

theorem takePermitRevoke_acts (number : Nat) : Acts (takePermitRevoke number) := by
  intro s
  unfold takePermitRevoke
  split
  · exact .idle
  · exact .permitRevoked number

theorem takeTerminalPut_acts (slot : Nat) (c : TerminalConfig) : Acts (takeTerminalPut slot c) := by
  intro s
  unfold takeTerminalPut
  split
  · exact .idle
  · next hrefusal =>
    split
    · next hslot => exact .slotConfigured slot c hrefusal hslot
    · next t hslot => exact .slotUpdated slot c t hrefusal hslot

theorem takeTerminalRemove_acts (slot : Nat) : Acts (takeTerminalRemove slot) := by
  intro s
  unfold takeTerminalRemove
  split
  · exact .idle
  · split
    · exact .idle
    · next t hslot =>
      split
      · exact .idle
      · split
        · exact .idle
        · split
          · exact .idle
          · next hquote => exact .slotRemoved slot t hslot (not_not.mp hquote)

theorem takeDenominationsPut_acts (values : Six) : Acts (takeDenominationsPut values) := by
  intro s
  unfold takeDenominationsPut
  split
  · exact .idle
  · split
    · exact .idle
    · exact .cashSet values s.cash.tolerance

theorem takeTolerancePut_acts (tolerance : Nat) : Acts (takeTolerancePut tolerance) := by
  intro s
  unfold takeTolerancePut
  split
  · exact .idle
  · exact .cashSet s.cash.denominations tolerance

theorem takeCountResult_acts (number : Nat) (counts : Six) : Acts (takeCountResult number counts) := by
  intro s
  unfold takeCountResult
  split
  · exact .idle
  · split
    · exact .idle
    · next hfree => exact .counted _ counts hfree

theorem takeRoundStart_acts (identity : Nat) (sender : RosterEntry) : Acts (takeRoundStart identity sender) := by
  intro s
  unfold takeRoundStart
  split
  · exact .idle
  · split
    · exact .idle
    · next hround =>
      dsimp only
      split
      · exact .idle
      · split
        · exact .idle
        · next hfits => exact .roundOpened identity _ hround (by simpa using hfits)

theorem takeRoundEnd_acts (identity : Nat) (sender : RosterEntry) : Acts (takeRoundEnd identity sender) := by
  intro s
  unfold takeRoundEnd
  split
  · exact .idle
  · next r hround =>
    split
    · exact .idle
    · exact .roundClosed r hround

theorem takeFaultAck_acts (slot fault : Nat) : Acts (takeFaultAck slot fault) := by
  intro s
  unfold takeFaultAck
  split
  · exact .idle
  · split
    · exact .idle
    · split
      · exact .idle
      · unfold acknowledge
        dsimp only
        split
        · exact .idle
        · exact .faultAcked slot _ _

theorem takeJournalAck_acts (sequence : Nat) : Acts (takeJournalAck sequence) := by
  intro s
  unfold takeJournalAck
  dsimp only
  split
  · exact .recordsAcked _
  · split <;> exact .idle

theorem takeAttentionMask_acts (mask : Nat) : Acts (takeAttentionMask mask) := by
  intro s
  unfold takeAttentionMask
  split
  · exact .idle
  · dsimp only
    exact .attentionSet _

theorem takeRosterPut_acts (identity role key : Nat) : Acts (takeRosterPut identity role key) := by
  intro s
  unfold takeRosterPut
  split
  · exact .idle
  · dsimp only
    split
    · exact .idle
    · exact .rosterPut identity _

theorem takeRosterRemove_acts (identity : Nat) : Acts (takeRosterRemove identity) := by
  intro s
  unfold takeRosterRemove
  split
  · exact .idle
  · exact .rosterErased identity

theorem takeLineRestart_acts (slot : Nat) : Acts (takeLineRestart slot) := by
  intro s
  unfold takeLineRestart
  split
  · exact .idle
  · split
    · exact .idle
    · next t hslot =>
      unfold restartLine
      split
      · next hstate => exact .resetQueued slot t hslot (by rw [hstate]; rfl)
      · next hstate => exact .resetQueued slot t hslot (by rw [hstate]; rfl)
      · next hstate => exact .barEnded slot t hslot hstate
      · next hactive hsleeping hbarred =>
        refine .slotLeft slot t hslot ?_ hbarred
        cases hstate : t.link.state <;> first | rfl | contradiction

/-! ### The commands -/

/-- What a command can do: nothing beside the ports and the latch; one act while the part runs, the port's own changes before and after
it; a second or a start in BACKUP. -/
inductive Does (s t : State) : Prop
  | aside : Aside s t → Does s t
  | act (u v : State) : s.supply.part = .running → Aside s u → Act u v → Aside v t → Does s t
  | second : s.supply.part ≠ .running → t = endSecondInBackup s → Does s t
  | start (straps : Straps) (keep : Bool) : s.supply.part ≠ .running → t = startBy straps keep s → Does s t

theorem whileRunning_does {f : State → State} {s t : State} (hf : Act s (f s)) (h : whileRunning f s = .next t) : Does s t := by
  rcases whileRunning_cases h with ⟨hrunning, rfl⟩ | ⟨_, rfl⟩
  · exact .act s (f s) hrunning (.refl s) hf (.refl _)
  · exact .aside (.refl _)

theorem whileRunning_aside {f : State → State} {s t : State} (hf : Aside s (f s)) (h : whileRunning f s = .next t) :
    Does s t := by
  rcases whileRunning_cases h with ⟨_, rfl⟩ | ⟨_, rfl⟩
  · exact .aside hf
  · exact .aside (.refl _)

theorem officeRequest_does {kind tag : Nat} {act : State → State × Response} {s t : State} (hact : Acts act)
    (h : officeRequest kind tag act s = .next t) : Does s t := by
  by_cases hrunning : s.supply.part = .running
  · rcases officeRequest_cases h with rfl | ⟨f, rfl⟩ | rfl
    · exact .aside (.refl _)
    · exact .aside (.onOffice s f)
    · exact .act (hunting s) _ hrunning (.onOffice s _) (hact _) (.onOffice _ _)
  · rcases whileRunning_cases h with ⟨h', _⟩ | ⟨_, rfl⟩
    · exact absurd h' hrunning
    · exact .aside (.refl _)

theorem serviceArrival_aside {identity kind tag : Nat} {f : State → Response} {s : State} :
    Aside s (serviceArrival identity kind tag (answering f) s) := by
  rcases serviceArrival_cases (identity := identity) (kind := kind) (tag := tag) (act := answering f) (s := s) with
    h | ⟨f, h⟩ | h <;> rw [h]
  · exact .refl s
  · exact .onService s f
  · exact ⟨_, _, _, rfl⟩

theorem serviceRequest_does {identity kind tag : Nat} {allowed : Role → Bool} {act : RosterEntry → State → State × Response}
    {s t : State} (hact : ∀ e, Acts (act e)) (h : serviceRequest identity kind tag allowed act s = .next t) : Does s t := by
  rcases whileRunning_cases h with ⟨hrunning, rfl⟩ | ⟨_, rfl⟩
  · rcases serviceArrival_cases (identity := identity) (kind := kind) (tag := tag) (act := withSender identity allowed act)
      (s := s) with h | ⟨f, h⟩ | h <;> rw [h]
    · exact .aside (.refl s)
    · exact .aside (.onService s f)
    · refine .act (serviceHunting s) _ hrunning (.onService s _) ?_ (.onService _ _)
      rcases withSender_cases identity allowed act (serviceHunting s) with h | ⟨e, h⟩ <;> rw [h]
      · exact .idle
      · exact hact e _
  · exact .aside (.refl _)

theorem answering_acts (f : State → Response) : Acts (answering f) := fun _ => .idle

/-- STATUS counts the overruns anew beside its act on the attention flags. -/
theorem status_does {tag : Nat} {s t : State} (h : officeRequest 0x18 tag takeStatusRead s = .next t) : Does s t := by
  by_cases hrunning : s.supply.part = .running
  · rcases officeRequest_cases h with rfl | ⟨f, rfl⟩ | rfl
    · exact .aside (.refl _)
    · exact .aside (.onOffice s f)
    · exact .act ((hunting s).onOffice fun o => { o with overruns := 0 }) _ hrunning ⟨_, _, _, rfl⟩ (.attentionSet fun a =>
        { a with flags := Flags.none.or (conditions s) }) (.onOffice _ _)
  · rcases whileRunning_cases h with ⟨h', _⟩ | ⟨_, rfl⟩
    · exact absurd h' hrunning
    · exact .aside (.refl _)

theorem serviceReads_aside (reading : Bool) (s : State) : Aside s (serviceReads reading s) := by
  unfold serviceReads
  split
  · exact .onService s _
  · exact .refl s

theorem officeBusy_aside (kind tag : Nat) (s : State) :
    Aside s (if s.office.current.isNone then s else officeArrival kind tag (answering fun _ => refusal .busy) s) := by
  split
  · exact .refl s
  · unfold officeArrival
    dsimp only
    split
    · exact ⟨_, _, _, rfl⟩
    · split <;> exact ⟨_, _, _, rfl⟩

theorem takeAnswer_acts (head : AnswerHead) (request : AnswerRequest) (s : State) : Act s (takeAnswer head request s) := by
  unfold takeAnswer
  split
  · next slot kind calledAs rode hmode => exact .answered slot kind calledAs rode head request hmode
  · exact .idle

theorem barDue_barred {slot : Nat} {s : State} (h : barDue slot s = true) :
    ∃ t, terminal s slot = some t ∧ t.link.state = .barred := by
  unfold barDue at h
  cases hslot : terminal s slot with
  | none => simp [hslot] at h
  | some t =>
    simp only [hslot, Option.map_some, Option.getD_some, Bool.and_eq_true, decide_eq_true_eq] at h
    exact ⟨t, rfl, h.1⟩

theorem officeResponseSent_does {s t : State} (h : execOfficeResponseSent s = .next t) : Does s t := by
  unfold execOfficeResponseSent at h
  cases hcurrent : s.office.current with
  | none => exact whileRunning_aside (by rw [hcurrent]; exact .onOffice s _) h
  | some r =>
    by_cases hrestart : r.kind = 0x1C ∧ r.response.code = .ok
    · refine whileRunning_does ?_ h
      rw [hcurrent]
      dsimp only
      rw [responseSent, if_pos hrestart]
      exact .officeRestarted
    · refine whileRunning_aside ?_ h
      rw [hcurrent]
      dsimp only
      rw [responseSent, if_neg hrestart]
      exact .onOffice s _

/-- What any command can do. -/
theorem exec_does {c : Instr} {s t : State} (h : exec c s = .next t) : Does s t := by
  cases c
  case clockSet src time offset =>
    cases src
    · exact officeRequest_does (takeClockSet_acts _ _) h
    · exact serviceRequest_does (fun _ => engineerClockSet_acts _ _) h
  case clockGet => exact officeRequest_does (answering_acts _) h
  case holidaysPut => exact officeRequest_does (takeHolidaysPut_acts _) h
  case planBegin => exact officeRequest_does (onPlan_acts fun _ hfree => .planPut _ _ hfree) h
  case profilePut => exact officeRequest_does (onPlan_acts fun s hfree => putProfile_acts _ _ s hfree) h
  case planClose => exact officeRequest_does (onPlan_acts fun s hfree => closePlan_acts _ _ _ s hfree) h
  case planClear => exact officeRequest_does (onPlan_acts fun _ hfree => .planCleared _ hfree) h
  case planAssign => exact officeRequest_does (takePlanAssign_acts _ _ _) h
  case gracePut => exact officeRequest_does (takeGracePut_acts _) h
  case permitPut => exact officeRequest_does (takePermitPut_acts _ _) h
  case permitRevoke => exact officeRequest_does (takePermitRevoke_acts _) h
  case permitGet => exact officeRequest_does (answering_acts _) h
  case terminalPut => exact officeRequest_does (takeTerminalPut_acts _ _) h
  case terminalRemove => exact officeRequest_does (takeTerminalRemove_acts _) h
  case terminalAudit => exact officeRequest_does (answering_acts _) h
  case denominationsPut => exact officeRequest_does (takeDenominationsPut_acts _) h
  case tolerancePut => exact officeRequest_does (takeTolerancePut_acts _) h
  case countResult => exact officeRequest_does (takeCountResult_acts _ _) h
  case faultList => exact officeRequest_does (answering_acts _) h
  case faultAck src slot fault =>
    cases src
    · exact officeRequest_does (takeFaultAck_acts _ _) h
    · exact serviceRequest_does (fun _ => takeFaultAck_acts _ _) h
  case groupStatus => exact officeRequest_does (answering_acts _) h
  case journalRead => exact officeRequest_does (answering_acts _) h
  case journalAck => exact officeRequest_does (takeJournalAck_acts _) h
  case status => exact status_does h
  case attentionMask => exact officeRequest_does (takeAttentionMask_acts _) h
  case rosterPut => exact officeRequest_does (takeRosterPut_acts _ _ _) h
  case rosterRemove => exact officeRequest_does (takeRosterRemove_acts _) h
  case restart => exact officeRequest_does (answering_acts _) h
  case officeBadRequest => exact officeRequest_does (answering_acts _) h
  case officeBusy kind tag => 
    exact whileRunning_aside
      (f := fun s => if s.office.current.isNone then s else officeArrival kind tag (answering fun _ => refusal .busy) s)
      (officeBusy_aside kind tag s) h
  case officeFrameDiscard => exact whileRunning_aside (.onOffice s _) h
  case officeByteTimeout => exact whileRunning_aside (.onOffice s _) h
  case officeResponseSent => exact officeResponseSent_does h
  case ticketCheck => exact serviceRequest_does (fun _ => answering_acts _) h
  case permitCheck => exact serviceRequest_does (fun _ => answering_acts _) h
  case groupCheck => exact serviceRequest_does (fun _ => answering_acts _) h
  case roundStart => exact serviceRequest_does (fun _ => takeRoundStart_acts _ _) h
  case roundList => exact serviceRequest_does (fun _ => answering_acts _) h
  case roundEnd => exact serviceRequest_does (fun _ => takeRoundEnd_acts _ _) h
  case terminalStatus => exact serviceRequest_does (fun _ => answering_acts _) h
  case lineRestart => exact serviceRequest_does (fun _ => takeLineRestart_acts _) h
  case serviceBadRequest => exact whileRunning_aside serviceArrival_aside h
  case serviceBusy identity kind tag =>
    refine whileRunning_aside (f := fun s => if s.service.current.isNone then s else _) ?_ h
    split
    · exact .refl s
    · exact serviceArrival_aside
  case serviceFrameDiscard => exact whileRunning_aside (serviceReads_aside _ s) h
  case serviceByteTimeout => exact whileRunning_aside (serviceReads_aside _ s) h
  case serviceResponseSent =>
    refine whileRunning_aside (f := fun s => if s.service.current.isNone then _ else _) ?_ h
    split <;> exact .onService s _
  case cycleStart =>
    refine whileRunning_does (f := fun s => if s.line.mode = .idle then _ else s) ?_ h
    split
    · next hidle => exact .cycleStarted _ hidle
    · exact .idle
  case answer => exact whileRunning_does (takeAnswer_acts _ _ s) h
  case quote => exact whileRunning_does (takeAnswer_acts _ _ s) h
  case confirm => exact whileRunning_does (takeAnswer_acts _ _ s) h
  case cancel => exact whileRunning_does (takeAnswer_acts _ _ s) h
  case accept => exact whileRunning_does (takeAnswer_acts _ _ s) h
  case wakeReq => exact whileRunning_does (takeAnswer_acts _ _ s) h
  case miss =>
    refine whileRunning_does (f := takeMiss) ?_ h
    unfold takeMiss
    split
    · next slot kind calledAs rode hmode => exact .missed slot kind calledAs rode hmode
    · exact .idle
  case jabber =>
    refine whileRunning_does (f := takeJabber) ?_ h
    unfold takeJabber
    split
    · next slot kind calledAs rode hmode => exact .jabbered slot kind calledAs rode hmode
    · exact .idle
  case jabberLate =>
    refine whileRunning_does (f := takeLateJabber) ?_ h
    unfold takeLateJabber
    split
    · next slot kind hended => exact .jabberedLate slot kind hended
    · exact .idle
  case offer identity form => exact whileRunning_does (f := takeOffer identity form) (.offered identity form) h
  case replyWindowEnd =>
    refine whileRunning_does (f := takeWindowEnd) ?_ h
    unfold takeWindowEnd
    split
    · next number taken offered earned hmode => exact .replyEnded number taken offered earned hmode
    · exact .idle
  case linkLostDeadline slot =>
    refine whileRunning_does (f := fun s => if lostDue slot s then _ else s) ?_ h
    split
    · exact .linkLost slot
    · exact .idle
  case barExpiry slot =>
    refine whileRunning_does (f := fun s => if barDue slot s then _ else s) ?_ h
    split
    · next hdue =>
      obtain ⟨t, hslot, hbarred⟩ := barDue_barred hdue
      exact .barEnded slot t hslot hbarred
    · exact .idle
  case walkCompletion =>
    refine whileRunning_does (f := fun s => match s.engine.walk with | none => s | some w => completeWalk w s) ?_ h
    split
    · exact .idle
    · next w hwalk => exact .walkCompleted w hwalk
  case quoteExpiry slot =>
    refine whileRunning_does (f := fun s => match lapsedQuote slot s with | none => s | some q => expireQuote slot q s) ?_ h
    split
    · exact .idle
    · next q hlapsed => exact .quoteExpired slot q hlapsed
  case silent slot =>
    refine whileRunning_does (f := fun s => if silenceDue slot s then _ else s) ?_ h
    split
    · exact .silent slot
    · exact .idle
  case secondTick =>
    obtain rfl : _ = t := Host.Outcome.next.inj h
    split
    · next hrunning => exact .act s _ hrunning (.refl s) .secondEnded (.refl _)
    · next hbackup => exact .second hbackup rfl
  case zoneTimeWrap =>
    obtain rfl : _ = t := Host.Outcome.next.inj h
    split
    · split
      · next hrunning => exact .act s _ hrunning (.refl s) .secondEnded (.refl _)
      · next hbackup => exact .second hbackup rfl
    · exact .aside (.refl s)
  case minuteRoll =>
    refine whileRunning_does (f := fun s => if s.calendar.zoneTime % 60 = 0 then _ else s) ?_ h
    split
    · exact .salesSet _
    · exact .idle
  case dayRoll =>
    refine whileRunning_does (f := fun s => if dayRollDue s then _ else s) ?_ h
    split
    · exact .dayRolled
    · exact .idle
  case segmentBoundary slot =>
    refine whileRunning_does (f := fun s => if boundaryDue slot s then _ else s) ?_ h
    split
    · exact .refound slot
    · exact .idle
  case switchTimeArrival slot =>
    refine whileRunning_does (f := fun s => if switchDue slot s then _ else s) ?_ h
    split
    · exact .switched slot
    · exact .idle
  case roundAutoClose =>
    refine whileRunning_does (f := deliverIfDue) ?_ h
    unfold deliverIfDue
    split
    · exact .deadlineMet
    · exact .idle
  case powerFailEntry cellBelow duringStart => exact whileRunning_does (.powerFailed cellBelow duringStart) h
  case cellBelowRetention =>
    obtain rfl : _ = t := Host.Outcome.next.inj h
    split
    · exact .aside ⟨_, _, _, rfl⟩
    · exact .aside (.refl s)
  case powerUp straps =>
    obtain rfl : _ = t := Host.Outcome.next.inj h
    split
    · next hbackup => exact .start straps _ (by rw [hbackup]; nofun) rfl
    · exact .aside (.refl s)
  case resetPin straps duringStart => exact whileRunning_does (f := startBy straps duringStart) (.restarted straps duringStart) h
  case officeFrameStart =>
    exact whileRunning_aside (f := fun s => s.onOffice fun o => { o with reading := true }) (.onOffice s _) h
  case serviceFrameStart => exact whileRunning_aside (serviceReads_aside _ s) h
  case lineFallsQuiet =>
    refine whileRunning_does (f := takeQuiet) ?_ h
    unfold takeQuiet
    split
    · next slot kind hmode => exact .fellQuiet slot kind hmode
    · exact .idle

/-- A law that reads neither the ports, the latch nor the queue of commands, and that every act keeps, is kept by every step. -/
theorem kept_of_acts {law : State → Prop} (haside : ∀ s t, Aside s t → law s → law t)
    (hpending : ∀ s p, law s → law (s.setPending p)) (hact : ∀ s t, s.supply.part = .running → Act s t → law s → law t)
    (hsecond : ∀ s, s.supply.part ≠ .running → law s → law (endSecondInBackup s))
    (hstart : ∀ s straps keep, s.supply.part ≠ .running → law s → law (startBy straps keep s)) : Kept law := by
  intro s t hs hstep
  unfold step at hstep
  split at hstep
  · cases hstep; exact hs
  · next c rest _ =>
    have hs := hpending s rest hs
    cases exec_does hstep with
    | aside h => exact haside _ _ h hs
    | act u v hrunning hu hv ht =>
      have hpart : u.supply.part = .running := by
        obtain ⟨o, w, l, rfl⟩ := hu
        exact hrunning
      exact haside v t ht (hact u v hpart hv (haside _ u hu hs))
    | second hbackup h => exact h ▸ hsecond _ hbackup hs
    | start straps keep hbackup h => exact h ▸ hstart _ straps keep hbackup hs

end Sys2Proof.Machine
end

section
/-!
PROOFS. What most commands leave: the keys of the tables, the plans, the roster, which plan slots are in use, and the queue of commands.
From it follow that every command answers a next state (O2), that the tables stay ordered (O5) and that a plan slot in use stays
READY (O10).
-/

namespace Sys2Proof.Machine

open Sys2Proof

/-- The keys of the tables, the plans, the roster and the queue of commands are the same, and no plan slot has come into use. -/
structure Frames (s t : State) : Prop where
  pending : t.pending = s.pending
  slots : Table.keys t.terminals = Table.keys s.terminals
  plans : t.plans = s.plans
  permits : Table.keys t.permits = Table.keys s.permits
  roster : t.roster = s.roster
  groups : Table.keys t.groups = Table.keys s.groups
  inUse : ∀ plan, InUse plan t → InUse plan s

/-- An entry of the terminals after one of them changes is as it was, or is the one that changed. -/
theorem mem_onTerminal {slot : Nat} {f : Terminal → Terminal} {s : State} {e : Nat × Terminal}
    (h : e ∈ (onTerminal slot f s).terminals) : e ∈ s.terminals ∨ ∃ x, (slot, x) ∈ s.terminals ∧ e = (slot, f x) :=
  Table.mem_of_mem_modify h

namespace Frames

variable {s t u : State}

theorem refl (s : State) : Frames s s := ⟨rfl, rfl, rfl, rfl, rfl, rfl, fun _ => id⟩

theorem trans (h : Frames s t) (h' : Frames t u) : Frames s u :=
  ⟨h'.pending.trans h.pending, h'.slots.trans h.slots, h'.plans.trans h.plans, h'.permits.trans h.permits,
    h'.roster.trans h.roster, h'.groups.trans h.groups, fun p hp => h.inUse p (h'.inUse p hp)⟩

/-- The chain read from its last change. -/
theorem after (h' : Frames t u) (h : Frames s t) : Frames s u := h.trans h'

/-- A change that leaves terminals, plans, permits, roster, groups, engine and queue of commands. -/
theorem of_eq (hp : t.pending = s.pending) (ht : t.terminals = s.terminals) (hl : t.plans = s.plans)
    (hr : t.permits = s.permits) (ho : t.roster = s.roster) (hg : t.groups = s.groups) (he : t.engine = s.engine) :
    Frames s t :=
  ⟨hp, by rw [ht], hl, by rw [hr], ho, by rw [hg], fun p h => by rw [InUse, ht, he] at h; exact h⟩

/-- A terminal that names no plan slot beyond those it named. -/
theorem onTerminal (slot : Nat) (f : Terminal → Terminal) (hf : ∀ x, (f x).plans = x.plans) (s : State) :
    Frames s (onTerminal slot f s) := by
  refine ⟨rfl, keys_onTerminal slot f s, rfl, rfl, rfl, rfl, fun plan => Or.imp_left ?_⟩
  rintro ⟨e, he, hplan⟩
  rcases mem_onTerminal he with he | ⟨x, hx, rfl⟩
  · exact ⟨e, he, hplan⟩
  · rw [hf] at hplan
    exact ⟨_, hx, hplan⟩

theorem mapAll (f : Terminal → Terminal) (hf : ∀ x, (f x).plans = x.plans) (s : State) :
    Frames s (s.onTerminals (Table.mapAll f)) := by
  refine ⟨rfl, Table.keys_mapAll f s.terminals, rfl, rfl, rfl, rfl, fun plan => Or.imp_left ?_⟩
  rintro ⟨e, he, hplan⟩
  obtain ⟨x, hx, rfl⟩ := List.mem_map.mp he
  rw [hf] at hplan
  exact ⟨x, hx, hplan⟩

theorem onLink (slot : Nat) (f : Link → Link) (s : State) : Frames s (onLink slot f s) :=
  onTerminal slot (fun t => { t with link := f t.link }) (fun _ => rfl) s
theorem onWatch (slot : Nat) (f : Watch → Watch) (s : State) : Frames s (onWatch slot f s) :=
  onTerminal slot (fun t => { t with watch := f t.watch }) (fun _ => rfl) s
theorem onQueue (slot : Nat) (f : List Notice → List Notice) (s : State) : Frames s (onQueue slot f s) := onLink _ _ _
theorem onCalendar (f) (s : State) : Frames s (s.onCalendar f) := of_eq rfl rfl rfl rfl rfl rfl rfl
theorem onSales (f) (s : State) : Frames s (s.onSales f) := of_eq rfl rfl rfl rfl rfl rfl rfl
theorem onCash (f) (s : State) : Frames s (s.onCash f) := of_eq rfl rfl rfl rfl rfl rfl rfl
theorem onLine (f) (s : State) : Frames s (s.onLine f) := of_eq rfl rfl rfl rfl rfl rfl rfl
theorem onJournal (f) (s : State) : Frames s (s.onJournal f) := of_eq rfl rfl rfl rfl rfl rfl rfl
theorem onOffice (f) (s : State) : Frames s (s.onOffice f) := of_eq rfl rfl rfl rfl rfl rfl rfl
theorem onAttention (f) (s : State) : Frames s (s.onAttention f) := of_eq rfl rfl rfl rfl rfl rfl rfl
theorem onService (f) (s : State) : Frames s (s.onService f) := of_eq rfl rfl rfl rfl rfl rfl rfl
theorem onSupply (f) (s : State) : Frames s (s.onSupply f) := of_eq rfl rfl rfl rfl rfl rfl rfl
theorem setFreeIndex (n : Nat) (s : State) : Frames s (s.setFreeIndex n) := of_eq rfl rfl rfl rfl rfl rfl rfl
theorem raise (f : Flag) (s : State) : Frames s (raise f s) := onAttention _ _
theorem refresh (s : State) : Frames s (refresh s) := onAttention _ _

theorem append (body : RecordBody) (s : State) : Frames s (append body s) := (onJournal _ s).trans (refresh _)

theorem onPermits (f : Table Permit → Table Permit) (s : State) (hf : Table.keys (f s.permits) = Table.keys s.permits) :
    Frames s (s.onPermits f) := ⟨rfl, rfl, rfl, hf, rfl, rfl, fun _ => id⟩

/-- The engine changes, and a walk in flight names no plan slot that was not in use. -/
theorem onEngine (f : Engine → Engine) (s : State)
    (hf : ∀ w ∈ (f s.engine).walk, ∀ plan, (w.current = some plan ∨ ∃ p ∈ w.pending, p.1 = plan) → InUse plan s) :
    Frames s (s.onEngine f) := by
  refine ⟨rfl, rfl, rfl, rfl, rfl, rfl, fun plan => ?_⟩
  rintro (h | ⟨w, hw, hplan⟩)
  · exact .inl h
  · exact hf w hw plan hplan

/-- The engine changes to one with no walk in flight. -/
theorem noWalk (f : Engine → Engine) (s : State) (hf : (f s.engine).walk = none) : Frames s (s.onEngine f) :=
  onEngine f s fun w hw => by rw [hf] at hw; cases hw

theorem foldl {β : Type} (f : State → β → State) (hf : ∀ s b, Frames s (f s b)) (l : List β) (s : State) :
    Frames s (l.foldl f s) := by
  induction l generalizing s with
  | nil => exact .refl s
  | cons b l ih => exact (hf s b).trans (ih _)

theorem forEach (f : Nat → State → State) (hf : ∀ k s, Frames s (f k s)) (s : State) : Frames s (forEachSlot f s) :=
  foldl _ (fun s k => hf k s) _ s

end Frames

/-- Deriving afresh changes no plan fields. -/
theorem Derives.frames {s t : State} (h : Derives Placed s t) : Frames s t := by
  refine ⟨h.pending, h.keys, h.planStore, by rw [h.permits], h.roster, h.groupKeys, fun plan => ?_⟩
  rintro (⟨e, he, hplan⟩ | hwalk)
  · obtain ⟨x, hx, hplaced⟩ := h.entries Placed.refl (fun _ _ _ => Placed.trans) he
    rw [hplaced.plans] at hplan
    exact .inl ⟨(e.1, x), hx, hplan⟩
  · rw [h.engine] at hwalk
    exact .inr hwalk

theorem Derives.framesN {s t : State} (h : Derives Noted s t) : Frames s t := h.placed.frames

/-! ### The shared operations -/

theorem considerSleep_frames (slot : Nat) (s : State) : Frames s (considerSleep slot s) := (considerSleep_derives slot s).framesN

theorem setQuote_frames (slot : Nat) (q : QuoteSlot) (s : State) : Frames s (setQuote slot q s) :=
  .onTerminal slot (fun t => { t with quote := q }) (fun _ => rfl) s

theorem setClosed_frames (slot : Nat) (c : Option ClosedQuote) (s : State) : Frames s (setClosed slot c s) :=
  .onTerminal slot (fun t => { t with closed := c }) (fun _ => rfl) s

theorem timeForAll_frames (s : State) : Frames s (timeForAll s) := by
  refine .forEach _ (fun k s => ?_) s
  split
  · exact .refl s
  · split
    · exact .onQueue _ _ _
    · split
      · exact .onLink _ _ _
      · exact .refl s

/-- A switch that is taken names as current the plan that was pending. -/
theorem takeSwitch_frames (slot : Nat) (s : State) : Frames s (takeSwitch slot s) := by
  unfold takeSwitch
  split
  · exact .refl s
  · next t hslot =>
    split
    · next plan switch hpending =>
      split
      · refine .after (.raise _ _) ⟨rfl, keys_onTerminal .., rfl, rfl, rfl, rfl, fun p => Or.imp_left ?_⟩
        rintro ⟨e, he, hplan⟩
        rcases mem_onTerminal he with he | ⟨x, hx, rfl⟩
        · exact ⟨e, he, hplan⟩
        · simp only [Option.some.injEq, Option.mem_def, reduceCtorEq, false_and, exists_const, or_false] at hplan
          exact ⟨(slot, t), Table.mem_of_find? hslot, .inr ⟨(plan, switch), hpending, hplan⟩⟩
      · exact .refl s
    · exact .refl s

theorem withdrawEntry_frames (slot : Nat) (s : State) : Frames s (withdrawEntry slot s) :=
  .onEngine _ s fun w hw _ hplan => .inr ⟨w, hw, hplan⟩

theorem markDiscard_frames (slot : Nat) (s : State) : Frames s (markDiscard slot s) := by
  refine .onEngine _ s fun w hw plan hplan => .inr ?_
  obtain ⟨v, hv, rfl⟩ := Option.map_eq_some_iff.mp hw
  refine ⟨v, hv, ?_⟩
  split at hplan <;> exact hplan

/-- A walk that begins names the plan slots of its terminal. -/
theorem beginWalk_frames (s : State) : Frames s (beginWalk s) := by
  unfold beginWalk
  split
  · next e rest _ _ =>
    refine .after (setQuote_frames _ _ _) (.onEngine _ s fun w hw plan hplan => .inl ?_)
    obtain rfl := Option.some.inj hw
    cases hslot : terminal s e.slot with
    | none => simp [hslot] at hplan
    | some t =>
      simp only [hslot, Option.map_some, Option.getD_some] at hplan
      exact ⟨(e.slot, t), Table.mem_of_find? hslot, hplan⟩
  · exact .refl s

theorem releaseQuote_frames (slot : Nat) (q : OpenQuote) (s : State) : Frames s (releaseQuote slot q s) := by
  unfold releaseQuote
  split
  · exact .onPermits _ s (Table.keys_modify ..)
  · exact .refl s

theorem consumeQuoteHold_frames (slot : Nat) (q : OpenQuote) (s : State) : Frames s (consumeQuoteHold slot q s) := by
  unfold consumeQuoteHold
  split
  · exact .onPermits _ s (Table.keys_modify ..)
  · exact .refl s

theorem endQuote_frames (slot : Nat) (s : State) : Frames s (endQuote slot s) := by
  unfold endQuote
  split
  · exact .refl s
  · dsimp only
    refine Frames.trans (.onQueue slot _ s) (?_ : Frames (withdrawResult slot s) _)
    split
    · exact .refl _
    · exact (withdrawEntry_frames _ _).trans ((setQuote_frames _ _ _).trans (considerSleep_frames _ _))
    · exact (markDiscard_frames _ _).trans ((setQuote_frames _ _ _).trans (considerSleep_frames _ _))
    · exact (releaseQuote_frames _ _ _).trans ((setQuote_frames _ _ _).trans (considerSleep_frames _ _))

theorem expireQuote_frames (slot : Nat) (q : OpenQuote) (s : State) : Frames s (expireQuote slot q s) :=
  (releaseQuote_frames _ _ _).trans ((setQuote_frames _ _ _).trans ((setClosed_frames _ _ _).trans
    ((Frames.onQueue _ _ _).trans (considerSleep_frames _ _))))

theorem supersede_frames (slot : Nat) (q : QuoteSlot) (s : State) : Frames s (supersede slot q s) := by
  unfold supersede
  split
  · exact .refl s
  · exact .refl s
  · exact markDiscard_frames _ _
  · exact releaseQuote_frames _ _ _

theorem acceptQuote_frames (slot : Nat) (t : Terminal) (ask : Ask) (permit : Option (Nat × PermitKind))
    (plate : Option Plate) (s : State) : Frames s (acceptQuote slot t ask permit plate s) := by
  unfold acceptQuote
  refine .after (beginWalk_frames _) (.after (.onEngine _ _ fun w hw _ hplan => .inr ⟨w, hw, hplan⟩)
    (.after (.onTerminal _ _ (by intro; rfl) _) ?_))
  exact .after (supersede_frames _ _ _) (.after (.onQueue slot _ _) (.onQueue slot _ s))

theorem takeQuote_frames (slot kind amount permit : Nat) (plate : Plate) (s : State) :
    Frames s (takeQuote slot kind amount permit plate s) := by
  unfold takeQuote
  split
  · exact .refl s
  · split
    · exact .onQueue _ _ _
    · exact acceptQuote_frames _ _ _ _ _ _

theorem refuseResult_frames (slot quoteId firstStep : Nat) (code : Code) (s : State) :
    Frames s (refuseResult slot quoteId firstStep code s) :=
  (setQuote_frames _ _ _).trans ((Frames.onQueue _ _ _).trans (considerSleep_frames _ _))

theorem openQuote_frames (e : QueueEntry) (r : WalkResult) (s : State) : Frames s (openQuote e r s) := by
  unfold openQuote
  dsimp only
  refine .after (.onQueue _ _ _) (.after (setQuote_frames _ _ _) ?_)
  split
  · split
    · exact .onPermits _ s (Table.keys_modify ..)
    · exact .refl s
  · exact .refl s

theorem keepResult_frames (e : QueueEntry) (group : Nat) (r : WalkResult) (s : State) : Frames s (keepResult e group r s) := by
  unfold keepResult
  split
  · exact refuseResult_frames _ _ _ _ _
  · exact refuseResult_frames _ _ _ _ _
  · exact refuseResult_frames _ _ _ _ _
  · split
    · exact openQuote_frames _ _ _
    · split
      · exact refuseResult_frames _ _ _ _ _
      · exact openQuote_frames _ _ _

theorem completeWalk_frames (w : Walk) (s : State) : Frames s (completeWalk w s) := by
  unfold completeWalk
  dsimp only
  refine .after (beginWalk_frames _) (.after (.noWalk _ _ rfl) ?_)
  split
  · exact .refl s
  · split
    · exact .refl s
    · exact keepResult_frames _ _ _ _

theorem silenceSample_frames (slot : Nat) (s : State) : Frames s (silenceSample slot s) :=
  .after (conditionEnds_derives _ _ _).framesN (.onWatch slot _ s)

theorem evaluateBox_frames (slot : Nat) (s : State) : Frames s (evaluateBox slot s) := by
  unfold evaluateBox
  split
  · exact .refl s
  · exact (reportCondition_derives _ _ _ _).framesN

theorem sell_frames (slot : Nat) (t : Terminal) (q : OpenQuote) (coins : Six) (card : Nat) (s : State) :
    Frames s (sell slot t q coins card s) := by
  unfold sell
  dsimp only
  refine .after (considerSleep_frames _ _) (.after (.onQueue _ _ _) (.after (setClosed_frames _ _ _)
    (.after (setQuote_frames _ _ _) (.after (silenceSample_frames _ _) (.after (.onSales _ _)
      (.after (consumeQuoteHold_frames _ _ _) ?_))))))
  have hsold := Frames.after
    (.onTerminal slot (fun t => { t with cash := t.cash.sale coins card }) (fun _ => rfl) _)
    (.after (haltChanged_derives
        (salesHalted (s.onSales fun x => { x with nextTicket := nextTicket x.nextTicket })) _).framesN
      (.after (.append (.sale (saleBody slot s.sales.nextTicket q coins card (tenderValue s coins card))) _)
        (.onSales (fun x => { x with nextTicket := nextTicket x.nextTicket }) s)))
  split
  · exact hsold
  · exact .after (evaluateBox_frames _ _) hsold

theorem confirmClosed_frames (slot quoteId : Nat) (closed : Option ClosedQuote) (s : State) :
    Frames s (confirmClosed slot quoteId closed s) := by
  unfold confirmClosed
  split
  · split <;> exact .onQueue _ _ _
  · exact .onQueue _ _ _
  · exact .onQueue _ _ _

theorem takeConfirm_frames (slot quoteId : Nat) (coins : Six) (card : Nat) (s : State) :
    Frames s (takeConfirm slot quoteId coins card s) := by
  unfold takeConfirm
  split
  · exact .refl s
  · split
    · exact confirmClosed_frames _ _ _ _
    · exact .onQueue _ _ _
    · exact .onQueue _ _ _
    · split
      · exact sell_frames _ _ _ _ _ _
      · exact (expireQuote_frames _ _ _).trans (.onQueue _ _ _)
      · exact .onQueue _ _ _

theorem appendReserved_frames (body : RecordBody) (s : State) : Frames s (appendReserved body s) :=
  (Frames.onJournal _ s).trans (.refresh _)

theorem cutTally_frames (slot key : Nat) (t : Terminal) (r : Round) (s : State) : Frames s (cutTally slot key t r s) := by
  unfold cutTally
  exact .after (.onTerminal slot _ (by intro; rfl) _) (.after (appendReserved_frames _ _) (.onCash _ s))

theorem collectorOpening_frames (slot key : Nat) (s : State) : Frames s (collectorOpening slot key s) := by
  unfold collectorOpening
  split
  · exact .refl s
  · split
    · exact (raiseEventFault_derives _ _ _).framesN
    · split
      · exact (raiseEventFault_derives _ _ _).framesN
      · split
        · exact (raiseEventFault_derives _ _ _).framesN
        · split
          · exact .after (conditionEnds_derives _ _ _).framesN (cutTally_frames _ _ _ _ _)
          · exact .refl s

theorem closeRoundCore_frames (r : Round) (s : State) : Frames s (closeRoundCore r s) :=
  .after (.raise _ _) (.after (.onCalendar _ _) (.after (.onCash _ _) (.after (.refresh _) (.after (.onJournal _ _)
    (appendReserved_frames _ s)))))

theorem closeRound_frames (r : Round) (s : State) : Frames s (closeRound r s) :=
  (closeRoundCore_frames r s).trans (spaceRose_derives _ _ _).framesN

theorem deliverDeadline_frames (s : State) : Frames s (deliverDeadline s) := by
  unfold deliverDeadline
  split
  · exact closeRound_frames _ _
  · exact .onCalendar _ _

theorem openRound_frames (collector key : Nat) (entries : List RoundEntry) (s : State) :
    Frames s (openRound collector key entries s) := by
  unfold openRound recordRound reserve
  exact .after (haltChanged_derives _ _).framesN (.after (.raise _ _) (.after (.onCalendar _ _) (.after (.refresh _)
    (.after (.onJournal _ _) (.onCash _ s)))))

theorem reconcile_frames (c : Collection) (counts : Six) (s : State) : Frames s (reconcile c counts s) := by
  unfold reconcile
  dsimp only
  split
  · exact .after (raiseEventFault_derives _ _ _).framesN
      (.after (.onCash _ _) (.after (haltChanged_derives _ _).framesN (.append _ s)))
  · exact .after (.onCash _ _) (.after (haltChanged_derives _ _).framesN (.append _ s))

theorem removeRecords_frames (n : Nat) (s : State) : Frames s (removeRecords n s) :=
  .after (spaceRose_derives _ _ _).framesN (.onJournal _ s)

theorem leaveTo_frames (slot : Nat) (new : LinkState) (s : State) : Frames s (leaveTo slot new s) :=
  .after (deriveService_derives _ _).framesN (.after (endQuote_frames _ _) (.onLink slot _ s))

theorem barSlot_frames (slot : Nat) (s : State) : Frames s (barSlot slot s) :=
  .after (conditionRises_derives _ _ _).framesN (leaveTo_frames _ _ _)

theorem endBar_frames (slot : Nat) (s : State) : Frames s (endBar slot s) :=
  .after (conditionEnds_derives _ _ _).framesN (leaveTo_frames _ _ _)

theorem grantSlot_frames (slot : Nat) (form : OfferForm) (s : State) : Frames s (grantSlot slot form s) :=
  .after (deriveService_derives _ _).framesN (.after (conditionEnds_derives _ _ _).framesN (.after (.onWatch slot _ _)
    (.after (endQuote_frames _ _) (.onLink slot _ s))))

theorem acceptSlot_frames (slot : Nat) (owed : Bool) (s : State) : Frames s (acceptSlot slot owed s) := by
  have hserved : Frames s (deriveService slot s) := (deriveService_derives _ _).framesN
  unfold acceptSlot
  dsimp only
  refine .after (considerSleep_frames _ _) ?_
  split
  · exact .after (.onQueue slot _ _) hserved
  · exact hserved

theorem fallAsleep_frames (slot : Nat) (s : State) : Frames s (fallAsleep slot s) :=
  .after (deriveService_derives _ _).framesN (.onLink slot _ s)

theorem wakeSlot_frames (slot : Nat) (s : State) : Frames s (wakeSlot slot s) :=
  .after (deriveService_derives _ _).framesN (.after (considerSleep_frames _ _) (.onLink slot _ s))

theorem takeReport_frames (slot : Nat) (k : ReportKind) (report : Bool) (s : State) : Frames s (takeReport slot k report s) := by
  unfold takeReport
  split
  · exact .refl s
  · split
    · exact .after (reportCondition_derives _ _ _ _).framesN (.onWatch slot _ s)
    · exact .refl s

theorem takeReports_frames (slot : Nat) (r : Reports) (s : State) : Frames s (takeReports slot r s) := by
  unfold takeReports
  exact .after (.onWatch slot _ _) (.after (takeReport_frames _ _ _ _) (.after (takeReport_frames _ _ _ _)
    (.after (takeReport_frames _ _ _ _) (takeReport_frames _ _ _ _))))

theorem filterPower_frames (slot : Nat) (c : PowerClass) (s : State) : Frames s (filterPower slot c s) := by
  unfold filterPower
  split
  · exact .refl s
  · dsimp only
    split
    · exact .after (reportCondition_derives _ _ _ _).framesN (.after (.onWatch slot _ _) (.onWatch slot _ s))
    · exact .onWatch slot _ s

theorem criticalRun_frames (slot : Nat) (c : PowerClass) (s : State) : Frames s (criticalRun slot c s) := by
  unfold criticalRun
  split
  · exact .refl s
  · split
    · exact .after (conditionRises_derives _ _ _).framesN (.onWatch slot _ s)
    · split
      · split
        · exact .after (conditionEnds_derives _ _ _).framesN (.onWatch slot _ s)
        · exact .onWatch slot _ s
      · exact .refl s

theorem openDoor_frames (slot : Nat) (key : DoorKey) (s : State) : Frames s (openDoor slot key s) := by
  have hended : Frames s (endQuote slot (withdrawSleep slot (onWatch slot (fun w => { w with door := .opened key }) s))) :=
    .after (endQuote_frames slot _) (.after (.onQueue slot _ _) (.onWatch slot _ s))
  unfold openDoor
  dsimp only
  refine .after (deriveService_derives slot _).framesN ?_
  split
  · exact .after (collectorOpening_frames _ _ _) hended
  · exact .after (conditionRises_derives _ _ _).framesN hended
  · exact hended

theorem closeDoor_frames (slot : Nat) (s : State) : Frames s (closeDoor slot s) :=
  .after (considerSleep_frames _ _) (.after (deriveService_derives _ _).framesN
    (.after (conditionEnds_derives _ _ _).framesN (.onWatch slot _ s)))

theorem takeDoor_frames (slot : Nat) (d : Door) (s : State) : Frames s (takeDoor slot d s) := by
  unfold takeDoor
  split
  · exact .refl s
  · split
    · exact openDoor_frames _ _ _
    · exact closeDoor_frames _ _
    · exact .refl s

theorem takeStatus_frames (slot : Nat) (w : StatusWord) (s : State) : Frames s (takeStatus slot w s) :=
  (takeReports_frames _ _ _).trans ((filterPower_frames _ _ _).trans ((criticalRun_frames _ _ _).trans
    (takeDoor_frames _ _ _)))

/-! ### The line -/

theorem setLine_frames (mode : LineMode) (frames : List KerbFrame) (s : State) : Frames s (setLine mode frames s) :=
  .onLine _ _

theorem sendCall_frames (slot : Nat) (kind : CallKind) (s : State) : Frames s (sendCall slot kind s) := by
  unfold sendCall
  split
  · exact .refl s
  · exact (setLine_frames _ _ _).trans (.onQueue _ _ _)

theorem seekPhase_frames (s : State) : Frames s (seekPhase s) := by
  unfold seekPhase
  split <;> exact setLine_frames _ _ _

theorem slowPhase_frames (after : Nat) (s : State) : Frames s (slowPhase after s) := by
  unfold slowPhase
  split
  · split
    · exact sendCall_frames _ _ _
    · exact seekPhase_frames _
  · exact seekPhase_frames _

theorem normalPhase_frames (after : Nat) (s : State) : Frames s (normalPhase after s) := by
  unfold normalPhase
  split
  · exact sendCall_frames _ _ _
  · exact slowPhase_frames _ _

theorem afterWindow_frames (slot : Nat) (kind : CallKind) (s : State) : Frames s (afterWindow slot kind s) := by
  unfold afterWindow
  split
  · exact (Frames.onLine _ _).trans (normalPhase_frames _ _)
  · exact (Frames.onLine _ _).trans (slowPhase_frames _ _)

theorem windowOver_frames (slot : Nat) (kind : CallKind) (s : State) : Frames s (windowOver slot kind s) :=
  (afterWindow_frames _ _ _).trans (.onLine _ _)

theorem startCycle_frames (n : Nat) (s : State) : Frames s (startCycle n s) :=
  (Frames.onLine _ _).trans ((Frames.onLine _ _).trans (normalPhase_frames _ _))

theorem missSlot_frames (slot : Nat) (calledAs : LinkState) (s : State) : Frames s (missSlot slot calledAs s) := by
  unfold missSlot
  split
  · exact .refl s
  · split
    · dsimp only
      split
      · exact .after (leaveTo_frames _ _ _) (.onLink slot _ s)
      · split
        · exact .after (leaveTo_frames _ _ _) (.onLink slot _ s)
        · exact .onLink slot _ s
    · exact .refl s

theorem answerLink_frames (slot : Nat) (t : Terminal) (rode : Option NoticeBody) (asleep : Bool) (w : StatusWord)
    (request : AnswerRequest) (s : State) : Frames s (answerLink slot t rode asleep w request s) := by
  unfold answerLink
  split
  · split
    · exact .onLink slot _ s
    · exact leaveTo_frames _ _ _
  · split
    · exact leaveTo_frames _ _ _
    · split
      · exact fallAsleep_frames _ _
      · exact .refl s
  · split
    · exact leaveTo_frames _ _ _
    · split
      · exact wakeSlot_frames _ _
      · exact .refl s
  · exact .refl s

theorem handRequest_frames (slot : Nat) (request : AnswerRequest) (s : State) : Frames s (handRequest slot request s) := by
  unfold handRequest
  split
  · exact takeQuote_frames _ _ _ _ _ _
  · exact takeConfirm_frames _ _ _ _ _
  · exact endQuote_frames _ _
  · exact .refl s

theorem validAnswer_frames (slot : Nat) (t : Terminal) (rode : Option NoticeBody) (asleep : Bool) (w : StatusWord)
    (request : AnswerRequest) (s : State) : Frames s (validAnswer slot t rode asleep w request s) := by
  have hstatus : Frames s (takeStatus slot w (answerLink slot t rode asleep w request
      (onLink slot (fun l => { l with queue := removeRidden l.queue, misses := 0 }) s))) :=
    .after (takeStatus_frames _ _ _) (.after (answerLink_frames _ _ _ _ _ _ _) (.onLink slot _ s))
  have settles (u : State) : Frames u (if enrols t request then acceptSlot slot t.link.timeOwed u else u) := by
    split
    · exact acceptSlot_frames _ _ _
    · exact .refl u
  unfold validAnswer
  dsimp only
  split
  · exact .after (settles _) hstatus
  · exact .after (handRequest_frames _ _ _) (.after (settles _) hstatus)

theorem windowAnswer_frames (slot : Nat) (calledAs : LinkState) (rode : Option NoticeBody) (head : AnswerHead)
    (request : AnswerRequest) (s : State) : Frames s (windowAnswer slot calledAs rode head request s) := by
  unfold windowAnswer
  split
  · exact missSlot_frames _ _ _
  · split
    · exact missSlot_frames _ _ _
    · split
      · exact .refl s
      · split
        · exact validAnswer_frames _ _ _ _ _ _ _
        · exact .refl s

theorem takeBack_frames (s : State) : Frames s (takeBack s) := by
  unfold takeBack
  split
  · exact .onQueue _ _ _
  · exact .refl s

theorem takeOffer_frames (identity : Nat) (form : OfferForm) (s : State) : Frames s (takeOffer identity form s) := by
  unfold takeOffer
  split
  · split
    · exact .refl s
    · split
      · exact (Frames.onLine _ _).trans (.raise _ _)
      · exact .onLine _ _
  · exact .refl s

theorem sendGrant_frames (e : EarnedOffer) (s : State) : Frames s (sendGrant e s) := by
  unfold sendGrant
  split
  · exact .refl s
  · split
    · exact .refl s
    · exact (Frames.onLine _ _).trans (grantSlot_frames _ _ _)

theorem endReplyWindow_frames (n : Nat) (offered : List Nat) (earned : List EarnedOffer) (s : State) :
    Frames s (endReplyWindow n offered earned s) := by
  have hclear : Frames s (clearOut s) := .onLine _ s
  unfold endReplyWindow
  dsimp only
  split
  · exact .after (setLine_frames _ _ _) hclear
  · exact .after (setLine_frames _ _ _) (.after (Frames.foldl _ (fun s e => sendGrant_frames e s) _ _) hclear)

/-! ### The calendar and the starts -/

theorem dayRoll_frames (s : State) : Frames s (dayRoll s) :=
  (Frames.onCalendar _ s).trans ((Frames.onPermits _ _ (Table.keys_mapAll ..)).trans (timeForAll_frames _))

theorem deliverIfDue_frames (s : State) : Frames s (deliverIfDue s) := by
  unfold deliverIfDue
  split
  · exact deliverDeadline_frames s
  · exact .refl s

theorem rollAfterSet_frames (s : State) : Frames s (rollAfterSet s) := by
  unfold rollAfterSet
  split
  · exact .onCalendar _ _
  · split
    · exact dayRoll_frames s
    · exact .refl s

theorem setClock_frames (time : Nat) (offset : Int) (s : State) : Frames s (setClock time offset s) :=
  .after (deliverIfDue_frames _) (.after (.onSales _ _) (.after (timeForAll_frames _)
    (.after (deriveAll_derives _).framesN (.after (refindAll_derives _).frames (.after (rollAfterSet_frames _)
      (.after (.forEach _ takeSwitch_frames _) (.onCalendar _ s)))))))

theorem wrapZoneTime_frames (s : State) : Frames s (wrapZoneTime s) := by
  have hderived : Frames s (deriveAll (refindAll (Machine.refresh
      (s.onCalendar fun c => { c with zoneTime := 0, clockSet := false, lastRolled := none })))) :=
    .after (deriveAll_derives _).framesN (.after (refindAll_derives _).frames (.after (.refresh _) (.onCalendar _ s)))
  unfold wrapZoneTime
  dsimp only
  refine .after (.onSales _ _) ?_
  split
  · exact .after (deliverDeadline_frames _) hderived
  · exact hderived

theorem countSilence_plans (t : Terminal) : (countSilence t).plans = t.plans := by
  unfold countSilence
  split <;> rfl

theorem endSecond_frames (s : State) : Frames s (endSecond s) := by
  have hcounted : Frames s
      ((s.onTerminals (Table.mapAll countSilence)).onCalendar fun c => { c with uptime := c.uptime + 1 }) :=
    .after (.onCalendar _ _) (.mapAll countSilence countSilence_plans s)
  unfold endSecond advanceZoneTime
  split
  · exact .after (wrapZoneTime_frames _) hcounted
  · exact .after (.onCalendar _ _) hcounted

theorem endSecondInBackup_frames (s : State) : Frames s (endSecondInBackup s) := by
  unfold endSecondInBackup
  split
  · exact .after (.onSales _ _) (.after (.mapAll _ (by intro; rfl) _) (.onCalendar _ s))
  · exact .onCalendar _ _

theorem holidaysDuringWalk_frames (days : List Nat) (s : State) : Frames s (holidaysDuringWalk days s) := by
  unfold holidaysDuringWalk
  split
  · exact .refl s
  · next w hwalk =>
    dsimp only
    refine .after (.setFreeIndex _ _) (.onEngine _ s ?_)
    rintro v hv plan hplan
    obtain rfl := Option.some.inj hv
    exact .inr ⟨w, hwalk, hplan⟩

theorem putHolidays_frames (days : List Nat) (s : State) : Frames s (putHolidays days s) :=
  .after (refindAll_derives _).frames (.after (holidaysDuringWalk_frames days _) (.onCalendar _ s))

theorem startValues_frames (straps : Straps) (s : State) : Frames s (startValues straps s) := by
  unfold startValues releaseAllHolds
  exact .after (.onSupply _ _) (.after (.onService _ _) (.after (.onOffice _ _) (.after (.noWalk _ _ rfl)
    (.after (.onCalendar _ _) (.after (.onPermits _ _ (Table.keys_mapAll ..)) (.mapAll Terminal.restarted (fun _ => rfl) s))))))

theorem closeAtStart_frames (s : State) : Frames s (closeAtStart s) := by
  unfold closeAtStart
  split
  · exact .onCalendar _ _
  · dsimp only
    split
    · exact .after (appendOwed_derives (R := Noted) _).framesN (closeRoundCore_frames _ _)
    · exact closeRoundCore_frames _ _

theorem catchUp_frames (s : State) : Frames s (catchUp s) := by
  have hdue (p : Prop) [Decidable p] (u : State) (hu : Frames s u) : Frames s (if p then closeAtStart u else u) := by
    split
    · exact .after (closeAtStart_frames u) hu
    · exact hu
  have hswitched : Frames s (forEachSlot takeSwitch s) := .forEach _ takeSwitch_frames s
  unfold catchUp
  refine .after (.onSales _ _) (.after (.mapAll _ (by intro; rfl) _) ?_)
  split
  · refine hdue _ _ ?_
    split
    · exact .after (dayRoll_frames _) hswitched
    · exact hswitched
  · exact hdue _ _ (.refl s)

theorem warmStart_frames (straps : Straps) (keep : Bool) (s : State) : Frames s (warmStart straps keep s) := by
  unfold warmStart
  exact .after (.onLine _ _) (.after (startFaults_derives _).framesN (.after (catchUp_frames _) (.after (.onAttention _ _)
    (startValues_frames straps s))))

theorem enterBackup_frames (cellBelow duringStart : Bool) (s : State) : Frames s (enterBackup cellBelow duringStart s) := by
  unfold enterBackup
  exact .after (.onSupply _ _) (.after (.noWalk _ _ rfl) (.after (.onService _ _) (.after (.onOffice _ _) (.onLine _ s))))

theorem newIdentity_frames (slot : Nat) (s : State) : Frames s (newIdentity slot s) :=
  .after (deriveService_derives _ _).framesN (.onLink slot _ s)

theorem updateSlot_frames (slot : Nat) (c : TerminalConfig) (t : Terminal) (s : State) : Frames s (updateSlot slot c t s) := by
  have if_frames (p : Prop) [Decidable p] (u v : State) (hu : Frames s u) (hv : Frames u v) : Frames s (if p then u else v) := by
    split
    · exact hu
    · exact .after hv hu
  unfold updateSlot
  dsimp only
  refine if_frames _ _ _ (if_frames _ _ _ (if_frames _ _ _ ?_ (newIdentity_frames slot _)) ?_) (evaluateBox_frames slot _)
  · exact .onTerminal slot (fun t => { t with config := c }) (fun _ => rfl) s
  · exact .after (cover_derives _ _).framesN (cover_derives _ _).framesN

theorem Aside.frames {s t : State} (h : Aside s t) : Frames s t := by
  obtain ⟨_, _, _, rfl⟩ := h
  exact .of_eq rfl rfl rfl rfl rfl rfl rfl

/-! ### The acts -/

/-- What an act that frames nothing changes beside what most acts leave: one entry of the plan store, the register, the roster or the
terminal table, the plan fields of an assignment, or everything at a cold start. -/
inductive Reframes (s : State) : State → Prop
  | planPut (plan : Nat) (p : PlanSlot) : planInUse plan s = false → Reframes s (s.onPlans (Table.put plan p))
  | planCleared (plan : Nat) : planInUse plan s = false → Reframes s (s.onPlans (Table.erase plan))
  | planAssigned (plan : Nat) (switch : Option Nat) (slots : List Nat) :
      assignRefusal plan switch slots s = none →
      Reframes s (slots.foldl (assignSlot plan (assignsPending switch s) switch) s)
  | permitPut (number : Nat) (p : Permit) : Reframes s (s.onPermits (Table.put number p))
  | permitRevoked (number : Nat) : Reframes s (s.onPermits (Table.erase number))
  | slotConfigured (slot : Nat) (c : TerminalConfig) : Reframes s (configureSlot slot c s)
  | slotRemoved (slot : Nat) (t : Terminal) : Reframes s (removeSlot slot t s)
  | rosterPut (identity : Nat) (e : RosterEntry) : Reframes s (s.onRoster (Table.put identity e))
  | rosterErased (identity : Nat) : Reframes s (s.onRoster (Table.erase identity))
  | cold (straps : Straps) (keep : Bool) : Reframes s (coldStart straps keep s)

theorem startBy_frames (straps : Straps) (keep : Bool) (s : State) :
    Frames s (startBy straps keep s) ∨ Reframes s (startBy straps keep s) := by
  unfold startBy
  split
  · exact .inr (.cold straps keep)
  · exact .inl (warmStart_frames straps keep s)

/-- Every act leaves what most acts leave, but for those that `Reframes` lists. -/
theorem Act.frames {s t : State} (h : Act s t) : Frames s t ∨ Reframes s t := by
  cases h with
  | planPut plan p hfree => exact .inr (.planPut plan p hfree)
  | planCleared plan hfree => exact .inr (.planCleared plan hfree)
  | planAssigned plan switch slots hchecked => exact .inr (.planAssigned plan switch slots hchecked)
  | permitPut number p => exact .inr (.permitPut number _)
  | permitRevoked number => exact .inr (.permitRevoked number)
  | slotConfigured slot c => exact .inr (.slotConfigured slot c)
  | slotRemoved slot t => exact .inr (.slotRemoved slot t)
  | rosterPut identity e => exact .inr (.rosterPut identity e)
  | rosterErased identity => exact .inr (.rosterErased identity)
  | restarted straps keep => exact startBy_frames straps keep s
  | idle => exact .inl (.refl s)
  | clockSet time offset => exact .inl (setClock_frames time offset s)
  | holidaysPut days => exact .inl (putHolidays_frames days s)
  | salesSet f => exact .inl (.onSales f s)
  | slotUpdated slot c x => exact .inl (updateSlot_frames slot c x s)
  | cashSet d tolerance => exact .inl (.onCash _ s)
  | counted c counts => exact .inl (reconcile_frames c counts s)
  | roundOpened collector key => exact .inl (openRound_frames collector key _ s)
  | roundClosed r => exact .inl (closeRound_frames r s)
  | faultAcked slot k st =>
    exact .inl (.after (deriveService_derives _ _).framesN (setFault_derives slot k st s).framesN)
  | recordsAcked n => exact .inl (removeRecords_frames n s)
  | attentionSet f => exact .inl (.onAttention f s)
  | resetQueued slot x => exact .inl (.onQueue slot _ s)
  | barEnded slot x => exact .inl (endBar_frames slot s)
  | slotLeft slot x => exact .inl (leaveTo_frames slot _ s)
  | officeRestarted => exact .inl (warmStart_frames _ _ s)
  | cycleStarted number => exact .inl (startCycle_frames number s)
  | answered slot kind calledAs rode head request =>
    exact .inl (.after (windowOver_frames _ _ _) (windowAnswer_frames _ _ _ _ _ s))
  | missed slot kind calledAs rode => exact .inl (.after (windowOver_frames _ _ _) (missSlot_frames _ _ s))
  | jabbered slot kind calledAs rode =>
    exact .inl (.after (setLine_frames _ _ _) (.after (barSlot_frames _ _) (.onLine _ s)))
  | jabberedLate slot kind =>
    exact .inl (.after (setLine_frames _ _ _) (.after (barSlot_frames _ _) (.after (.onLine _ _) (takeBack_frames s))))
  | fellQuiet slot kind => exact .inl (afterWindow_frames _ _ s)
  | offered identity form => exact .inl (takeOffer_frames identity form s)
  | replyEnded number taken offered earned => exact .inl (endReplyWindow_frames number offered earned s)
  | linkLost slot => exact .inl (.after (conditionRises_derives _ _ _).framesN (.onLink slot _ s))
  | walkCompleted w => exact .inl (completeWalk_frames w s)
  | quoteExpired slot q => exact .inl (expireQuote_frames slot q s)
  | silent slot => exact .inl (conditionRises_derives _ _ _).framesN
  | secondEnded => exact .inl (endSecond_frames s)
  | dayRolled => exact .inl (dayRoll_frames s)
  | refound slot => exact .inl (refind_derives slot s).frames
  | switched slot => exact .inl (.after (refind_derives slot _).frames (takeSwitch_frames slot s))
  | deadlineMet => exact .inl (deliverDeadline_frames s)
  | powerFailed cellBelow duringStart => exact .inl (enterBackup_frames cellBelow duringStart s)

/-- What a step leaves, or how it reframes, with the ports' and the queue's own changes before and after. -/
theorem kept_of_frames {law : State → Prop} (hframes : ∀ s t, law s → Frames s t → law t)
    (hreframes : ∀ s t, law s → Reframes s t → law t) (hpending : ∀ s p, law s → law (s.setPending p)) : Kept law := by
  refine kept_of_acts (fun s t h hs => hframes s t hs h.frames) hpending (fun s t _ h hs => ?_)
    (fun s _ hs => hframes s _ hs (endSecondInBackup_frames s)) (fun s straps keep _ hs => ?_)
  · exact h.frames.elim (hframes s t hs) (hreframes s t hs)
  · exact (startBy_frames straps keep s).elim (hframes s _ hs) (hreframes s _ hs)

/-! ### Every command answers -/

theorem whileRunning_eq (f : State → State) (s : State) :
    whileRunning f s = .next (if s.supply.part = .running then f s else s) := by
  unfold whileRunning
  split <;> rfl

/-- No command stops the part. -/
theorem exec_next (c : Instr) (s : State) : ∃ t, exec c s = .next t := by
  cases c
  case clockSet src time offset => cases src <;> exact ⟨_, whileRunning_eq _ s⟩
  case faultAck src slot fault => cases src <;> exact ⟨_, whileRunning_eq _ s⟩
  case secondTick => exact ⟨_, rfl⟩
  case zoneTimeWrap => exact ⟨_, rfl⟩
  case cellBelowRetention => exact ⟨_, rfl⟩
  case powerUp => exact ⟨_, rfl⟩
  case officeBusy => simp only [exec, execOfficeBusy, whileRunning_eq, Host.Outcome.next.injEq, exists_eq']
  case officeResponseSent => simp only [exec, execOfficeResponseSent, whileRunning_eq, Host.Outcome.next.injEq, exists_eq']
  case serviceBusy => simp only [exec, execServiceBusy, whileRunning_eq, Host.Outcome.next.injEq, exists_eq']
  case serviceResponseSent =>
    simp only [exec, execServiceResponseSent, whileRunning_eq, Host.Outcome.next.injEq, exists_eq']
  case walkCompletion => simp only [exec, execWalkCompletion, whileRunning_eq, Host.Outcome.next.injEq, exists_eq']
  case quoteExpiry => simp only [exec, execQuoteExpiry, whileRunning_eq, Host.Outcome.next.injEq, exists_eq']
  case officeFrameStart => simp only [exec, execOfficeFrameStart, whileRunning_eq, Host.Outcome.next.injEq, exists_eq']
  all_goals exact ⟨_, whileRunning_eq _ s⟩

theorem assignSlot_pending (plan : Nat) (pending : Bool) (switch : Option Nat) (s : State) (slot : Nat) :
    (assignSlot plan pending switch s slot).pending = s.pending := (refind_derives slot _).pending

theorem Reframes.pending {s t : State} (h : Reframes s t) : t.pending = s.pending := by
  cases h with
  | planAssigned plan switch slots =>
    exact List.foldlRecOn (motive := fun u => u.pending = s.pending) slots _ rfl fun u hu slot _ =>
      (assignSlot_pending _ _ _ u slot).trans hu
  | slotConfigured slot c => exact (cover_derives c.group _).pending
  | slotRemoved slot x => exact (cover_derives x.config.group _).pending
  | planPut _ _ _ => rfl
  | planCleared _ _ => rfl
  | permitPut _ _ => rfl
  | permitRevoked _ => rfl
  | rosterPut _ _ => rfl
  | rosterErased _ => rfl
  | cold _ _ => rfl

theorem exec_pending {c : Instr} {s t : State} (h : exec c s = .next t) : t.pending = s.pending := by
  cases exec_does h with
  | aside h => exact h.frames.pending
  | act u v _ hu hv ht =>
    have hact : v.pending = u.pending := hv.frames.elim Frames.pending Reframes.pending
    rw [ht.frames.pending, hact, hu.frames.pending]
  | second _ h => exact h ▸ (endSecondInBackup_frames s).pending
  | start straps keep _ h => exact h ▸ (startBy_frames straps keep s).elim Frames.pending Reframes.pending

/-- Settles O2: no command stops the part, and no act touches the queue of commands. -/
theorem everyCommandAnswers : Obligations.EveryCommandAnswers := by
  intro c s
  obtain ⟨t, h⟩ := exec_next c s
  exact ⟨t, h, exec_pending h⟩

/-! ### The tables stay ordered -/

theorem TablesOrdered.of_frames {s t : State} (hs : TablesOrdered s) (h : Frames s t) : TablesOrdered t := by
  obtain ⟨h1, h2, h3, h4, h5⟩ := hs
  exact ⟨Table.wf_congr h.slots ▸ h1, h.plans ▸ h2, Table.wf_congr h.permits ▸ h3, h.roster ▸ h4, h.groups.trans h5⟩

theorem assignSlot_slots (plan : Nat) (pending : Bool) (switch : Option Nat) (s : State) (slot : Nat) :
    TablesOrdered s → TablesOrdered (assignSlot plan pending switch s slot) := by
  rintro ⟨h1, hrest⟩
  have hfields : TablesOrdered
      (onTerminal slot (fun t => { t with plans := assignFields plan pending switch t.plans }) s) :=
    ⟨(Table.wf_congr (keys_onTerminal ..)).trans h1, hrest⟩
  exact hfields.of_frames (refind_derives slot _).frames

theorem TablesOrdered.of_reframes {s t : State} (hs : TablesOrdered s) (h : Reframes s t) : TablesOrdered t := by
  obtain ⟨h1, h2, h3, h4, h5⟩ := hs
  cases h with
  | planPut plan p => exact ⟨h1, Table.wf_put _ _ _ h2, h3, h4, h5⟩
  | planCleared plan => exact ⟨h1, Table.wf_erase _ _ h2, h3, h4, h5⟩
  | planAssigned plan switch slots =>
    exact List.foldlRecOn (motive := TablesOrdered) slots _ ⟨h1, h2, h3, h4, h5⟩ fun u hu slot _ =>
      assignSlot_slots _ _ _ u slot hu
  | permitPut number p => exact ⟨h1, h2, Table.wf_put _ _ _ h3, h4, h5⟩
  | permitRevoked number => exact ⟨h1, h2, Table.wf_erase _ _ h3, h4, h5⟩
  | slotConfigured slot c =>
    have hput : TablesOrdered (s.onTerminals (Table.put slot (newTerminal c s.calendar.zoneTime s.calendar.uptime))) :=
      ⟨Table.wf_put _ _ _ h1, h2, h3, h4, h5⟩
    exact hput.of_frames (cover_derives _ _).framesN
  | slotRemoved slot x =>
    have herased : TablesOrdered (s.onTerminals (Table.erase slot)) := ⟨Table.wf_erase _ _ h1, h2, h3, h4, h5⟩
    exact herased.of_frames (cover_derives _ _).framesN
  | rosterPut identity e => exact ⟨h1, h2, h3, Table.wf_put _ _ _ h4, h5⟩
  | rosterErased identity => exact ⟨h1, h2, h3, Table.wf_erase _ _ h4, h5⟩
  | cold straps keep => exact ⟨rfl, rfl, rfl, rfl, rfl⟩

/-- Settles O5: most acts keep the keys, and the others put or erase an entry at its place. -/
theorem tablesStayOrdered : Obligations.TablesStayOrdered :=
  kept_of_frames (fun _ _ => .of_frames) (fun _ _ => .of_reframes) fun _ _ => id

/-! ### A plan slot in use stays READY -/

theorem planInUse_iff (plan : Nat) (s : State) : planInUse plan s = true ↔ InUse plan s := by
  have hnames (current : Option Nat) (pending : Option (Nat × Nat)) :
      namesPlan plan current pending = true ↔ (current = some plan ∨ ∃ p ∈ pending, p.1 = plan) := by
    cases pending <;> simp [namesPlan]
  unfold planInUse InUse
  rw [Bool.or_eq_true, List.any_eq_true]
  refine or_congr (exists_congr fun e => and_congr_right' (hnames _ _)) ?_
  cases s.engine.walk with
  | none => simp
  | some w => simpa using hnames w.current w.pending

theorem PlansReady.of_frames {s t : State} (hs : PlansReady s) (h : Frames s t) : PlansReady t := fun plan hplan =>
  h.plans ▸ hs plan (h.inUse plan hplan)

/-- A change of one plan slot that is not in use leaves those in use as they were. -/
theorem PlansReady.onPlans {s : State} (hs : PlansReady s) {plan : Nat} (hfree : planInUse plan s = false)
    (f : Table PlanSlot → Table PlanSlot) (hf : ∀ p, p ≠ plan → Table.find? p (f s.plans) = Table.find? p s.plans) :
    PlansReady (s.onPlans f) := by
  intro p hp
  have hne : p ≠ plan := by
    rintro rfl
    rw [(planInUse_iff p s).mpr hp] at hfree
    cases hfree
  have hready := hs p hp
  rw [readyPlan] at hready ⊢
  rwa [State.onPlans_plans, hf p hne]

/-- An assignment names a READY plan, or leaves what was named. -/
theorem PlansReady.assignSlot {s : State} (hs : PlansReady s) {plan : Nat} (hplan : (readyPlan s.plans plan).isSome = true)
    (pending : Bool) (switch : Option Nat) (slot : Nat) : PlansReady (assignSlot plan pending switch s slot) := by
  refine PlansReady.of_frames ?_ (refind_derives slot _).frames
  rintro p (⟨e, he, hnamed⟩ | hwalk)
  · rcases mem_onTerminal he with he | ⟨x, hx, rfl⟩
    · exact hs p (.inl ⟨e, he, hnamed⟩)
    · unfold assignFields at hnamed
      split at hnamed
      · rcases hnamed with hcurrent | ⟨q, hq, rfl⟩
        · exact hs p (.inl ⟨(slot, x), hx, .inl hcurrent⟩)
        · obtain ⟨_, _, rfl⟩ := Option.map_eq_some_iff.mp hq
          exact hplan
      · rcases hnamed with hcurrent | ⟨q, hq, rfl⟩
        · exact Option.some.inj hcurrent ▸ hplan
        · cases hq
  · exact hs p (.inr hwalk)

theorem assignRefusal_ready {plan : Nat} {switch : Option Nat} {slots : List Nat} {s : State}
    (h : assignRefusal plan switch slots s = none) : (readyPlan s.plans plan).isSome = true := by
  unfold assignRefusal at h
  split at h
  · cases h
  · split at h
    · cases h
    · next hready => simpa [Option.isSome_iff_ne_none] using hready

theorem assignSlot_plans (plan : Nat) (pending : Bool) (switch : Option Nat) (s : State) (slot : Nat) :
    (assignSlot plan pending switch s slot).plans = s.plans := (refind_derives slot _).planStore

theorem PlansReady.of_reframes {s t : State} (hs : PlansReady s) (h : Reframes s t) : PlansReady t := by
  cases h with
  | planPut plan p hfree => exact hs.onPlans hfree _ fun q hq => Table.find?_put_ne hq.symm _ _
  | planCleared plan hfree => exact hs.onPlans hfree _ fun q hq => Table.find?_erase_ne hq.symm _
  | planAssigned plan switch slots hchecked =>
    have hready := assignRefusal_ready hchecked
    have hall : PlansReady _ ∧ State.plans _ = s.plans :=
      List.foldlRecOn (motive := fun u => PlansReady u ∧ u.plans = s.plans) slots _ ⟨hs, rfl⟩ fun u hu slot _ =>
        ⟨hu.1.assignSlot (hu.2 ▸ hready) (assignsPending switch s) switch slot,
          (assignSlot_plans plan (assignsPending switch s) switch u slot).trans hu.2⟩
    exact hall.1
  | permitPut number p => exact hs
  | permitRevoked number => exact hs
  | slotConfigured slot c =>
    refine PlansReady.of_frames ?_ (cover_derives c.group _).framesN
    rintro p (⟨e, he, hnamed⟩ | hwalk)
    · rcases Table.mem_of_mem_put he with rfl | he
      · rcases hnamed with hnamed | ⟨_, hnamed, _⟩ <;> cases hnamed
      · exact hs p (.inl ⟨e, he, hnamed⟩)
    · exact hs p (.inr hwalk)
  | slotRemoved slot x =>
    refine PlansReady.of_frames ?_ (cover_derives x.config.group _).framesN
    rintro p (⟨e, he, hnamed⟩ | hwalk)
    · exact hs p (.inl ⟨e, (List.mem_filter.mp he).1, hnamed⟩)
    · exact hs p (.inr hwalk)
  | rosterPut identity e => exact hs
  | rosterErased identity => exact hs
  | cold straps keep => rintro p (⟨e, he, -⟩ | ⟨w, hw, -⟩) <;> cases (by assumption : _ ∈ _)

/-- Settles O10: an assignment checks that its plan is READY, a plan slot changes only where it is not in use, and no other act brings
one into use. -/
theorem plansInUseStayReady : Obligations.PlansInUseStayReady :=
  kept_of_frames (fun _ _ => .of_frames) (fun _ _ => .of_reframes) fun _ _ => id

end Sys2Proof.Machine
end

section
/-!
PROOFS. What a slot keeps of its link fields and its notice queue (R137 to R153), slot by slot: a queue is judged by how many notices of each
sort it holds, and each change of a queue says how these numbers move.
-/

namespace Sys2Proof.Machine

open Sys2Proof

/-! ### The sorts of notices -/

/-- The six sorts of notices that a queue tells apart (R150). -/
inductive NoticeSort where
  | result | service | time | sleep | wake | reset
  deriving DecidableEq

/-- The sort of a notice. -/
def NoticeBody.sort : NoticeBody → NoticeSort
  | .quoteResult _ => .result
  | .saleResult _ => .result
  | .service _ => .service
  | .time _ _ _ => .time
  | .sleep => .sleep
  | .wake => .wake
  | .reset => .reset

/-- The predicate of a sort. -/
def NoticeSort.is (c : NoticeSort) (b : NoticeBody) : Bool := b.sort = c

theorem isResult_eq : NoticeBody.isResult = NoticeSort.is .result := by funext b; cases b <;> rfl
theorem isService_eq : NoticeBody.isService = NoticeSort.is .service := by funext b; cases b <;> rfl
theorem isTime_eq : NoticeBody.isTime = NoticeSort.is .time := by funext b; cases b <;> rfl
theorem isSleep_eq : NoticeBody.isSleep = NoticeSort.is .sleep := by funext b; cases b <;> rfl
theorem isWake_eq : NoticeBody.isWake = NoticeSort.is .wake := by funext b; cases b <;> rfl
theorem isReset_eq : NoticeBody.isReset = NoticeSort.is .reset := by funext b; cases b <;> rfl

/-- How many notices of a sort a queue holds. -/
def tally (c : NoticeSort) (q : List Notice) : Nat := count c.is q

theorem tally_nil (c : NoticeSort) : tally c [] = 0 := rfl

theorem tally_cons (c : NoticeSort) (n : Notice) (q : List Notice) :
    tally c (n :: q) = (if n.body.sort = c then 1 else 0) + tally c q := by
  unfold tally count
  rw [List.filter_cons]
  by_cases h : n.body.sort = c <;> simp [NoticeSort.is, h, Nat.add_comm]

theorem tally_append (c : NoticeSort) (p q : List Notice) : tally c (p ++ q) = tally c p + tally c q := by
  simp [tally, count, List.filter_append]

/-- Every notice is of one sort. -/
theorem length_eq_tallies (q : List Notice) :
    q.length = tally .result q + tally .service q + tally .time q + tally .sleep q + tally .wake q + tally .reset q := by
  induction q with
  | nil => rfl
  | cons n q ih =>
    simp only [tally_cons, List.length_cons, ih]
    cases n.body.sort <;> simp <;> omega

theorem tally_eq_zero {c : NoticeSort} {q : List Notice} : tally c q = 0 ↔ ∀ n ∈ q, n.body.sort ≠ c := by
  simp [tally, count, List.length_eq_zero_iff, List.filter_eq_nil_iff, NoticeSort.is]

theorem tally_ne_zero_of_mem {c : NoticeSort} {q : List Notice} {n : Notice} (hn : n ∈ q) (hc : n.body.sort = c) :
    tally c q ≠ 0 := fun h => tally_eq_zero.mp h n hn hc

theorem holds_iff (c : NoticeSort) (q : List Notice) : holds c.is q = true ↔ tally c q ≠ 0 := by
  rw [Ne, tally_eq_zero]
  simp [holds, NoticeSort.is]

theorem tally_filter_le (c : NoticeSort) (p : Notice → Bool) (q : List Notice) : tally c (q.filter p) ≤ tally c q := by
  unfold tally count
  rw [List.filter_filter, ← List.countP_eq_length_filter, ← List.countP_eq_length_filter]
  exact List.countP_mono_left fun n _ h => (Bool.and_eq_true _ _).mp h |>.1

/-- The sorts of a queue decide its numbers. -/
theorem tally_congr {p q : List Notice} (h : p.map (·.body.sort) = q.map (·.body.sort)) (c : NoticeSort) : tally c p = tally c q := by
  have key (r : List Notice) : tally c r = (r.map (·.body.sort)).countP (· = c) := by
    rw [List.countP_map, tally, count, ← List.countP_eq_length_filter]
    rfl
  rw [key, key, h]

/-! ### A sound queue -/

/-- The numbers of a sound queue (R150, R151): RESET alone, and otherwise at most one of a sort, SLEEP and WAKE counted together. -/
structure Numbers (q : List Notice) : Prop where
  result : tally .result q ≤ 1
  service : tally .service q ≤ 1
  time : tally .time q ≤ 1
  reset : tally .reset q ≤ 1
  rest : tally .sleep q + tally .wake q ≤ 1
  alone : tally .reset q ≠ 0 → q.length = 1

theorem queueSound_iff (l : Link) (quote : QuoteSlot) :
    QueueSound l quote ↔ Numbers l.queue ∧ (l.queue ≠ [] → l.state = .active ∨ l.state = .sleeping)
      ∧ (tally .sleep l.queue ≠ 0 → l.state = .active ∧ quote = .none) ∧ (tally .wake l.queue ≠ 0 → l.state = .sleeping) := by
  simp only [QueueSound, isResult_eq, isService_eq, isTime_eq, isSleep_eq, isWake_eq, isReset_eq]
  constructor
  · rintro ⟨_, h1, h2, h3, h4, h5, h6, hrest⟩
    exact ⟨⟨h1, h2, h3, h4, h5, h6⟩, hrest⟩
  · rintro ⟨⟨h1, h2, h3, h4, h5, h6⟩, hrest⟩
    refine ⟨?_, h1, h2, h3, h4, h5, h6, hrest⟩
    by_cases h : tally .reset l.queue = 0
    · have := length_eq_tallies l.queue
      omega
    · rw [h6 h]
      decide

/-- A queue that holds no more of any sort, and no more at all, keeps its numbers. -/
theorem Numbers.of_le {p q : List Notice} (h : Numbers q) (hle : ∀ c, tally c p ≤ tally c q) : Numbers p := by
  have hresult := hle .result
  have hservice := hle .service
  have htime := hle .time
  have hreset := hle .reset
  have hsleep := hle .sleep
  have hwake := hle .wake
  obtain ⟨h1, h2, h3, h4, h5, h6⟩ := h
  refine ⟨by omega, by omega, by omega, by omega, by omega, fun hne => ?_⟩
  have hq := h6 (by omega)
  have hlp := length_eq_tallies p
  have hlq := length_eq_tallies q
  omega

theorem Numbers.nil : Numbers [] :=
  ⟨Nat.zero_le _, Nat.zero_le _, Nat.zero_le _, Nat.zero_le _, Nat.zero_le _, fun h => absurd rfl h⟩

/-! ### A sound slot -/

/-- A slot's link fields and notice queue are as R137 to R151 keep them, and a quote is in progress in an ACTIVE slot alone (R65). -/
abbrev SlotSound (x : Terminal) : Prop :=
  LinkSound x.link ∧ QueueSound x.link x.quote ∧ (x.quote ≠ .none → x.link.state = .active)

/-- Another queue for a sound slot. -/
theorem SlotSound.withQueue {x : Terminal} (h : SlotSound x) {q : List Notice} (hn : Numbers q)
    (henrolled : q ≠ [] → x.link.state = .active ∨ x.link.state = .sleeping)
    (hsleep : tally .sleep q ≠ 0 → x.link.state = .active ∧ x.quote = .none) (hwake : tally .wake q ≠ 0 → x.link.state = .sleeping) :
    SlotSound { x with link := { x.link with queue := q } } := by
  obtain ⟨hlink, -, hquote⟩ := h
  exact ⟨hlink, (queueSound_iff _ _).mpr ⟨hn, henrolled, hsleep, hwake⟩, hquote⟩

/-- A queue that holds no more of any sort. -/
theorem SlotSound.fewer {x : Terminal} (h : SlotSound x) {q : List Notice} (hle : ∀ c, tally c q ≤ tally c x.link.queue) :
    SlotSound { x with link := { x.link with queue := q } } := by
  obtain ⟨hn, henrolled, hsleep, hwake⟩ := (queueSound_iff _ _).mp h.2.1
  refine h.withQueue (hn.of_le hle) (fun hne => henrolled fun hnil => hne ?_) (fun hne => hsleep ?_) (fun hne => hwake ?_)
  · have hlength := length_eq_tallies q
    rw [hnil] at hle
    have h1 := hle .result
    have h2 := hle .service
    have h3 := hle .time
    have h4 := hle .sleep
    have h5 := hle .wake
    have h6 := hle .reset
    simp only [tally_nil] at h1 h2 h3 h4 h5 h6
    exact List.eq_nil_of_length_eq_zero (by omega)
  · have := hle .sleep
    omega
  · have := hle .wake
    omega

theorem SlotSound.filtered {x : Terminal} (h : SlotSound x) (p : Notice → Bool) :
    SlotSound { x with link := { x.link with queue := x.link.queue.filter p } } := h.fewer fun c => tally_filter_le c p _

theorem SlotSound.withdrawn {x : Terminal} (h : SlotSound x) (sort : NoticeBody → Bool) :
    SlotSound { x with link := { x.link with queue := withdraw sort x.link.queue } } := h.filtered _

theorem tally_withdraw (c : NoticeSort) (q : List Notice) : tally c (withdraw c.is q) = 0 := by
  rw [tally_eq_zero]
  intro n hn
  have := (List.mem_filter.mp hn).2
  simpa [NoticeSort.is] using this

theorem SlotSound.unmarked {x : Terminal} (h : SlotSound x) :
    SlotSound { x with link := { x.link with queue := unmark x.link.queue } } := by
  refine h.fewer fun c => (tally_congr ?_ c).le
  simp [unmark, Function.comp_def]

theorem SlotSound.marked {x : Terminal} (h : SlotSound x) :
    SlotSound { x with link := { x.link with queue := markHead x.link.queue } } := by
  refine h.fewer fun c => (tally_congr ?_ c).le
  cases x.link.queue <;> rfl

/-- RESET keeps others out of a queue. -/
theorem joinQueue_of_reset {sort : NoticeBody → Bool} {body : NoticeBody} {q : List Notice} (h : tally .reset q ≠ 0) :
    joinQueue sort body q = q := by
  rw [joinQueue, isReset_eq, if_pos ((holds_iff _ _).mpr h)]

/-- What joining does to the numbers of a queue that holds no RESET: one of the joining sort, and as many of any other. -/
theorem tally_joinQueue {c : NoticeSort} {body : NoticeBody} (hbody : body.sort = c) {q : List Notice} (hreset : tally .reset q = 0)
    (hone : tally c q ≤ 1) (d : NoticeSort) : tally d (joinQueue c.is body q) = if d = c then 1 else tally d q := by
  have hnot : ¬holds NoticeBody.isReset q = true := by
    rw [isReset_eq, holds_iff]
    exact not_not.mpr hreset
  rw [joinQueue, if_neg hnot]
  split
  · next hc =>
    have hmap : (q.map fun n => if c.is n.body then ({ body := body, rode := false } : Notice) else n).map (·.body.sort)
        = q.map (·.body.sort) := by
      rw [List.map_map]
      refine List.map_congr_left fun n _ => ?_
      by_cases h : n.body.sort = c <;> simp [NoticeSort.is, h, hbody]
    rw [tally_congr hmap]
    split
    · next hd =>
      have := (holds_iff c q).mp hc
      subst hd
      omega
    · rfl
  · next hc =>
    have hzero : tally c q = 0 := not_not.mp (mt (holds_iff c q).mpr hc)
    rw [tally_append, tally_cons, tally_nil, hbody]
    split
    · next hd =>
      subst hd
      simp [hzero]
    · next hd => simp [Ne.symm hd]

theorem numbers_one {q : List Notice} (h : Numbers q) (c : NoticeSort) : tally c q ≤ 1 := by
  obtain ⟨h1, h2, h3, h4, h5, -⟩ := h
  cases c <;> omega

/-- A result, a SERVICE or a TIME joins the queue of an ACTIVE or SLEEPING slot. -/
theorem SlotSound.joined {x : Terminal} (h : SlotSound x) (henrolled : x.link.state = .active ∨ x.link.state = .sleeping)
    {c : NoticeSort} {body : NoticeBody} (hbody : body.sort = c) (hc : c = .result ∨ c = .service ∨ c = .time) :
    SlotSound { x with link := { x.link with queue := joinQueue c.is body x.link.queue } } := by
  obtain ⟨hn, -, hsleep, hwake⟩ := (queueSound_iff _ _).mp h.2.1
  by_cases hreset : tally .reset x.link.queue = 0
  · have htally := tally_joinQueue hbody hreset (numbers_one hn c)
    obtain ⟨h1, h2, h3, h4, h5, -⟩ := hn
    refine h.withQueue ⟨?_, ?_, ?_, ?_, ?_, fun hne => absurd hreset ?_⟩ (fun _ => henrolled) ?_ ?_
    all_goals rcases hc with rfl | rfl | rfl <;> simp [htally] at * <;> assumption
  · rw [joinQueue_of_reset hreset]
    exact h

/-- SLEEP joins the queue of an ACTIVE slot with no quote where neither SLEEP nor RESET waits. -/
theorem SlotSound.slept {x : Terminal} (h : SlotSound x) (hactive : x.link.state = .active) (hquote : x.quote = .none)
    (hqueue : ∀ n ∈ x.link.queue, n.body ≠ .sleep ∧ n.body ≠ .reset) :
    SlotSound { x with link := { x.link with queue := x.link.queue ++ [{ body := .sleep, rode := false }] } } := by
  obtain ⟨⟨h1, h2, h3, h4, h5, h6⟩, -, -, hwake⟩ := (queueSound_iff _ _).mp h.2.1
  have hnoSleep : tally .sleep x.link.queue = 0 := by
    rw [tally_eq_zero]
    intro n hn
    have := (hqueue n hn).1
    cases hb : n.body <;> simp_all [NoticeBody.sort]
  have hnoReset : tally .reset x.link.queue = 0 := by
    rw [tally_eq_zero]
    intro n hn
    have := (hqueue n hn).2
    cases hb : n.body <;> simp_all [NoticeBody.sort]
  have hnoWake : tally .wake x.link.queue = 0 := by
    by_contra hne
    rw [hwake hne] at hactive
    cases hactive
  have htally (c : NoticeSort) : tally c (x.link.queue ++ [{ body := .sleep, rode := false }])
      = tally c x.link.queue + if NoticeSort.sleep = c then 1 else 0 := by
    rw [tally_append, tally_cons, tally_nil]
    rfl
  refine h.withQueue ⟨?_, ?_, ?_, ?_, ?_, fun hne => absurd ?_ hne⟩ (fun _ => .inl hactive) (fun _ => ⟨hactive, hquote⟩)
    (fun hne => absurd ?_ hne)
  all_goals simp [htally] <;> omega

theorem SlotSound.considered {x : Terminal} (h : SlotSound x) (now : Nat) : SlotSound (x.considered now) := by
  unfold Terminal.considered
  split
  · next hdue =>
    obtain ⟨hactive, -, -, hquote, -, hqueue⟩ := hdue
    exact h.slept hactive hquote hqueue
  · exact h

/-- WAKE joins the queue of a SLEEPING slot. -/
theorem SlotSound.woken {x : Terminal} (h : SlotSound x) (hsleeping : x.link.state = .sleeping) :
    SlotSound { x with link := { x.link with queue := joinWake x.link.queue } } := by
  obtain ⟨⟨h1, h2, h3, h4, h5, h6⟩, -, hsleep, -⟩ := (queueSound_iff _ _).mp h.2.1
  unfold joinWake
  split
  · exact h
  · next hnot =>
    rw [isReset_eq, isWake_eq, Bool.or_eq_true, not_or, holds_iff, holds_iff, not_not, not_not] at hnot
    obtain ⟨hnoReset, hnoWake⟩ := hnot
    have hnoSleep : tally .sleep x.link.queue = 0 := by
      by_contra hne
      rw [(hsleep hne).1] at hsleeping
      cases hsleeping
    have htally (c : NoticeSort) : tally c ({ body := .wake, rode := false } :: x.link.queue)
        = (if NoticeSort.wake = c then 1 else 0) + tally c x.link.queue := tally_cons _ _ _
    refine h.withQueue ⟨?_, ?_, ?_, ?_, ?_, fun hne => absurd ?_ hne⟩ (fun _ => .inr hsleeping) (fun hne => absurd ?_ hne)
      (fun _ => hsleeping)
    all_goals simp [htally] <;> omega

/-- What a segment boundary does to a queue. -/
theorem SlotSound.boundary {x : Terminal} (h : SlotSound x) (now : Nat) (segment : Option Segment) :
    SlotSound { x with link := { x.link with queue := boundaryQueue now x.link.state segment x.link.queue } } := by
  have hwoken : SlotSound
      { x with
        link :=
          { x.link with
            queue :=
              if segment.map (·.kind) = some SegKind.charged then
                (if x.link.state = .sleeping then joinWake x.link.queue else x.link.queue)
              else withdraw NoticeBody.isWake x.link.queue } } := by
    split
    · split
      · next hsleeping => exact h.woken hsleeping
      · exact h
    · exact h.withdrawn _
  unfold boundaryQueue
  dsimp only
  generalize (if segment.map (·.kind) = some SegKind.charged then
    (if x.link.state = .sleeping then joinWake x.link.queue else x.link.queue)
      else withdraw NoticeBody.isWake x.link.queue) = q at hwoken ⊢
  split
  · exact hwoken
  · exact hwoken.withdrawn NoticeBody.isSleep

/-- RESET alone in the queue of an ACTIVE or SLEEPING slot. -/
theorem SlotSound.reset {x : Terminal} (h : SlotSound x) (henrolled : x.link.state = .active ∨ x.link.state = .sleeping) :
    SlotSound { x with link := { x.link with queue := resetQueue x.link.queue } } := by
  unfold resetQueue
  split
  · exact h
  · have htally (c : NoticeSort) : tally c [{ body := .reset, rode := false }] = if NoticeSort.reset = c then 1 else 0 :=
      tally_cons _ _ _
    refine h.withQueue ⟨?_, ?_, ?_, ?_, ?_, fun _ => rfl⟩ (fun _ => henrolled) (fun hne => absurd ?_ hne) (fun hne => absurd ?_ hne)
    all_goals simp [htally]

/-- Deriving a service state afresh leaves a sound slot sound. -/
theorem SlotSound.served {x y : Terminal} (h : SlotSound x) (hs : Served x y) : SlotSound y := by
  have hlink : { y.link with queue := [] } = { x.link with queue := [] } := by
    have := congrArg (fun t : Terminal => { t.link with queue := [] }) hs.rest
    exact this
  have hquote : y.quote = x.quote := by
    have := congrArg (fun t : Terminal => t.quote) hs.rest
    exact this
  have hstate : y.link.state = x.link.state := by
    have := congrArg (fun l : Link => l.state) hlink
    exact this
  have hothers (c : NoticeSort) (hc : c ≠ .service) : tally c y.link.queue = tally c x.link.queue := by
    have split (q : List Notice) : tally c q = tally c (q.filter fun n => !n.body.isService) := by
      unfold tally count
      rw [List.filter_filter]
      congr 1
      refine List.filter_congr fun n _ => ?_
      by_cases h : n.body.sort = c <;> simp [NoticeSort.is, isService_eq, h, hc]
    rw [split, hs.queue, ← split]
  obtain ⟨hlinkSound, hqueue, hactive⟩ := h
  obtain ⟨hn, henrolled, hsleep, hwake⟩ := (queueSound_iff _ _).mp hqueue
  have hservice (q : List Notice) : tally .service q = (services q).length := by rw [tally, ← isService_eq]
  have hlinkY : LinkSound y.link := by
    have hx : LinkSound { x.link with queue := [] } := hlinkSound
    rw [← hlink] at hx
    exact hx
  have htold : tally .service y.link.queue = tally .service x.link.queue
      ∨ (x.link.state = .active ∨ x.link.state = .sleeping) ∧ tally .reset x.link.queue = 0
        ∧ tally .service y.link.queue ≤ 1 := by
    rcases hs.notice with ⟨hq, -⟩ | ⟨he, hr, hq⟩
    · exact .inl (by rw [hservice, hq, ← hservice])
    · refine .inr ⟨?_, ?_, ?_⟩
      · cases hst : x.link.state <;> rw [hst] at he <;> simp_all [LinkState.enrolled]
      · rw [tally_eq_zero]
        intro n hn
        have := List.any_eq_false.mp hr n hn
        cases hb : n.body <;> simp_all [NoticeBody.sort]
      · rw [hservice, hq]
        have hone := hn.service
        rw [hservice] at hone
        by_cases hnil : services x.link.queue = []
        · rw [hnil]
          exact le_rfl
        · rw [notified_all (fun n hn => (List.mem_filter.mp hn).2) hnil, List.length_map]
          exact hone
  refine ⟨hlinkY, (queueSound_iff _ _).mpr ⟨⟨?_, ?_, ?_, ?_, ?_, fun hne => ?_⟩, fun hne => ?_, ?_, ?_⟩, ?_⟩
  · rw [hothers _ (by decide)]; exact hn.result
  · rcases htold with h | ⟨-, -, h⟩
    · rw [h]; exact hn.service
    · exact h
  · rw [hothers _ (by decide)]; exact hn.time
  · rw [hothers _ (by decide)]; exact hn.reset
  · rw [hothers _ (by decide), hothers _ (by decide)]; exact hn.rest
  · rw [hothers _ (by decide)] at hne
    rcases htold with h | ⟨-, h, -⟩
    · rw [← hn.alone hne, length_eq_tallies, length_eq_tallies x.link.queue, h, hothers .result (by decide),
        hothers .time (by decide), hothers .sleep (by decide), hothers .wake (by decide), hothers .reset (by decide)]
    · exact absurd h hne
  · rw [hstate]
    rcases htold with h | ⟨h, -, -⟩
    · refine henrolled fun hnil => hne (List.eq_nil_of_length_eq_zero ?_)
      rw [length_eq_tallies, h, hothers .result (by decide), hothers .time (by decide), hothers .sleep (by decide),
        hothers .wake (by decide), hothers .reset (by decide), ← length_eq_tallies, hnil]
      rfl
    · exact h
  · rw [hothers _ (by decide), hstate, hquote]; exact hsleep
  · rw [hothers _ (by decide), hstate]; exact hwake
  · rw [hquote, hstate]; exact hactive

end Sys2Proof.Machine
end

section
/-!
PROOFS. The step (log entry 1), and the two UART ports (R161, R162, R169, R170, R174): which command is a request of which port, what a
port that is free, occupied or deaf makes of it, and the events of the receivers.
-/

namespace Sys2Proof.Machine

open Sys2Proof

/-! ### The step -/

/-- Settles O1: `step` is this case distinction. -/
theorem stepTakesFront : Obligations.StepTakesFront := by
  constructor
  · intro s c rest hpending
    rw [step, hpending]
    rfl
  · intro s hpending
    rw [step, hpending]

/-! ### Requests of either port -/

/-- A command that an office frame carries is a request of the office port. -/
theorem exec_of_officeRequestBytes {c : Instr} {kind tag : Nat} {body : List Byte}
    (h : officeRequestBytes c = some (kind, tag, body)) : ∃ act, ∀ s, exec c s = officeRequest kind tag act s := by
  cases c
  case clockSet src time offset =>
    cases src <;> cases h
    exact ⟨_, fun _ => rfl⟩
  case faultAck src slot fault =>
    cases src <;> cases h
    exact ⟨_, fun _ => rfl⟩
  all_goals
    cases h
    try exact ⟨_, fun _ => rfl⟩

/-- A command that a service frame carries is a request of the service link, which the roles of its kind may ask. -/
theorem exec_of_serviceRequestBytes {c : Instr} {kind tag identity : Nat} {body : List Byte}
    (h : serviceRequestBytes c = some (kind, tag, identity, body)) :
    ∃ act, ∀ s, exec c s = serviceRequest identity kind tag (roleMayAsk kind) act s := by
  cases c
  case clockSet src time offset =>
    cases src <;> cases h
    exact ⟨_, fun _ => rfl⟩
  case faultAck src slot fault =>
    cases src <;> cases h
    exact ⟨_, fun _ => rfl⟩
  all_goals
    cases h
    try exact ⟨_, fun _ => rfl⟩

/-- The kinds that a role may ask. -/
theorem roleMayAsk_iff (kind : Nat) (role : Role) : roleMayAsk kind role = true ↔ kind ∈ roleKinds role := by
  cases role <;> simp [roleMayAsk, roleKinds, or_assoc]

/-- The kinds of the service link are those that some role may ask. -/
theorem isServiceKind_iff (kind : Nat) : isServiceKind kind = true ↔ ∃ role : Role, kind ∈ roleKinds role := by
  simp only [isServiceKind, Bool.or_eq_true, roleMayAsk_iff]
  constructor
  · rintro ((h | h) | h)
    exacts [⟨_, h⟩, ⟨_, h⟩, ⟨_, h⟩]
  · rintro ⟨_ | _ | _, h⟩
    exacts [.inl (.inl h), .inl (.inr h), .inr h]

/-! ### An occupied port -/

/-- A whole frame that arrives at the occupied office port waits for its BUSY answer, or is discarded as an overrun (R162). -/
theorem officeArrival_busy {kind tag : Nat} {act : State → State × Response} {s : State} {r : OfficeReply}
    (hcurrent : s.office.current = some r) :
    officeArrival kind tag act s
      = if s.office.busy.length < 4 then
          { s with office := { s.office with reading := false, busy := s.office.busy ++ [(kind, tag)] } }
        else { s with office := { s.office with reading := false, overruns := min 255 (s.office.overruns + 1) } } := by
  simp only [officeArrival, State.onOffice, hcurrent]
  rfl

/-- A whole frame that arrives at the occupied service link waits for its BUSY answer, or is discarded (R170). -/
theorem serviceArrival_busy {identity kind tag : Nat} {act : State → State × Response} {s : State} {r : ServiceReply}
    (hlink : linkEnabled s = true) (hcurrent : s.service.current = some r) :
    serviceArrival identity kind tag act s
      = if s.service.busy.length < 4 then
          { s with service := { s.service with reading := false, busy := s.service.busy ++ [(identity, kind, tag)] } }
        else { s with service := { s.service with reading := false } } := by
  simp only [serviceArrival, hlink, if_true, State.onService, hcurrent]
  rfl

/-- Settles O20: every office frame goes through `officeArrival`. -/
theorem officeRequestsMeetBusy : Obligations.OfficeRequestsMeetBusy := by
  intro s r hrunning hcurrent
  have harrival {kind tag : Nat} {act : State → State × Response} :
      whileRunning (officeArrival kind tag act) s = .next _ :=
    (whileRunning_running hrunning).trans (congrArg _ (officeArrival_busy hcurrent))
  refine ⟨fun c kind tag body hbytes => ?_, fun kind tag => ⟨?_, harrival⟩⟩
  · obtain ⟨act, harm⟩ := exec_of_officeRequestBytes hbytes
    rw [harm]
    exact harrival
  · have harm : exec (.officeBusy kind tag) s
        = whileRunning (fun s =>
            if s.office.current.isNone then s else officeArrival kind tag (answering fun _ => refusal .busy) s) s := rfl
    rw [harm, whileRunning_running hrunning, if_neg (by simp [hcurrent]), officeArrival_busy hcurrent]

/-- Settles O21: every service frame goes through `serviceArrival`. -/
theorem serviceRequestsMeetBusy : Obligations.ServiceRequestsMeetBusy := by
  intro s r hrunning hlink hcurrent
  have harrival {identity kind tag : Nat} {act : State → State × Response} :
      whileRunning (serviceArrival identity kind tag act) s = .next _ :=
    (whileRunning_running hrunning).trans (congrArg _ (serviceArrival_busy hlink hcurrent))
  refine ⟨fun c kind tag identity body hbytes => ?_, fun identity kind tag => ⟨?_, harrival⟩⟩
  · obtain ⟨act, harm⟩ := exec_of_serviceRequestBytes hbytes
    rw [harm]
    exact harrival
  · have harm : exec (.serviceBusy identity kind tag) s
        = whileRunning (fun s =>
            if s.service.current.isNone then s
            else serviceArrival (identity.getD 0) kind tag (answering fun _ => refusal .busy) s) s := rfl
    rw [harm, whileRunning_running hrunning, if_neg (by simp [hcurrent]), serviceArrival_busy hlink hcurrent]

/-! ### Deaf ports -/

/-- With the SVC strap low a frame of the service link is ignored (R169). -/
theorem serviceArrival_disabled {identity kind tag : Nat} {act : State → State × Response} {s : State}
    (hlink : s.supply.straps.svc = false) : serviceArrival identity kind tag act s = s := by
  have hdisabled : linkEnabled s = false := hlink
  simp [serviceArrival, hdisabled]

/-- A command whose effect leaves a state as it is gives that state, whether the part runs or not. -/
theorem whileRunning_idle {f : State → State} {s : State} (h : f s = s) : whileRunning f s = .next s := by
  unfold whileRunning
  split
  · rw [h]
  · rfl

theorem serviceReads_disabled {reading : Bool} {s : State} (hlink : s.supply.straps.svc = false) : serviceReads reading s = s := by
  have hdisabled : linkEnabled s = false := hlink
  simp [serviceReads, hdisabled]

/-- In BACKUP a command other than the end of a second, the cell and a power-up is lost (R177; log entry 3). -/
theorem exec_backup {c : Instr} {s : State} (hbackup : s.supply.part = .backup) (htick : c ≠ .secondTick)
    (hwrap : c ≠ .zoneTimeWrap) (hcell : c ≠ .cellBelowRetention) (hpower : ∀ straps : Straps, c ≠ .powerUp straps) :
    exec c s = .next s := by
  cases c
  case secondTick => exact absurd rfl htick
  case zoneTimeWrap => exact absurd rfl hwrap
  case cellBelowRetention => exact absurd rfl hcell
  case powerUp straps => exact absurd rfl (hpower straps)
  case clockSet src time offset => cases src <;> exact whileRunning_backup hbackup
  case faultAck src slot fault => cases src <;> exact whileRunning_backup hbackup
  case officeBusy => rw [exec, execOfficeBusy, whileRunning_backup hbackup]
  case officeResponseSent => rw [exec, execOfficeResponseSent, whileRunning_backup hbackup]
  case serviceBusy => rw [exec, execServiceBusy, whileRunning_backup hbackup]
  case serviceResponseSent => rw [exec, execServiceResponseSent, whileRunning_backup hbackup]
  case walkCompletion => rw [exec, execWalkCompletion, whileRunning_backup hbackup]
  case quoteExpiry => rw [exec, execQuoteExpiry, whileRunning_backup hbackup]
  case officeFrameStart => rw [exec, execOfficeFrameStart, whileRunning_backup hbackup]
  all_goals exact whileRunning_backup hbackup

/-- Settles O22. -/
theorem deafPorts : Obligations.DeafPorts := by
  refine ⟨fun c s hbackup htick hwrap hcell hpower => exec_backup hbackup htick hwrap hcell hpower, fun s hlink => ?_⟩
  have hframe {identity kind tag : Nat} {act : State → State × Response} :
      whileRunning (serviceArrival identity kind tag act) s = .next s := whileRunning_idle (serviceArrival_disabled hlink)
  have hreads (reading : Bool) : whileRunning (serviceReads reading) s = .next s :=
    whileRunning_idle (serviceReads_disabled hlink)
  refine ⟨fun c kind tag identity body hbytes => ?_, fun identity kind tag => ⟨hframe, ?_⟩,
    hreads true, hreads false, hreads false⟩
  · obtain ⟨act, harm⟩ := exec_of_serviceRequestBytes hbytes
    rw [harm]
    exact hframe
  · rw [exec, execServiceBusy]
    refine whileRunning_idle ?_
    split
    · rfl
    · exact serviceArrival_disabled hlink

/-! ### The sender's checks -/

/-- A service request that the free link takes is answered by the sender's checks (R170, R174). -/
theorem serviceRequest_free {identity kind tag : Nat} {allowed : Role → Bool} {act : RosterEntry → State → State × Response}
    {s : State} (hrunning : s.supply.part = .running) (hlink : s.supply.straps.svc = true) (hcurrent : s.service.current = none) :
    serviceRequest identity kind tag allowed act s
      = .next
          (withServiceReply identity kind tag (withSender identity allowed act (serviceHunting s)).2
            (withSender identity allowed act (serviceHunting s)).1) := by
  rw [serviceRequest, whileRunning_running hrunning, serviceArrival_taken hlink hcurrent]

/-- A response set on the hunting service link is what the rules call an answered service request. -/
theorem withServiceReply_hunting (identity kind tag : Nat) (r : Response) (s : State) :
    withServiceReply identity kind tag r (serviceHunting s) = serviceAnswered identity kind tag r s := rfl

/-- Settles O23: `withSender` makes both checks before the owner acts. -/
theorem serviceRequestsCheckSender : Obligations.ServiceRequestsCheckSender := by
  intro c kind tag identity body s hbytes hrunning hlink hcurrent
  obtain ⟨act, harm⟩ := exec_of_serviceRequestBytes hbytes
  have hroster : (serviceHunting s).roster = s.roster := rfl
  rw [harm, serviceRequest_free hrunning hlink hcurrent]
  constructor
  · intro habsent
    rw [withSender, hroster, habsent]
    rfl
  · intro e hheld hrole
    rw [← roleMayAsk_iff, Bool.not_eq_true] at hrole
    simp only [withSender, hroster, hheld, hrole, Bool.false_eq_true, if_false, withServiceReply_hunting]

/-! ### Receivers, frames that carry no request, and the end of a response -/

/-- The end of a response other than that of a RESTART taken ends the request in progress (R162, R180). -/
theorem responseSent_ends {r : OfficeReply} {s : State} (h : r.kind ≠ 0x1C ∨ r.response.code ≠ .ok) :
    responseSent r s = { s with office := { s.office with current := none } } := by
  rw [responseSent, if_neg (by tauto)]
  rfl

theorem exec_officeResponseSent (s : State) :
    exec .officeResponseSent s
      = whileRunning (fun s =>
          match s.office.current with
          | none => s.onOffice fun o => { o with busy := o.busy.tail }
          | some r => responseSent r s) s := rfl

theorem exec_serviceResponseSent (s : State) :
    exec .serviceResponseSent s
      = whileRunning (fun s =>
          if s.service.current.isNone then s.onService fun p => { p with busy := p.busy.tail }
          else s.onService fun p => { p with current := none }) s := rfl

/-- The receiver of the enabled service link reads or hunts (R169). -/
theorem serviceReads_enabled {reading : Bool} {s : State} (hlink : s.supply.straps.svc = true) :
    serviceReads reading s = { s with service := { s.service with reading := reading } } := by
  have henabled : linkEnabled s = true := hlink
  rw [serviceReads, if_pos henabled]
  rfl

/-- A bad frame that the free and enabled service link takes has its answer in progress (R170, R174). -/
theorem exec_serviceBadRequest {identity : Option Nat} {kind tag : Nat} {s : State} (hrunning : s.supply.part = .running)
    (hlink : s.supply.straps.svc = true) (hcurrent : s.service.current = none) :
    exec (.serviceBadRequest identity kind tag) s
      = .next (serviceAnswered (identity.getD 0) kind tag (badServiceAnswer identity kind s) s) := by
  have harm : exec (.serviceBadRequest identity kind tag) s
      = whileRunning (serviceArrival (identity.getD 0) kind tag (answering (badServiceAnswer identity kind))) s := rfl
  rw [harm, whileRunning_running hrunning, serviceArrival_taken hlink hcurrent]
  rfl

/-- A bad frame of a sender that is not of the roster (R174). -/
theorem badServiceAnswer_stranger {i kind : Nat} {s : State} (h : Table.find? i s.roster = none) :
    badServiceAnswer (some i) kind s = refused .notAuthorised := by
  simp only [badServiceAnswer, h, refusal_eq_refused]

/-- A bad frame of a kind that is the sender's, or no role's (R174). -/
theorem badServiceAnswer_bad {i kind : Nat} {s : State} {e : RosterEntry} (h : Table.find? i s.roster = some e)
    (hkind : kind ∈ roleKinds e.role ∨ ∀ role : Role, kind ∉ roleKinds role) :
    badServiceAnswer (some i) kind s = refused .badRequest := by
  simp only [badServiceAnswer, h, refusal_eq_refused]
  rcases hkind with hown | hnone
  · have hask := (roleMayAsk_iff kind e.role).mpr hown
    simp [hask]
  · have hservice : isServiceKind kind = false := by
      rw [← Bool.not_eq_true, isServiceKind_iff, not_exists]
      exact hnone
    simp [hservice]

/-- A bad frame of a kind of another role (R174). -/
theorem badServiceAnswer_wrongRole {i kind : Nat} {s : State} {e : RosterEntry} (h : Table.find? i s.roster = some e)
    (hown : kind ∉ roleKinds e.role) (hother : ∃ role : Role, kind ∈ roleKinds role) :
    badServiceAnswer (some i) kind s = { code := .wrongRole, body := .role e.role } := by
  have hservice := (isServiceKind_iff kind).mpr hother
  rw [← roleMayAsk_iff, Bool.not_eq_true] at hown
  simp [badServiceAnswer, h, hservice, hown]

/-- Settles O24. -/
theorem receiversAndBadFrames : Obligations.ReceiversAndBadFrames := by
  intro s hrunning
  have hwhile {f : State → State} : whileRunning f s = .next (f s) := whileRunning_running hrunning
  have hstart : exec .officeFrameStart s = .next { s with office := { s.office with reading := true } } := by
    rw [exec, execOfficeFrameStart, hwhile]
    rfl
  refine ⟨hstart, hwhile, hwhile, fun kind tag hcurrent => officeRequest_answering kind tag ⟨hrunning, hcurrent⟩, ?_, ?_, ?_, ?_, ?_⟩
  · intro r hcurrent hkind
    rw [exec_officeResponseSent, hwhile]
    simp only [Option.mem_def.mp hcurrent, responseSent_ends hkind]
  · intro hcurrent
    rw [exec_officeResponseSent, hwhile]
    rw [hcurrent]
    refine ⟨fun hbusy => ?_, fun b rest hbusy => ?_⟩
    · rw [State.onOffice, hbusy, List.tail_nil, ← hbusy]
    · rw [State.onOffice, hbusy, List.tail_cons]
  · intro r hcurrent
    rw [exec_serviceResponseSent, hwhile, if_neg (by simp [Option.mem_def.mp hcurrent])]
    rfl
  · intro hcurrent
    rw [exec_serviceResponseSent, hwhile, if_pos (by simp [hcurrent])]
    refine ⟨fun hbusy => ?_, fun b rest hbusy => ?_⟩
    · rw [State.onService, hbusy, List.tail_nil, ← hbusy]
    · rw [State.onService, hbusy, List.tail_cons]
  · intro hlink
    have hreads (reading : Bool) :
        whileRunning (serviceReads reading) s = .next { s with service := { s.service with reading := reading } } := by
      rw [hwhile, serviceReads_enabled hlink]
    refine ⟨hreads true, hreads false, hreads false, fun hcurrent kind tag => ⟨?_, fun i => ⟨fun habsent => ?_, fun e hheld => ⟨?_, ?_⟩⟩⟩⟩
    · exact exec_serviceBadRequest hrunning hlink hcurrent
    · rw [exec_serviceBadRequest hrunning hlink hcurrent, badServiceAnswer_stranger habsent]
      rfl
    · intro hkind
      rw [exec_serviceBadRequest hrunning hlink hcurrent, badServiceAnswer_bad hheld hkind]
      rfl
    · intro hown hother
      rw [exec_serviceBadRequest hrunning hlink hcurrent, badServiceAnswer_wrongRole hheld hown hother]
      rfl

end Sys2Proof.Machine
end

section
/-!
PROOFS. Checks in order: what it says that a list of checks decides an answer, and how a port answers a request that is so decided. Then
the plain settings (R74, R95, R171 to R173), the state after reset, and the queries of both ports (R7, R75, R92, R99, R112, R120, R132,
R159).
-/

namespace Sys2Proof.Machine

open Sys2Proof

/-! ### Checks in order -/

/-- A list of checks decides an answer: that of the first check that fails, or none where none fails. -/
def Decides {α : Type} (checks : List (Prop × α)) : Option α → Prop
  | some a => FirstFails checks a
  | none => NoneFails checks

theorem FirstFails.not_noneFails {α : Type} {checks : List (Prop × α)} {a : α} (h : FirstFails checks a) : ¬NoneFails checks := by
  induction checks with
  | nil => exact h.elim
  | cons c rest ih =>
    rintro ⟨hpass, hrest⟩
    rcases h with ⟨hfail, -⟩ | ⟨-, hlater⟩
    · exact hpass hfail
    · exact ih hlater hrest

theorem FirstFails.unique {α : Type} {checks : List (Prop × α)} {a b : α} (ha : FirstFails checks a) (hb : FirstFails checks b) :
    a = b := by
  induction checks with
  | nil => exact ha.elim
  | cons c rest ih =>
    rcases ha with ⟨hfail, rfl⟩ | ⟨hpass, ha⟩ <;> rcases hb with ⟨hfail', rfl⟩ | ⟨hpass', hb⟩
    · rfl
    · exact absurd hfail hpass'
    · exact absurd hfail' hpass
    · exact ih ha hb

theorem Decides.eq_some {α : Type} {checks : List (Prop × α)} {x : Option α} {a : α} (h : Decides checks x)
    (ha : FirstFails checks a) : x = some a := by
  cases x with
  | none => exact absurd h ha.not_noneFails
  | some b => rw [FirstFails.unique h ha]

theorem Decides.eq_none {α : Type} {checks : List (Prop × α)} {x : Option α} (h : Decides checks x) (hnone : NoneFails checks) :
    x = none := by
  cases x with
  | none => rfl
  | some b => exact absurd hnone (FirstFails.not_noneFails h)

theorem Decides.nil {α : Type} : Decides ([] : List (Prop × α)) none := trivial

/-- One check more ahead. -/
theorem Decides.cons {α : Type} {p c : Prop} [Decidable c] {b : α} {rest : List (Prop × α)} {y : Option α} (hp : p ↔ c)
    (h : ¬p → Decides rest y) : Decides ((p, b) :: rest) (if c then some b else y) := by
  by_cases hc : c
  · rw [if_pos hc]
    exact .inl ⟨hp.mpr hc, rfl⟩
  · have hpass : ¬p := mt hp.mp hc
    rw [if_neg hc]
    have hrest := h hpass
    cases y with
    | none => exact ⟨hpass, hrest⟩
    | some a => exact .inr ⟨hpass, hrest⟩

/-- One list of checks after another. -/
theorem Decides.append {α : Type} {first later : List (Prop × α)} {x y : Option α} (hx : Decides first x) (hy : x = none → Decides later y) :
    Decides (first ++ later) (x.or y) := by
  induction first with
  | nil =>
    cases x with
    | none => exact hy rfl
    | some a => exact hx.elim
  | cons c rest ih =>
    cases x with
    | some a =>
      rcases hx with hfail | ⟨hpass, hlater⟩
      · exact .inl hfail
      · exact .inr ⟨hpass, ih hlater⟩
    | none =>
      obtain ⟨hpass, hrest⟩ := hx
      have hall := ih hrest
      rw [Option.none_or] at hall ⊢
      cases y with
      | none => exact ⟨hpass, hall⟩
      | some a => exact .inr ⟨hpass, hall⟩

/-! ### Requests that are so decided -/

/-- An office request whose refusal a list of checks decides: the free office port has the refusal in progress and nothing else changes,
or the request is taken. -/
theorem officeRequest_decided {kind : Nat} {act : State → State × Response} {s : State} {checks : List (Prop × Response)}
    {x : Option Response} {taken : State × Response} (tag : Nat) (hfree : OfficeFree s) (hd : Decides checks x)
    (hact : act (hunting s) = x.elim taken fun r => (hunting s, r)) :
    (∀ r : Response, FirstFails checks r → officeRequest kind tag act s = .next (answered kind tag r s))
      ∧ (NoneFails checks → officeRequest kind tag act s = .next (withOfficeReply kind tag taken.2 taken.1)) := by
  obtain ⟨hrunning, hcurrent⟩ := hfree
  rw [officeRequest_taken hrunning hcurrent, hact]
  constructor
  · intro r hr
    rw [hd.eq_some hr]
    rfl
  · intro hnone
    rw [hd.eq_none hnone]
    rfl

/-- A service request of a handheld that may ask it is answered by its owner (R170, R174). -/
theorem serviceRequest_asked {identity kind : Nat} {act : RosterEntry → State → State × Response} {s : State} {e : RosterEntry}
    (tag : Nat) (hfree : LinkFree identity e s) (hrole : kind ∈ roleKinds e.role) :
    serviceRequest identity kind tag (roleMayAsk kind) act s
      = .next (withServiceReply identity kind tag (act e (serviceHunting s)).2 (act e (serviceHunting s)).1) := by
  obtain ⟨hrunning, hlink, hcurrent, hheld⟩ := hfree
  exact serviceRequest_taken hrunning hlink hcurrent hheld ((roleMayAsk_iff kind e.role).mpr hrole)

/-- A read of a handheld that may ask it has its answer in progress, and nothing else changes. -/
theorem serviceRequest_answering {identity kind : Nat} {f : State → Response} {s : State} {e : RosterEntry} (tag : Nat)
    (hfree : LinkFree identity e s) (hrole : kind ∈ roleKinds e.role) :
    serviceRequest identity kind tag (roleMayAsk kind) (fun _ => answering f) s
      = .next (serviceAnswered identity kind tag (f (serviceHunting s)) s) := by
  rw [serviceRequest_asked tag hfree hrole]
  rfl

/-- A service request whose refusal a list of checks decides. -/
theorem serviceRequest_decided {identity kind : Nat} {act : RosterEntry → State → State × Response} {s : State} {e : RosterEntry}
    {checks : List (Prop × Response)} {x : Option Response} {taken : State × Response} (tag : Nat) (hfree : LinkFree identity e s)
    (hrole : kind ∈ roleKinds e.role) (hd : Decides checks x)
    (hact : act e (serviceHunting s) = x.elim taken fun r => (serviceHunting s, r)) :
    (∀ r : Response, FirstFails checks r →
        serviceRequest identity kind tag (roleMayAsk kind) act s = .next (serviceAnswered identity kind tag r s))
      ∧ (NoneFails checks →
        serviceRequest identity kind tag (roleMayAsk kind) act s = .next (withServiceReply identity kind tag taken.2 taken.1)) := by
  rw [serviceRequest_asked tag hfree hrole, hact]
  constructor
  · intro r hr
    rw [hd.eq_some hr]
    rfl
  · intro hnone
    rw [hd.eq_none hnone]
    rfl

/-! ### The plain settings -/

theorem takeGracePut_within {grace : Nat} (s : State) (h : grace ≤ 15) :
    takeGracePut grace s = ({ s with sales := { s.sales with grace := grace } }, accepted .empty) := by
  rw [takeGracePut, if_neg (Nat.not_lt.mpr h)]
  rfl

theorem takeGracePut_above {grace : Nat} (s : State) (h : ¬grace ≤ 15) : takeGracePut grace s = (s, refused .badGrace) := by
  rw [takeGracePut, if_pos (Nat.not_le.mp h), refusal_eq_refused]

/-- A GRACE_PUT that the free office port takes (R74). -/
theorem exec_gracePut {s : State} (tag grace : Nat) (hfree : OfficeFree s) :
    exec (.gracePut tag grace) s
      = .next
          (if grace ≤ 15 then answered 0x09 tag (accepted .empty) { s with sales := { s.sales with grace := grace } }
          else answered 0x09 tag (refused .badGrace) s) := by
  have harm : exec (.gracePut tag grace) s = officeRequest 0x09 tag (takeGracePut grace) s := rfl
  obtain ⟨hrunning, hcurrent⟩ := hfree
  rw [harm, officeRequest_taken hrunning hcurrent]
  split
  · next h => rw [takeGracePut_within _ h]; rfl
  · next h => rw [takeGracePut_above _ h]; rfl

/-- A denomination is bad: 0, above 1000, or not above the one before it (R95). -/
def BadDenomination (before d : Nat) : Prop := d = 0 ∨ 1000 < d ∨ d ≤ before

/-- One position more ahead of a denomination list's checks. -/
theorem decides_badDenomination {α : Type} {before position v : Nat} {vs : List Nat} {answer : Nat → α} {y : Option α}
    {rest : List (Prop × α)} (h : Decides rest (((badDenomination v (position + 1) vs).map answer).or y)) :
    Decides ((BadDenomination before v, answer position) :: rest) (((badDenomination before position (v :: vs)).map answer).or y) := by
  have hbad : BadDenomination before v ↔ v < 1 ∨ 1000 < v ∨ v ≤ before := by
    unfold BadDenomination
    omega
  rw [badDenomination]
  by_cases hfail : v < 1 ∨ 1000 < v ∨ v ≤ before
  · rw [if_pos hfail]
    exact .inl ⟨hbad.mpr hfail, rfl⟩
  · have := Decides.cons (b := answer position) hbad fun _ => h
    rw [if_neg hfail] at this ⊢
    exact this

/-- What refuses a DENOMINATIONS_PUT (R95). -/
def denominationsRefusal (v : Six) (s : State) : Option Response :=
  ((badDenomination 0 1 v.toList).map (refusedAt .badDenominations)).or
    (if nonzeroTallies s ≠ 0 ∨ s.cash.collections ≠ [] then
      some { code := .denominationsInUse, body := .inUse (nonzeroTallies s) s.cash.collections.length }
    else none)

theorem takeDenominationsPut_eq (v : Six) (s : State) :
    takeDenominationsPut v s
      = (denominationsRefusal v s).elim ({ s with cash := { s.cash with denominations := v } }, accepted .empty)
          fun r => (s, r) := by
  unfold takeDenominationsPut denominationsRefusal
  cases badDenomination 0 1 v.toList with
  | some position => rfl
  | none =>
    rw [Option.map_none, Option.none_or]
    dsimp only
    split <;> rfl

/-- What refuses a ROSTER_PUT (R172). -/
def rosterRefusal (identity role key : Nat) (s : State) : Option Response :=
  if identity = 0 then some (refusedAt .badRoster 1)
  else if (roleOf role).isNone = true then some (refusedAt .badRoster 2)
  else if role = 2 ∧ key = 0 then some (refusedAt .badRoster 3)
  else if (Table.find? identity s.roster).isSome = false ∧ 64 ≤ s.roster.length then some (refused .rosterFull)
  else none

theorem takeRosterPut_eq (identity role key : Nat) (s : State) :
    takeRosterPut identity role key s
      = (rosterRefusal identity role key s).elim
          ({ s with roster := Table.put identity (rosterEntry role key) s.roster },
            accepted
              (.wordCount (if (Table.find? identity s.roster).isSome then .replaced else .added)
                (Table.put identity (rosterEntry role key) s.roster).length))
          fun r => (s, r) := by
  unfold takeRosterPut badRosterField rosterRefusal
  simp only [Bool.not_eq_true', Config.maxRoster]
  by_cases h1 : identity = 0
  · rw [if_pos h1, if_pos h1]
    rfl
  rw [if_neg h1, if_neg h1]
  by_cases h2 : (roleOf role).isNone = true
  · rw [if_pos h2, if_pos h2]
    rfl
  rw [if_neg h2, if_neg h2]
  by_cases h3 : role = 2 ∧ key = 0
  · rw [if_pos h3, if_pos h3]
    rfl
  rw [if_neg h3, if_neg h3]
  dsimp only
  split <;> rfl

theorem roleOf_isNone_iff (role : Nat) : (roleOf role).isNone = true ↔ role < 1 ∨ 3 < role := by
  match role with
  | 0 | 1 | 2 | 3 => simp [roleOf]
  | n + 4 => simp [roleOf]

/-- The entry that an accepted ROSTER_PUT leaves (R172). -/
theorem rosterEntry_role {role key : Nat} (h : ¬(role < 1 ∨ 3 < role)) : roleOf role = some (rosterEntry role key).role := by
  rw [← roleOf_isNone_iff, Option.isNone_iff_eq_none] at h
  obtain ⟨r, hr⟩ := Option.ne_none_iff_exists'.mp h
  rw [rosterEntry, hr]
  rfl

theorem takeRosterRemove_absent {identity : Nat} {s : State} (h : Table.find? identity s.roster = none) :
    takeRosterRemove identity s = (s, refused .notFound) := by
  simp only [takeRosterRemove, h, refusal_eq_refused]

theorem takeRosterRemove_held {identity : Nat} {s : State} {e : RosterEntry} (h : Table.find? identity s.roster = some e) :
    takeRosterRemove identity s
      = ({ s with roster := s.roster.filter fun x => x.1 ≠ identity },
          accepted (.rosterRemoved e.role (s.roster.filter fun x => x.1 ≠ identity).length)) := by
  simp only [takeRosterRemove, h, okWith_eq_accepted]
  rfl

/-- Settles O29. -/
theorem settingsAreTaken : Obligations.SettingsAreTaken := by
  intro s tag hfree
  refine ⟨fun grace => exec_gracePut tag grace hfree, fun v => ?_, fun identity role key => ?_, fun identity => ⟨?_, ?_⟩⟩
  · have harm : exec (.denominationsPut tag v) s = officeRequest 0x10 tag (takeDenominationsPut v) s := rfl
    rw [harm]
    refine officeRequest_decided tag hfree ?_ (takeDenominationsPut_eq v (hunting s))
    refine decides_badDenomination (decides_badDenomination (decides_badDenomination (decides_badDenomination
      (decides_badDenomination (decides_badDenomination (.cons ?_ fun _ => .nil))))))
    exact Iff.rfl
  · have harm : exec (.rosterPut tag identity role key) s = officeRequest 0x1A tag (takeRosterPut identity role key) s := rfl
    rw [harm]
    have hd : Decides _ (rosterRefusal identity role key (hunting s)) :=
      .cons Iff.rfl fun _ => .cons (roleOf_isNone_iff role).symm fun _ => .cons Iff.rfl fun _ => .cons Iff.rfl fun _ => .nil
    obtain ⟨hrefused, htaken⟩ :=
      officeRequest_decided (kind := 0x1A) tag hfree hd (takeRosterPut_eq identity role key (hunting s))
    refine ⟨hrefused, fun hnone => ⟨rosterEntry role key, rosterEntry_role hnone.2.1, rfl, htaken hnone⟩⟩
  · intro habsent
    have harm : exec (.rosterRemove tag identity) s = officeRequest 0x1B tag (takeRosterRemove identity) s := rfl
    rw [harm, officeRequest_taken hfree.1 hfree.2, takeRosterRemove_absent (s := hunting s) habsent]
    rfl
  · intro e hheld
    have harm : exec (.rosterRemove tag identity) s = officeRequest 0x1B tag (takeRosterRemove identity) s := rfl
    rw [harm, officeRequest_taken hfree.1 hfree.2, takeRosterRemove_held (s := hunting s) hheld]
    rfl

/-! ### The state after reset -/

/-- The cold group records by group (R133). -/
theorem find?_coldGroups : ∀ g ∈ groupNumbers,
    Table.find? g coldGroups = some { cover := .freeTime, since := 0, mark := false } := by decide

/-- Settles O3: a cold start is these values. -/
theorem resetValues : Obligations.ResetValues := by
  intro straps
  exact ⟨rfl, rfl, rfl, rfl, rfl, rfl, rfl, rfl, rfl, rfl, rfl, rfl, rfl, rfl, rfl, rfl, find?_coldGroups, rfl, rfl, rfl, rfl, rfl, rfl,
    rfl, rfl, rfl, rfl, rfl⟩

/-- Settles O4: the tables of a cold start are empty, and its groups are uncharged and unmarked. -/
theorem resetMeetsTheLaws : Obligations.ResetMeetsTheLaws := by
  have hcold : ∀ e ∈ coldGroups, e.2.mark = false ∧ e.2.cover = .freeTime := by decide
  refine ⟨?_, ?_, rfl, ?_, ?_, ?_, ?_, ?_, ?_, .inr fun e he => (hcold e he).1⟩
  · exact ⟨rfl, rfl, rfl, rfl, by decide⟩
  · intro e he
    cases he
  · exact ⟨rfl, by decide, by decide, rfl, rfl, fun r hr => by cases hr⟩
  · exact ⟨List.nodup_nil, fun x hx => by (cases hx), fun w hw => by (cases hw), fun _ _ => rfl⟩
  · intro e he
    cases he
  · rintro plan (⟨e, he, -⟩ | ⟨w, hw, -⟩)
    · cases he
    · cases hw
  · exact ⟨fun e he => by (cases he), fun slot kind calledAs hmode => by cases hmode⟩
  · exact fun _ => ⟨fun e he => by (cases he), fun e he => (hcold e he).2⟩

/-! ### Queries of a slot and of the groups -/

theorem slotNumber_eq_false (slot : Nat) : slotNumber slot = false ↔ slot < 1 ∨ 24 < slot := by
  rw [slotNumber, Bool.and_eq_false_iff, decide_eq_false_iff_not, decide_eq_false_iff_not, Config.terminalSlots, Nat.not_le, Nat.not_le]

theorem slotNumber_of_range {slot : Nat} (h1 : 1 ≤ slot) (h24 : slot ≤ 24) : slotNumber slot = true := by
  simp [slotNumber, Config.terminalSlots, h1, h24]

theorem groupNumber_eq_false (g : Nat) : groupNumber g = false ↔ g < 1 ∨ 12 < g := by
  rw [groupNumber, Bool.and_eq_false_iff, decide_eq_false_iff_not, decide_eq_false_iff_not, Config.bayGroups, Nat.not_le, Nat.not_le]

theorem groupNumber_of_range {g : Nat} (h1 : 1 ≤ g) (h12 : g ≤ 12) : groupNumber g = true := by
  simp [groupNumber, Config.bayGroups, h1, h12]

section
variable {body : Terminal → Body} {slot : Nat} {s : State}

theorem slotAnswer_badSlot (h : slot < 1 ∨ 24 < slot) : slotAnswer body slot s = refused .badSlot := by
  rw [slotAnswer, (slotNumber_eq_false slot).mpr h]
  rfl

theorem slotAnswer_empty (h1 : 1 ≤ slot) (h24 : slot ≤ 24) (h : terminal s slot = none) :
    slotAnswer body slot s = accepted .slotIsEmpty := by
  rw [slotAnswer, slotNumber_of_range h1 h24, h]
  rfl

theorem slotAnswer_held {t : Terminal} (h1 : 1 ≤ slot) (h24 : slot ≤ 24) (h : terminal s slot = some t) :
    slotAnswer body slot s = accepted (body t) := by
  rw [slotAnswer, slotNumber_of_range h1 h24, h]
  rfl

end

/-- TERMINAL_AUDIT answers as a query of a slot does. -/
theorem auditAnswer_eq (slot : Nat) (s : State) : auditAnswer slot s = slotAnswer (fun t => .audit (auditView slot t s)) slot s := by
  unfold auditAnswer slotAnswer
  split
  · rfl
  · cases terminal s slot <;> rfl

/-! ### JOURNAL_READ -/

/-- The bytes of records. -/
def bytesOf (rs : List Record) : Nat := (rs.map Record.size).sum

/-- What fits is the longest beginning that leaves the body within its bound. -/
theorem fitting_eq_take (taken : Nat) (rs : List Record) (htaken : taken ≤ 1024) : ∃ n ≤ rs.length,
    fitting taken rs = rs.take n ∧ taken + bytesOf (rs.take n) ≤ 1024
      ∧ (n < rs.length → 1024 < taken + bytesOf (rs.take (n + 1))) := by
  induction rs generalizing taken with
  | nil => exact ⟨0, le_rfl, rfl, by simpa [bytesOf] using htaken, fun h => absurd h (Nat.lt_irrefl 0)⟩
  | cons r rest ih =>
    rw [fitting]
    by_cases hfit : taken + r.size ≤ Config.officeBodyMax
    · obtain ⟨n, hn, heq, hle, hnext⟩ := ih (taken + r.size) hfit
      rw [if_pos hfit]
      refine ⟨n + 1, Nat.succ_le_succ hn, by rw [heq, List.take_succ_cons], ?_, fun h => ?_⟩
      · rw [List.take_succ_cons, bytesOf, List.map_cons, List.sum_cons, ← Nat.add_assoc]
        exact hle
      · have := hnext (Nat.lt_of_succ_lt_succ h)
        rw [List.take_succ_cons, bytesOf, List.map_cons, List.sum_cons, ← Nat.add_assoc]
        exact this
    · rw [if_neg hfit]
      refine ⟨0, Nat.zero_le _, rfl, by simpa [bytesOf] using htaken, fun _ => ?_⟩
      have hmax : Config.officeBodyMax = 1024 := rfl
      simp only [Nat.zero_add, List.take_succ_cons, List.take_zero, bytesOf, List.map_cons, List.map_nil, List.sum_cons, List.sum_nil]
      omega

/-- The fields of a JOURNAL_READ response beside its records take at most 36 bytes (log entry 13). -/
theorem journalReadOverhead_le : Config.journalReadOverhead ≤ 36 := by
  have hwidth (field least : Nat) : Config.answerWidth 0x16 field least ≤ least + 5 := by
    unfold Config.answerWidth
    omega
  have h1 := hwidth 1 1
  have h2 := hwidth 2 2
  have h3 := hwidth 3 1
  have h4 := hwidth 4 2
  have h5 := hwidth 5 4
  unfold Config.journalReadOverhead
  omega

/-- How many records a JOURNAL_READ of `count` returns (R159). -/
theorem readRecords_eq_take (count : Nat) (s : State) (hcount : 1 ≤ count) : ∃ n : Nat,
    n ≤ count ∧ n ≤ s.journal.records.length ∧ readRecords count s = s.journal.records.take n
      ∧ Config.journalReadOverhead + bytesOf (s.journal.records.take n) ≤ 1024
      ∧ (n < count → n < s.journal.records.length →
          1024 < Config.journalReadOverhead + bytesOf (s.journal.records.take (n + 1)))
      ∧ (s.journal.records ≠ [] → (∀ r ∈ s.journal.records, r.size ≤ 76) → 0 < n) := by
  have hover := journalReadOverhead_le
  obtain ⟨n, hn, heq, hle, hnext⟩ := fitting_eq_take Config.journalReadOverhead (s.journal.records.take count) (by omega)
  rw [List.length_take] at hn hnext
  have htake {m : Nat} (hm : m ≤ count) : (s.journal.records.take count).take m = s.journal.records.take m := by
    rw [List.take_take, Nat.min_eq_left hm]
  have hmore : n < count → n < s.journal.records.length →
      1024 < Config.journalReadOverhead + bytesOf (s.journal.records.take (n + 1)) := by
    intro hc hl
    rw [← htake hc]
    exact hnext (by omega)
  rw [htake (by omega)] at heq hle
  refine ⟨n, by omega, by omega, heq, hle, hmore, fun hne hsize => ?_⟩
  by_contra hzero
  obtain rfl : n = 0 := by omega
  obtain ⟨r, rest, hrs⟩ := List.exists_cons_of_ne_nil hne
  have hr := hsize r (by simp [hrs])
  have := hmore (by omega) (List.length_pos_of_ne_nil hne)
  simp only [hrs, bytesOf, Nat.zero_add, List.take_succ_cons, List.take_zero, List.map_cons, List.map_nil, List.sum_cons,
    List.sum_nil] at this
  omega

theorem journalReadAnswer_bad {count : Nat} {s : State} (h : count < 1 ∨ 16 < count) :
    journalReadAnswer count s = refused .badCount := by
  rw [journalReadAnswer, if_pos h, refusal_eq_refused]

theorem journalReadAnswer_good {count : Nat} {s : State} (h : ¬(count < 1 ∨ 16 < count)) :
    journalReadAnswer count s = accepted (.records (readRecords count s) (figures s) s.journal.nextSequence) := by
  rw [journalReadAnswer, if_neg h, okWith_eq_accepted]

/-- Settles O30. -/
theorem officeQueriesAnswer : Obligations.OfficeQueriesAnswer := by
  intro s tag hfree
  have hread {f : State → Response} (kind : Nat) :
      officeRequest kind tag (answering f) s = .next (answered kind tag (f (hunting s)) s) := officeRequest_answering kind tag hfree
  have haudit (slot : Nat) : exec (.terminalAudit tag slot) s = .next (answered 0x0F tag (auditAnswer slot s) s) := hread 0x0F
  have hfaults (slot : Nat) : exec (.faultList tag slot) s
      = .next (answered 0x13 tag (slotAnswer (fun t => .faults (faultView t)) slot s) s) := hread 0x13
  have hjournal (count : Nat) : exec (.journalRead tag count) s = .next (answered 0x16 tag (journalReadAnswer count s) s) :=
    hread 0x16
  refine ⟨hread 0x02, fun slot => ⟨fun hbad => ?_, fun h1 h24 hempty => ?_, fun t h1 h24 hheld => ?_⟩, hread 0x15, fun count => ⟨?_, ?_⟩⟩
  · rw [haudit, hfaults, auditAnswer_eq, slotAnswer_badSlot hbad, slotAnswer_badSlot hbad]
    exact ⟨rfl, rfl⟩
  · rw [haudit, hfaults, auditAnswer_eq, slotAnswer_empty h1 h24 hempty, slotAnswer_empty h1 h24 hempty]
    exact ⟨rfl, rfl⟩
  · rw [haudit, hfaults, auditAnswer_eq, slotAnswer_held h1 h24 hheld, slotAnswer_held h1 h24 hheld, faultView_eq]
    exact ⟨rfl, rfl⟩
  · intro hbad
    rw [hjournal, journalReadAnswer_bad hbad]
  · intro h1 h16
    obtain ⟨n, hcount, hlength, heq, hle, hmore, hsome⟩ := readRecords_eq_take count s h1
    refine ⟨n, hcount, hlength, ?_, hle, hmore, hsome⟩
    rw [hjournal, journalReadAnswer_good (by omega), heq]
    rfl

/-! ### Queries of the handhelds -/

/-- A carried plate differs from one held (R75, R92; log entry 35). -/
theorem platesDiffer_plateOf (plate : Plate) (held : Option Plate) :
    platesDiffer (plateOf plate) held = true ↔ plate ≠ [] ∧ ∃ p ∈ held, p ≠ plate := by
  unfold platesDiffer plateOf
  by_cases hplate : plate = []
  · simp [hplate]
  · cases held with
    | none => simp [hplate]
    | some p => simp [hplate, ne_comm (a := plate)]

theorem ticketEntry_eq (ticket : Nat) (s : State) : ticketEntry ticket s = s.sales.live.find? fun x => x.ticket = ticket := rfl

/-- TICKET_CHECK of a number that the table does not hold (R75). -/
theorem ticketAnswer_absent {ticket : Nat} {plate : Option Plate} {s : State} (h : ticketEntry ticket s = none) :
    ticketAnswer ticket plate s = accepted (.ticket .unknown none s.calendar.clockSet) := by
  simp only [ticketAnswer, h, okWith_eq_accepted]

/-- TICKET_CHECK of an entry answers by the first case of R75 that applies. -/
theorem ticketAnswer_decided {ticket : Nat} {plate : Plate} {s : State} {x : LiveTicket} (h : ticketEntry ticket s = some x) :
    Decides
      [(x.expiry + s.sales.grace * 60 ≤ s.calendar.zoneTime, accepted (.ticket .unknown none s.calendar.clockSet)),
        (plate ≠ [] ∧ ∃ p ∈ x.plate, p ≠ plate, accepted (.ticket .plateMismatch (some x.view) s.calendar.clockSet)),
        (s.calendar.zoneTime < x.expiry, accepted (.ticket .valid (some x.view) s.calendar.clockSet)),
        (True, accepted (.ticket .inGrace (some x.view) s.calendar.clockSet))]
      (some (ticketAnswer ticket (plateOf plate) s)) := by
  simp only [ticketAnswer, h, okWith_eq_accepted, apply_ite (fun w => Body.ticket w (some x.view) s.calendar.clockSet),
    apply_ite accepted, apply_ite some]
  exact .cons Iff.rfl fun _ => .cons (platesDiffer_plateOf plate x.plate).symm fun _ => .cons Iff.rfl fun _ => .inl ⟨trivial, rfl⟩

/-- The answer word of a PERMIT_CHECK on a record is that of the first case of R92 that applies. -/
theorem permitStanding_decided {α : Type} (p : Permit) (day group : Nat) (plate : Plate) (say : Code → α) :
    Decides
      [(p.suspended = true, say .suspended), (day < p.firstDay, say .notYet), (p.lastDay < day, say .expired),
        (group ∉ p.zones, say .notInZone), (plate ≠ [] ∧ ∃ q ∈ p.plate, q ≠ plate, say .plateMismatch), (True, say .valid)]
      (some (say (permitStanding p day group (plateOf plate)))) := by
  rw [permitStanding]
  simp only [apply_ite say, apply_ite some]
  exact .cons Iff.rfl fun _ => .cons Iff.rfl fun _ => .cons Iff.rfl fun _ => .cons (by simp) fun _ =>
    .cons (platesDiffer_plateOf plate p.plate).symm fun _ => .inl ⟨trivial, rfl⟩

/-- PERMIT_CHECK of a group of the zone (R92). -/
theorem permitCheckAnswer_group {number group : Nat} {plate : Option Plate} {s : State} (h : ¬(group < 1 ∨ 12 < group)) :
    permitCheckAnswer number group plate s
      = (Table.find? number s.permits).elim (accepted (.permitStanding .unknown none s.calendar.clockSet))
          fun p => accepted (.permitStanding (permitStanding p (today s) group plate) (some p.view) s.calendar.clockSet) := by
  rw [← groupNumber_eq_false, Bool.not_eq_false] at h
  unfold permitCheckAnswer
  rw [h]
  cases Table.find? number s.permits <;> rfl

theorem permitCheckAnswer_badGroup {number group : Nat} {plate : Option Plate} {s : State} (h : group < 1 ∨ 12 < group) :
    permitCheckAnswer number group plate s = refused .badGroup := by
  rw [permitCheckAnswer, (groupNumber_eq_false group).mpr h]
  rfl

theorem groupAnswer_badGroup {g : Nat} {s : State} (h : g < 1 ∨ 12 < g) : groupAnswer g s = refused .badGroup := by
  rw [groupAnswer, (groupNumber_eq_false g).mpr h]
  rfl

theorem groupAnswer_held {g : Nat} {s : State} {r : GroupRecord} (h1 : 1 ≤ g) (h12 : g ≤ 12) (h : Table.find? g s.groups = some r) :
    groupAnswer g s = accepted (.group r.cover r.since (members g s).length s.calendar.clockSet) := by
  rw [groupAnswer, groupNumber_of_range h1 h12, h]
  rfl

/-- What a listed box tells of its entry (R94, R99). -/
theorem listedBox_tells (s : State) (x : RoundEntry) :
    (listedBox s x).entry = x ∧ ∀ t : Terminal, terminal s x.slot = some t →
      (listedBox s x).link = t.link.state ∧ (listedBox s x).service = t.watch.service
        ∧ (listedBox s x).tallyTotal = t.cash.tally.total
        ∧ (listedBox s x).tallyValue = t.cash.tally.value s.cash.denominations := by
  unfold listedBox
  constructor
  · split <;> rfl
  · intro t ht
    rw [ht]
    exact ⟨rfl, rfl, rfl, rfl⟩

theorem roundListAnswer_open {s : State} {r : Round} (h : s.cash.round = some r) :
    roundListAnswer s
      = accepted (.roundNow r.number r.collector r.key r.start (r.start + Config.roundSeconds) (r.entries.map (listedBox s))) := by
  rw [roundListAnswer, h]
  rfl

theorem roundListAnswer_none {s : State} (h : s.cash.round = none) :
    roundListAnswer s
      = accepted
          (.roundPreview ((roundList s).map (listedBox s)) (roundList s).length (roundFits s (roundList s).length)) := by
  rw [roundListAnswer, h]
  rfl

section
variable {s : State} {identity : Nat} {e : RosterEntry}

/-- Settles O31 for TICKET_CHECK. -/
theorem exec_ticketCheck (tag ticket : Nat) (plate : Plate) (hfree : LinkFree identity e s) (hrole : e.role = .officer) :
    exec (.ticketCheck identity tag ticket plate) s
      = .next (serviceAnswered identity 0x40 tag (ticketAnswer ticket (plateOf plate) s) s) :=
  serviceRequest_answering tag hfree (by rw [hrole]; decide)

theorem exec_permitCheck (tag number group : Nat) (plate : Plate) (hfree : LinkFree identity e s) (hrole : e.role = .officer) :
    exec (.permitCheck identity tag number group plate) s
      = .next (serviceAnswered identity 0x41 tag (permitCheckAnswer number group (plateOf plate) s) s) :=
  serviceRequest_answering tag hfree (by rw [hrole]; decide)

theorem exec_groupCheck (tag group : Nat) (hfree : LinkFree identity e s) (hrole : e.role = .officer) :
    exec (.groupCheck identity tag group) s = .next (serviceAnswered identity 0x42 tag (groupAnswer group s) s) :=
  serviceRequest_answering tag hfree (by rw [hrole]; decide)

theorem exec_roundList (tag : Nat) (hfree : LinkFree identity e s) (hrole : e.role = .collector) :
    exec (.roundList identity tag) s = .next (serviceAnswered identity 0x44 tag (roundListAnswer s) s) :=
  serviceRequest_answering tag hfree (by rw [hrole]; decide)

theorem exec_terminalStatus (tag slot : Nat) (hfree : LinkFree identity e s) (hrole : e.role = .engineer) :
    exec (.terminalStatus identity tag slot) s
      = .next
          (serviceAnswered identity 0x46 tag (slotAnswer (fun t => .terminalStatus (faultView t) t.link.state) slot s) s) :=
  serviceRequest_answering tag hfree (by rw [hrole]; decide)

end

/-- Settles O31. -/
theorem serviceQueriesAnswer : Obligations.ServiceQueriesAnswer := by
  intro s identity tag e hfree
  refine ⟨fun hrole => ⟨fun ticket plate => ?_, fun number group plate => ?_, fun group => ⟨?_, ?_⟩⟩, fun hrole => ?_,
    fun hrole slot => ⟨?_, ?_, ?_⟩⟩
  · intro now unknown differ table r hr
    rw [exec_ticketCheck tag ticket plate hfree hrole]
    rw [← ticketEntry_eq] at hr
    cases hentry : ticketEntry ticket s with
    | none =>
      rw [hentry] at hr
      obtain ⟨-, rfl⟩ | ⟨hfalse, -⟩ := hr
      · rw [ticketAnswer_absent hentry]
      · exact absurd trivial hfalse
    | some x =>
      rw [hentry] at hr
      have hanswer := (ticketAnswer_decided (plate := plate) hentry).eq_some hr
      rw [Option.some.inj hanswer]
  · intro table r hr
    rw [exec_permitCheck tag number group plate hfree hrole]
    rcases hr with ⟨hgroup, rfl⟩ | ⟨hgroup, hr⟩
    · rw [permitCheckAnswer_badGroup hgroup]
    rw [permitCheckAnswer_group hgroup]
    cases hheld : Table.find? number s.permits with
    | none =>
      rw [hheld] at hr
      obtain ⟨-, rfl⟩ | ⟨hfalse, -⟩ := hr
      · rfl
      · exact absurd trivial hfalse
    | some p =>
      rw [hheld] at hr
      have hword := (permitStanding_decided p (today s) group plate
        fun word => accepted (.permitStanding word (some p.view) s.calendar.clockSet)).eq_some hr
      rw [Option.elim_some, Option.some.inj hword]
  · intro hbad
    rw [exec_groupCheck tag group hfree hrole, groupAnswer_badGroup hbad]
  · intro g h1 h12 hheld
    rw [exec_groupCheck tag group hfree hrole, groupAnswer_held h1 h12 hheld]
    rfl
  · intro box
    have hboxes (entries : List RoundEntry) : List.Forall₂ box entries (entries.map (listedBox s)) :=
      List.forall₂_map_right_iff.mpr (List.forall₂_same.mpr fun x _ => listedBox_tells s x)
    cases hround : s.cash.round with
    | some r =>
      refine ⟨r.entries.map (listedBox s), fun r' hr' => ?_, fun hnone => by cases hnone⟩
      obtain rfl : r = r' := by simpa using hr'
      refine ⟨hboxes r.entries, ?_⟩
      rw [exec_roundList tag hfree hrole, roundListAnswer_open hround]
      rfl
    | none =>
      refine ⟨(roundList s).map (listedBox s), fun r' hr' => (by cases hr'), fun _ => ⟨hboxes (roundList s), ?_⟩⟩
      rw [exec_roundList tag hfree hrole, roundListAnswer_none hround]
      rfl
  · intro hbad
    rw [exec_terminalStatus tag slot hfree hrole, slotAnswer_badSlot hbad]
  · intro h1 h24 hempty
    rw [exec_terminalStatus tag slot hfree hrole, slotAnswer_empty h1 h24 hempty]
  · intro t h1 h24 hheld
    rw [exec_terminalStatus tag slot hfree hrole, slotAnswer_held h1 h24 hheld, faultView_eq]

end Sys2Proof.Machine
end

section
/-!
PROOFS. The tariff walk (chapter 3): prices and costs (R47 to R49), what a found segment is (R13, R42), what every walk state keeps, and
the bounds and outcomes of a walk (R44 to R53).
-/

namespace Sys2Proof.Machine

open Sys2Proof

/-! ### Prices -/

/-- The discounted price is within half a penny of the exact share (R47). -/
theorem discountedPrice_bounds (c percent : Nat) :
    2 * 100 * discountedPrice c percent ≤ 2 * (c * (100 - percent)) + 100
      ∧ 2 * (c * (100 - percent)) + 100 < 2 * 100 * (discountedPrice c percent + 1) := by
  unfold discountedPrice
  omega

theorem discountedPrice_le (c percent : Nat) : discountedPrice c percent ≤ c := by
  have hle : c * (100 - percent) ≤ c * 100 := Nat.mul_le_mul_left c (Nat.sub_le 100 percent)
  unfold discountedPrice
  omega

theorem discountedPrice_none (c : Nat) : discountedPrice c 0 = c := by
  unfold discountedPrice
  omega

theorem discountedPrice_all (c : Nat) : discountedPrice c 100 = 0 := by
  unfold discountedPrice
  omega

/-- Each further step costs no less (R47). -/
theorem nominalPrice_mono (price increment cap k : Nat) :
    nominalPrice price increment cap k ≤ nominalPrice price increment cap (k + 1) :=
  min_le_min_right cap (Nat.add_le_add_left (Nat.mul_le_mul_left increment (Nat.le_succ k)) price)

/-- The cost of a step is its exact share, rounded up (R49). -/
theorem stepCost_bounds {d payable step : Nat} (hstep : 0 < step) :
    d * payable ≤ step * stepCost d payable step ∧ step * stepCost d payable step < d * payable + step := by
  have hdiv := Nat.div_add_mod (d * payable + step - 1) step
  have hmod := Nat.mod_lt (d * payable + step - 1) hstep
  unfold stepCost
  omega

theorem stepCost_covered {d step : Nat} (hstep : 0 < step) : stepCost d 0 step = 0 :=
  Nat.div_eq_of_lt (by omega)

theorem stepCost_whole {d step : Nat} (hstep : 0 < step) : stepCost d step step = d := by
  obtain ⟨hle, hlt⟩ := stepCost_bounds (d := d) (payable := step) hstep
  rw [Nat.mul_comm d step] at hle hlt
  have hlow := Nat.le_of_mul_le_mul_left hle hstep
  rw [← Nat.mul_succ] at hlt
  have hhigh := Nat.lt_of_mul_lt_mul_left hlt
  omega

/-- Settles O17. -/
theorem stepPrices : Obligations.StepPrices := by
  refine ⟨fun c percent _ => ?_, fun c => ⟨discountedPrice_none c, discountedPrice_all c⟩, fun price increment cap k => ?_,
    fun d payable step hstep => ?_⟩
  · have hbounds := discountedPrice_bounds c percent
    rw [← Nat.mul_assoc] at hbounds
    exact ⟨hbounds.1, hbounds.2, discountedPrice_le c percent⟩
  · exact ⟨rfl, fun hcap => Nat.min_eq_left (by simpa using hcap), nominalPrice_mono price increment cap k, min_le_right _ _⟩
  · obtain ⟨hlow, hhigh⟩ := stepCost_bounds (d := d) (payable := payable) hstep
    exact ⟨hlow, hhigh, stepCost_covered hstep, stepCost_whole hstep⟩

/-! ### Found segments -/

/-- The band found is one that starts at or below the minute, and the band after it starts above it (R13). -/
theorem bandAt_bounds {minute i : Nat} {bands : List Band} {index : Nat} {b : Band} {next : Option Nat}
    (h : bandAt minute i bands = some (index, b, next)) : b.start ≤ minute ∧ ∀ n ∈ next, minute < n := by
  induction bands generalizing i with
  | nil => cases h
  | cons a rest ih =>
    rw [bandAt] at h
    split at h
    · next found hrest => exact ih (hrest.trans h)
    · next hrest =>
      split at h
      · next hstart =>
        cases h
        refine ⟨hstart, fun n hn => ?_⟩
        cases rest with
        | nil => cases hn
        | cons c later =>
          obtain rfl : c.start = n := by simpa using hn
          rw [bandAt] at hrest
          split at hrest
          · cases hrest
          · split at hrest
            · cases hrest
            · next hlate => exact Nat.not_le.mp hlate
      · cases h

/-- What is found at a time ends later, and its kind is its band's (R42). -/
structure FoundAt (t : Nat) (g : FoundSegment) : Prop where
  later : t < g.segment.ends
  kind : g.segment.kind = g.band.segKind

theorem secondOfDay_eq (offset : Int) (t : Nat) : secondOfDay offset t = (((t : Int) + 60 * offset) % 86400).toNat := rfl

theorem secondOfDay_lt (offset : Int) (t : Nat) : secondOfDay offset t < 60 * (minuteOfDay offset t + 1) := by
  unfold minuteOfDay
  omega

theorem secondOfDay_lt_day (offset : Int) (t : Nat) : secondOfDay offset t < 86400 := by
  rw [secondOfDay_eq]
  omega

theorem secondOfDay_mod (offset : Int) {t : Nat} (ht : t % 60 = 0) : secondOfDay offset t % 60 = 0 := by
  rw [secondOfDay_eq]
  omega

theorem findUnder_found {plans : Table PlanSlot} {holidays : List Nat} {offset : Int} {p : Nat} {switch : Option Nat} {t : Nat}
    {g : FoundSegment} (h : findUnder plans holidays offset p switch t = some g) (hswitch : ∀ d ∈ switch, t < d) :
    FoundAt t g ∧ (t % 60 = 0 → (∀ d ∈ switch, d % 60 = 0) → g.segment.ends % 60 = 0) := by
  unfold findUnder at h
  split at h
  · cases h
  · dsimp only at h
    split at h
    · cases h
    · split at h
      · cases h
      · next index band next hband =>
        obtain ⟨-, hnext⟩ := bandAt_bounds hband
        have hminute := secondOfDay_lt offset t
        have hday := secondOfDay_lt_day offset t
        have hbandEnd : secondOfDay offset t < (next.map (· * 60)).getD Config.daySeconds := by
          cases next with
          | none => exact hday
          | some n =>
            have := hnext n rfl
            simp only [Option.map_some, Option.getD_some]
            omega
        have hwhole : t % 60 = 0 → (t + ((next.map (· * 60)).getD Config.daySeconds - secondOfDay offset t)) % 60 = 0 := by
          intro ht
          have hmod := secondOfDay_mod offset ht
          have hend : (next.map (· * 60)).getD Config.daySeconds % 60 = 0 := by
            cases next with
            | none => rfl
            | some n => simp
          omega
        obtain rfl := Option.some.inj h
        cases switch with
        | none =>
          refine ⟨⟨?_, rfl⟩, fun ht _ => ?_⟩
          · simp only [Option.getD_none, Nat.min_self]
            omega
          · simpa using hwhole ht
        | some d =>
          have hd := hswitch d rfl
          refine ⟨⟨?_, rfl⟩, fun ht hswitches => ?_⟩
          · simp only [Option.getD_some]
            omega
          · have h1 := hswitches d rfl
            have h2 := hwhole ht
            simp only [Option.getD_some]
            rcases Nat.le_total (t + ((next.map (· * 60)).getD Config.daySeconds - secondOfDay offset t)) d with hle | hle
            · rw [Nat.min_eq_left hle]
              exact h2
            · rw [Nat.min_eq_right hle]
              exact h1

theorem findSegment_found {plans : Table PlanSlot} {holidays : List Nat} {offset : Int} {current : Option Nat}
    {pending : Option (Nat × Nat)} {t : Nat} {g : FoundSegment} (h : findSegment plans holidays offset current pending t = some g) :
    FoundAt t g ∧ (t % 60 = 0 → (∀ p ∈ pending, p.2 % 60 = 0) → g.segment.ends % 60 = 0) := by
  unfold findSegment planAt at h
  cases pending with
  | none =>
    cases current with
    | none => cases h
    | some p =>
      obtain ⟨hfound, hwhole⟩ := findUnder_found h (by simp)
      exact ⟨hfound, fun ht _ => hwhole ht (by simp)⟩
  | some e =>
    dsimp only at h
    split at h
    · next p switch hplan =>
      split at hplan
      · cases hplan
        obtain ⟨hfound, hwhole⟩ := findUnder_found h (by simp)
        exact ⟨hfound, fun ht _ => hwhole ht (by simp)⟩
      · next hahead =>
        cases hplan
        obtain ⟨hfound, hwhole⟩ := findUnder_found h (by simpa using hahead)
        exact ⟨hfound, fun ht hswitch => hwhole ht (by simpa using hswitch)⟩
    · cases h

theorem find_found {w : WalkInput} {i t : Nat} {g : FoundSegment} (h : w.find i t = some g) : FoundAt t g :=
  (findSegment_found h).1

theorem find_whole {w : WalkInput} (hpending : ∀ p ∈ w.walk.pending, p.2 % 60 = 0) {i t : Nat} {g : FoundSegment}
    (h : w.find i t = some g) (ht : t % 60 = 0) : g.segment.ends % 60 = 0 := (findSegment_found h).2 ht hpending

/-! ### The steps of a walk -/

/-- The next state of a walk that moves to a segment's end or short of it, with the figures of a bought step. -/
theorem moveTo_eq (w : WalkInput) (t : Nat) (g : FoundSegment) (x : WalkState) :
    w.moveTo t g x
      = { x with
          t := t
          k := if t = g.segment.ends then 0 else x.k
          segment := if t = g.segment.ends then w.find x.finding t else x.segment
          finding := if t = g.segment.ends then x.finding + 1 else x.finding } := by
  unfold WalkInput.moveTo
  split <;> rfl

/-- One segment of the free pass (R44). -/
theorem freePass_succ {w : WalkInput} {h fuel : Nat} {x : WalkState} {g : FoundSegment} (hsegment : x.segment = some g)
    (hbefore : x.t < h) (hfree : g.segment.kind = .free) :
    w.freePass h (fuel + 1) x = w.freePass h fuel (w.moveTo (min g.segment.ends h) g x) := by
  rw [WalkInput.freePass, hsegment]
  exact if_pos ⟨hbefore, hfree⟩

/-- The free pass ends at the horizon and at a segment that is not FREE (R44). -/
theorem freePass_stays {w : WalkInput} {h fuel : Nat} {x : WalkState}
    (hstay : ∀ g ∈ x.segment, ¬(x.t < h ∧ g.segment.kind = .free)) : w.freePass h fuel x = x := by
  cases fuel with
  | zero => rfl
  | succ fuel =>
    rw [WalkInput.freePass]
    split
    · rfl
    · next g hsegment => exact if_neg (hstay g hsegment)

/-- The state after a bought step (R50). -/
def WalkInput.bought (w : WalkInput) (x : WalkState) (g : FoundSegment) (m c : Nat) : WalkState :=
  w.moveTo (x.t + m * 60) g
    { x with
      cost := x.cost + c, bought := x.bought + m, allowance := x.allowance - m, k := x.k + 1,
      segment := some g, lastPlan := some g.segment.plan }

/-- The minutes of the next step in a CHARGED band, for the state after the free pass (R46). -/
def minutesNext (h step stay : Nat) (x : WalkState) (g : FoundSegment) : Nat :=
  stepMinutes step stay ((g.segment.ends - x.t) / 60) ((h - x.t) / 60) x.bought

/-- The cost of the next step (R47 to R49). -/
def costNext (kind : Option PermitKind) (step price increment cap : Nat) (x : WalkState) (g : FoundSegment) (m : Nat) : Nat :=
  stepCost (discountedPrice (nominalPrice price increment cap x.k) (discountFor g.discounts kind)) (m - x.allowance) step

section
variable {w : WalkInput} {h limit : Nat} {target : Option Nat} {kind : Option PermitKind} {fuel : Nat} {before x : WalkState}

/-- A round ends at the horizon (R45). -/
theorem rounds_horizon (hx : w.freePass h walkFuel before = x) (hend : x.t = h) :
    w.rounds h limit target kind (fuel + 1) before = (x, .horizon) := by
  rw [WalkInput.rounds, hx]
  exact if_pos hend

/-- A round ends where no plan is found (R45). -/
theorem rounds_none (hx : w.freePass h walkFuel before = x) (hend : x.t ≠ h) (hsegment : x.segment = none) :
    w.rounds h limit target kind (fuel + 1) before = (x, .noStay) := by
  rw [WalkInput.rounds, hx]
  dsimp only
  rw [if_neg hend, hsegment]

variable {g : FoundSegment}

/-- A round ends in a no-stay band (R45). -/
theorem rounds_noStay (hx : w.freePass h walkFuel before = x) (hend : x.t ≠ h) (hsegment : x.segment = some g)
    (hband : g.band = .noStay) : w.rounds h limit target kind (fuel + 1) before = (x, .noStay) := by
  rw [WalkInput.rounds, hx]
  dsimp only
  rw [if_neg hend, hsegment]
  dsimp only
  rw [hband]

variable {step price increment cap stay : Nat}

/-- A round ends at the maximum stay (R46). -/
theorem rounds_maxStay (hx : w.freePass h walkFuel before = x) (hend : x.t ≠ h) (hsegment : x.segment = some g)
    (hband : g.band = .charged step price increment cap stay) (hm : minutesNext h step stay x g = 0) :
    w.rounds h limit target kind (fuel + 1) before = (x, .maxStay) := by
  rw [WalkInput.rounds, hx]
  dsimp only
  rw [if_neg hend, hsegment]
  dsimp only
  rw [hband]
  exact if_pos hm

/-- A round ends at the limit (R49). -/
theorem rounds_limit (hx : w.freePass h walkFuel before = x) (hend : x.t ≠ h) (hsegment : x.segment = some g)
    (hband : g.band = .charged step price increment cap stay) {m c : Nat} (hm : minutesNext h step stay x g = m)
    (hc : costNext kind step price increment cap x g m = c) (hsome : m ≠ 0) (hlimit : limit < x.cost + c) :
    w.rounds h limit target kind (fuel + 1) before = ({ x with tried := c }, .limit) := by
  subst hm hc
  rw [WalkInput.rounds, hx]
  dsimp only
  rw [if_neg hend, hsegment]
  dsimp only
  rw [hband]
  exact (if_neg hsome).trans (if_pos hlimit)

/-- A round buys its step, and ends there where the target is reached (R50). -/
theorem rounds_buys (hx : w.freePass h walkFuel before = x) (hend : x.t ≠ h) (hsegment : x.segment = some g)
    (hband : g.band = .charged step price increment cap stay) {m c : Nat} (hm : minutesNext h step stay x g = m)
    (hc : costNext kind step price increment cap x g m = c) (hsome : m ≠ 0) (hlimit : ¬limit < x.cost + c) :
    w.rounds h limit target kind (fuel + 1) before
      = match target with
        | none => w.rounds h limit target kind fuel (w.bought x g m c)
        | some goal =>
          if goal ≤ (w.bought x g m c).t then (w.freePass h walkFuel (w.bought x g m c), .target)
          else w.rounds h limit target kind fuel (w.bought x g m c) := by
  subst hm hc
  rw [WalkInput.rounds, hx]
  dsimp only
  rw [if_neg hend, hsegment]
  dsimp only
  rw [hband]
  refine (if_neg hsome).trans ((if_neg hlimit).trans ?_)
  cases target <;> rfl

/-- A round that buys its step and reaches the target ends the walk (R50). -/
theorem rounds_reaches (hx : w.freePass h walkFuel before = x) (hend : x.t ≠ h) (hsegment : x.segment = some g)
    (hband : g.band = .charged step price increment cap stay) {m c goal : Nat} (hm : minutesNext h step stay x g = m)
    (hc : costNext kind step price increment cap x g m = c) (hsome : m ≠ 0) (hlimit : x.cost + c ≤ limit) (hgoal : target = some goal)
    (hreached : goal ≤ (w.bought x g m c).t) :
    w.rounds h limit target kind (fuel + 1) before = (w.freePass h walkFuel (w.bought x g m c), .target) := by
  subst hgoal
  exact (rounds_buys hx hend hsegment hband hm hc hsome (Nat.not_lt.mpr hlimit)).trans (if_pos hreached)

/-- A round that buys its step short of the target goes on (R50). -/
theorem rounds_goesOn (hx : w.freePass h walkFuel before = x) (hend : x.t ≠ h) (hsegment : x.segment = some g)
    (hband : g.band = .charged step price increment cap stay) {m c : Nat} (hm : minutesNext h step stay x g = m)
    (hc : costNext kind step price increment cap x g m = c) (hsome : m ≠ 0) (hlimit : x.cost + c ≤ limit)
    (hahead : ∀ goal ∈ target, (w.bought x g m c).t < goal) :
    w.rounds h limit target kind (fuel + 1) before = w.rounds h limit target kind fuel (w.bought x g m c) := by
  have hbuys := rounds_buys (w := w) (target := target) (fuel := fuel) hx hend hsegment hband hm hc hsome (Nat.not_lt.mpr hlimit)
  cases target with
  | none => exact hbuys
  | some goal => exact hbuys.trans (if_neg (Nat.not_le.mpr (hahead goal rfl)))

end

/-! ### What a walk keeps -/

section
variable {w : WalkInput} {h limit : Nat} {target : Option Nat} {kind : Option PermitKind}

/-- What every segment of a free pass keeps, the free pass keeps. -/
theorem freePass_keeps {P : WalkState → Prop}
    (hmove : ∀ (x : WalkState) (g : FoundSegment), P x → x.segment = some g → x.t < h → g.segment.kind = .free →
      P (w.moveTo (min g.segment.ends h) g x))
    {x : WalkState} (hx : P x) (fuel : Nat) : P (w.freePass h fuel x) := by
  induction fuel generalizing x with
  | zero => exact hx
  | succ fuel ih =>
    cases hsegment : x.segment with
    | none => rwa [freePass_stays (by simp [hsegment])]
    | some g =>
      by_cases hgo : x.t < h ∧ g.segment.kind = .free
      · rw [freePass_succ hsegment hgo.1 hgo.2]
        exact ih (hmove x g hx hsegment hgo.1 hgo.2)
      · rwa [freePass_stays (by simpa [hsegment] using hgo)]

/-- A round buys this step of a CHARGED band: it has minutes and is within the limit (R46 to R50). -/
structure Buys (w : WalkInput) (h limit : Nat) (x : WalkState) (g : FoundSegment) (m c : Nat) : Prop where
  segment : x.segment = some g
  some : m ≠ 0
  toEnd : m ≤ (g.segment.ends - x.t) / 60
  toHorizon : m ≤ (h - x.t) / 60
  within : x.cost + c ≤ limit

theorem minutesNext_le (step stay : Nat) (x : WalkState) (g : FoundSegment) :
    minutesNext h step stay x g ≤ (g.segment.ends - x.t) / 60 ∧ minutesNext h step stay x g ≤ (h - x.t) / 60 := by
  unfold minutesNext stepMinutes
  dsimp only
  split <;> omega

/-- Induction over the rounds of a walk: `P` holds before a round, `R` after its free pass, and `Q` at the end. -/
theorem rounds_induction {P R : Nat → WalkState → Prop} {Q : WalkState → EndCause → Prop}
    (hpass : ∀ (n : Nat) (x : WalkState), P (n + 1) x → R (n + 1) (w.freePass h walkFuel x))
    (hzero : ∀ x : WalkState, P 0 x → Q x .horizon)
    (hhorizon : ∀ (n : Nat) (x : WalkState), R (n + 1) x → x.t = h → Q x .horizon)
    (hnoStay : ∀ (n : Nat) (x : WalkState), R (n + 1) x → Q x .noStay)
    (hfree : ∀ (n : Nat) (x : WalkState) (g : FoundSegment), R (n + 1) x → x.t ≠ h → x.segment = some g → g.band = .free →
      Q x .horizon)
    (hmaxStay : ∀ (n : Nat) (x : WalkState), R (n + 1) x → Q x .maxStay)
    (hlimit : ∀ (n : Nat) (x : WalkState) (c : Nat), R (n + 1) x → Q { x with tried := c } .limit)
    (hbuy : ∀ (n : Nat) (x : WalkState) (g : FoundSegment) (m c : Nat), R (n + 1) x → Buys w h limit x g m c →
      P n (w.bought x g m c))
    (htarget : ∀ (n : Nat) (x : WalkState) (g : FoundSegment) (m c goal : Nat), R (n + 1) x → Buys w h limit x g m c →
      target = some goal → goal ≤ (w.bought x g m c).t → Q (w.freePass h walkFuel (w.bought x g m c)) .target)
    (n : Nat) (before : WalkState) (hbefore : P n before) :
    Q (w.rounds h limit target kind n before).1 (w.rounds h limit target kind n before).2 := by
  induction n generalizing before with
  | zero => exact hzero before hbefore
  | succ n ih =>
    have hx := hpass n before hbefore
    generalize hafter : w.freePass h walkFuel before = x at hx
    by_cases hend : x.t = h
    · rw [rounds_horizon hafter hend]
      exact hhorizon n x hx hend
    cases hsegment : x.segment with
    | none =>
      rw [rounds_none hafter hend hsegment]
      exact hnoStay n x hx
    | some g =>
      cases hband : g.band with
      | noStay =>
        rw [rounds_noStay hafter hend hsegment hband]
        exact hnoStay n x hx
      | free =>
        have heq : w.rounds h limit target kind (n + 1) before = (x, .horizon) := by
          rw [WalkInput.rounds, hafter]
          dsimp only
          rw [if_neg hend, hsegment]
          dsimp only
          rw [hband]
        rw [heq]
        exact hfree n x g hx hend hsegment hband
      | charged step price increment cap stay =>
        have hle := minutesNext_le (h := h) step stay x g
        generalize hm : minutesNext h step stay x g = m at hle
        generalize hc : costNext kind step price increment cap x g m = c
        by_cases hsome : m = 0
        · rw [rounds_maxStay hafter hend hsegment hband (hm.trans hsome)]
          exact hmaxStay n x hx
        by_cases hover : limit < x.cost + c
        · rw [rounds_limit hafter hend hsegment hband hm hc hsome hover]
          exact hlimit n x c hx
        have hbuys : Buys w h limit x g m c := ⟨hsegment, hsome, hle.1, hle.2, Nat.not_lt.mp hover⟩
        by_cases hreached : ∃ goal ∈ target, goal ≤ (w.bought x g m c).t
        · obtain ⟨goal, hgoal, hreached⟩ := hreached
          rw [rounds_reaches hafter hend hsegment hband hm hc hsome hbuys.within hgoal hreached]
          exact htarget n x g m c goal hx hbuys hgoal hreached
        · rw [rounds_goesOn hafter hend hsegment hband hm hc hsome hbuys.within fun goal hgoal =>
            Nat.not_le.mp fun hle => hreached ⟨goal, hgoal, hle⟩]
          exact ih _ (hbuy n x g m c hx hbuys)

/-- What every state of a walk keeps: the charged minutes lie between t0 and t, nothing charged costs nothing, the cost is within the
limit, the allowance left is a0 less the charged minutes, and the segment is one found at a time up to t that ends after it (R43). -/
structure WalkSound (t0 limit a0 : Nat) (x : WalkState) : Prop where
  low : t0 + 60 * x.bought ≤ x.t
  free : x.bought = 0 → x.cost = 0
  cost : x.cost ≤ limit
  allowance : x.allowance = a0 - x.bought
  segment : ∀ g ∈ x.segment, x.t < g.segment.ends ∧ g.segment.kind = g.band.segKind

variable {t0 a0 : Nat} {x : WalkState} {g : FoundSegment}

theorem WalkSound.moved (hx : WalkSound t0 limit a0 x) (hsegment : x.segment = some g) {t : Nat} (ht : x.t ≤ t)
    (hend : t ≤ g.segment.ends) : WalkSound t0 limit a0 (w.moveTo t g x) := by
  rw [moveTo_eq]
  refine ⟨hx.low.trans ht, hx.free, hx.cost, hx.allowance, fun g' hg' => ?_⟩
  dsimp only at hg'
  split at hg'
  · have hfound := find_found hg'
    exact ⟨hfound.later, hfound.kind⟩
  · next hne =>
    obtain rfl : g = g' := Option.some.inj (hsegment.symm.trans hg')
    exact ⟨Nat.lt_of_le_of_ne hend hne, (hx.segment g hsegment).2⟩

theorem WalkSound.passed (hx : WalkSound t0 limit a0 x) (fuel : Nat) : WalkSound t0 limit a0 (w.freePass h fuel x) := by
  refine freePass_keeps (fun y g hy hsegment hbefore _ => hy.moved hsegment ?_ (min_le_left _ _)) hx fuel
  have := (hy.segment g hsegment).1
  omega

/-- The free pass does not go back, and charges nothing. -/
theorem freePass_ahead (hx : WalkSound t0 limit a0 x) (fuel : Nat) :
    x.t ≤ (w.freePass h fuel x).t ∧ (w.freePass h fuel x).bought = x.bought := by
  have hkept : WalkSound t0 limit a0 (w.freePass h fuel x) ∧ x.t ≤ (w.freePass h fuel x).t
      ∧ (w.freePass h fuel x).bought = x.bought := by
    refine freePass_keeps (P := fun y => WalkSound t0 limit a0 y ∧ x.t ≤ y.t ∧ y.bought = x.bought) ?_
      ⟨hx, le_rfl, rfl⟩ fuel
    rintro y g ⟨hy, hle, hbought⟩ hsegment hbefore -
    have := (hy.segment g hsegment).1
    refine ⟨hy.moved hsegment (by omega) (min_le_left _ _), ?_, ?_⟩
    · rw [moveTo_eq]
      dsimp only
      omega
    · rw [moveTo_eq]
      exact hbought
  exact hkept.2

theorem bought_t (w : WalkInput) (x : WalkState) (g : FoundSegment) (m c : Nat) : (w.bought x g m c).t = x.t + m * 60 := by
  rw [WalkInput.bought, moveTo_eq]

theorem bought_bought (w : WalkInput) (x : WalkState) (g : FoundSegment) (m c : Nat) :
    (w.bought x g m c).bought = x.bought + m := by
  rw [WalkInput.bought, moveTo_eq]

theorem WalkSound.bought (hx : WalkSound t0 limit a0 x) {m c : Nat} (hbuys : Buys w h limit x g m c) :
    WalkSound t0 limit a0 (w.bought x g m c) := by
  have hlater := (hx.segment g hbuys.segment).1
  have hend := hbuys.toEnd
  have hlow := hx.low
  have hallowance := hx.allowance
  have hsome := hbuys.some
  rw [WalkInput.bought, moveTo_eq]
  refine ⟨?_, fun hnone => ?_, hbuys.within, ?_, fun g' hg' => ?_⟩
  · dsimp only
    omega
  · dsimp only at hnone
    omega
  · dsimp only
    omega
  · dsimp only at hg'
    split at hg'
    · have hfound := find_found hg'
      exact ⟨hfound.later, hfound.kind⟩
    · obtain rfl := Option.some.inj hg'
      dsimp only
      exact ⟨by omega, (hx.segment g hbuys.segment).2⟩

theorem WalkSound.tried (hx : WalkSound t0 limit a0 x) (c : Nat) : WalkSound t0 limit a0 { x with tried := c } :=
  ⟨hx.low, hx.free, hx.cost, hx.allowance, hx.segment⟩

/-- A walk's rounds end in a sound state, and by their target only where they reached it with a step bought (R50). -/
theorem rounds_sound (hx : WalkSound t0 limit a0 x) (fuel : Nat) :
    WalkSound t0 limit a0 (w.rounds h limit target kind fuel x).1
      ∧ ((w.rounds h limit target kind fuel x).2 = .target →
        ∃ goal ∈ target, goal ≤ (w.rounds h limit target kind fuel x).1.t
          ∧ 0 < (w.rounds h limit target kind fuel x).1.bought) := by
  refine rounds_induction (P := fun _ => WalkSound t0 limit a0) (R := fun _ => WalkSound t0 limit a0)
    (Q := fun x cause => WalkSound t0 limit a0 x ∧ (cause = .target → ∃ goal ∈ target, goal ≤ x.t ∧ 0 < x.bought))
    (fun _ _ hx => hx.passed _) (fun _ hx => ⟨hx, fun h => by cases h⟩) (fun _ _ hx _ => ⟨hx, fun h => by cases h⟩)
    (fun _ _ hx => ⟨hx, fun h => by cases h⟩) (fun _ _ _ hx _ _ _ => ⟨hx, fun h => by cases h⟩)
    (fun _ _ hx => ⟨hx, fun h => by cases h⟩) (fun _ _ c hx => ⟨hx.tried c, fun h => by cases h⟩)
    (fun _ _ _ _ _ hx hbuys => hx.bought hbuys) ?_ fuel x hx
  intro _ y g m c goal hy hbuys htarget hgoal
  have hbought := hy.bought hbuys
  obtain ⟨hahead, hsame⟩ := freePass_ahead (w := w) (h := h) hbought walkFuel
  refine ⟨hbought.passed _, fun _ => ⟨goal, htarget, hgoal.trans hahead, ?_⟩⟩
  have hsome := hbuys.some
  rw [hsame, bought_bought]
  omega

/-- What every state of a walk keeps whose times are whole minutes: t is a whole minute up to the horizon, and its segment ends on one
(R42, R43). -/
structure WalkWhole (h : Nat) (x : WalkState) : Prop where
  high : x.t ≤ h
  whole : x.t % 60 = 0
  ends : ∀ g ∈ x.segment, g.segment.ends % 60 = 0

theorem WalkWhole.moved (hpending : ∀ p ∈ w.walk.pending, p.2 % 60 = 0) (hx : WalkWhole h x) (hsegment : x.segment = some g)
    {t : Nat} (ht : t ≤ h) (hwhole : t % 60 = 0) : WalkWhole h (w.moveTo t g x) := by
  rw [moveTo_eq]
  refine ⟨ht, hwhole, fun g' hg' => ?_⟩
  dsimp only at hg'
  split at hg'
  · exact find_whole hpending hg' hwhole
  · obtain rfl : g = g' := Option.some.inj (hsegment.symm.trans hg')
    exact hx.ends g hsegment

theorem WalkWhole.moved_free (hpending : ∀ p ∈ w.walk.pending, p.2 % 60 = 0) (hh : h % 60 = 0) (hx : WalkWhole h x)
    (hsegment : x.segment = some g) : WalkWhole h (w.moveTo (min g.segment.ends h) g x) := by
  have hends := hx.ends g hsegment
  exact hx.moved hpending hsegment (min_le_right _ _) (by omega)

theorem WalkWhole.passed (hpending : ∀ p ∈ w.walk.pending, p.2 % 60 = 0) (hh : h % 60 = 0) (hx : WalkWhole h x) (fuel : Nat) :
    WalkWhole h (w.freePass h fuel x) :=
  freePass_keeps (fun _ _ hy hsegment _ _ => hy.moved_free hpending hh hsegment) hx fuel

/-- With a fuel of one for each minute to the horizon the free pass ends at the horizon or at a segment that is not FREE (R44). -/
theorem freePass_ends (hpending : ∀ p ∈ w.walk.pending, p.2 % 60 = 0) (hh : h % 60 = 0) (hx : WalkWhole h x)
    (hsound : WalkSound t0 limit a0 x) (fuel : Nat) (hfuel : h ≤ x.t + 60 * fuel) :
    ∀ g ∈ (w.freePass h fuel x).segment, (w.freePass h fuel x).t < h → g.segment.kind ≠ .free := by
  induction fuel generalizing x with
  | zero =>
    intro g _ hbefore
    rw [WalkInput.freePass] at hbefore
    omega
  | succ fuel ih =>
    by_cases hgo : ∃ g ∈ x.segment, x.t < h ∧ g.segment.kind = .free
    · obtain ⟨g, hsegment, hbefore, hfree⟩ := hgo
      rw [freePass_succ hsegment hbefore hfree]
      have hlater := (hsound.segment g hsegment).1
      have hends := hx.ends g hsegment
      have hwhole := hx.whole
      refine ih (hx.moved_free hpending hh hsegment) (hsound.moved hsegment (by omega) (min_le_left _ _)) ?_
      rw [moveTo_eq]
      dsimp only
      omega
    · rw [freePass_stays fun g hg hfree => hgo ⟨g, hg, hfree⟩]
      exact fun g hg hbefore hfree => hgo ⟨g, hg, hbefore, hfree⟩

theorem WalkWhole.bought (hpending : ∀ p ∈ w.walk.pending, p.2 % 60 = 0) (hx : WalkWhole h x) {m c : Nat}
    (hbuys : Buys w h limit x g m c) : WalkWhole h (w.bought x g m c) := by
  have hwhole := hx.whole
  have hhorizon := hbuys.toHorizon
  have hhigh := hx.high
  rw [WalkInput.bought, moveTo_eq]
  refine ⟨?_, ?_, fun g' hg' => ?_⟩
  · dsimp only
    omega
  · dsimp only
    omega
  · dsimp only at hg'
    split at hg'
    · exact find_whole hpending hg' (by omega)
    · obtain rfl := Option.some.inj hg'
      exact hx.ends g hbuys.segment

/-- The rounds of a walk on whole minutes end on one up to the horizon, and at it where they end by it (R45). -/
theorem rounds_whole (hpending : ∀ p ∈ w.walk.pending, p.2 % 60 = 0) (hh : h % 60 = 0) (hfar : h ≤ t0 + 60 * walkFuel)
    (hsound : WalkSound t0 limit a0 x) (hx : WalkWhole h x) (fuel : Nat) (hfuel : h < x.t + 60 * fuel) :
    WalkWhole h (w.rounds h limit target kind fuel x).1
      ∧ ((w.rounds h limit target kind fuel x).2 = .horizon → (w.rounds h limit target kind fuel x).1.t = h) := by
  refine rounds_induction
    (P := fun n x => WalkSound t0 limit a0 x ∧ WalkWhole h x ∧ h < x.t + 60 * n)
    (R := fun n x => WalkSound t0 limit a0 x ∧ WalkWhole h x ∧ h < x.t + 60 * n
      ∧ ∀ g ∈ x.segment, x.t < h → g.segment.kind ≠ .free)
    (Q := fun x cause => WalkWhole h x ∧ (cause = .horizon → x.t = h))
    ?_ ?_ (fun _ _ hx hend => ⟨hx.2.1, fun _ => hend⟩) (fun _ _ hx => ⟨hx.2.1, fun h => by cases h⟩) ?_
    (fun _ _ hx => ⟨hx.2.1, fun h => by cases h⟩) ?_ ?_ ?_ fuel x ⟨hsound, hx, hfuel⟩
  · rintro n y ⟨hsound, hy, hfuel⟩
    have hahead := (freePass_ahead (w := w) (h := h) hsound walkFuel).1
    have hlow := hsound.low
    exact ⟨hsound.passed _, hy.passed hpending hh _, by omega,
      freePass_ends hpending hh hy hsound walkFuel (by omega)⟩
  · rintro y ⟨-, hy, hfuel⟩
    have := hy.high
    omega
  · rintro n y g ⟨hsound, hy, -, hpassed⟩ hend hsegment hband
    have hkind := (hsound.segment g hsegment).2
    rw [hband] at hkind
    exact absurd hkind (hpassed g hsegment (Nat.lt_of_le_of_ne hy.high hend))
  · rintro n y c ⟨-, hy, -⟩
    exact ⟨⟨hy.high, hy.whole, hy.ends⟩, fun h => by cases h⟩
  · rintro n y g m c ⟨hsound, hy, hfuel, -⟩ hbuys
    have hsome := hbuys.some
    refine ⟨hsound.bought hbuys, hy.bought hpending hbuys, ?_⟩
    rw [bought_t]
    omega
  · rintro n y g m c goal ⟨-, hy, -⟩ hbuys - -
    exact ⟨(hy.bought hpending hbuys).passed hpending hh _, fun h => by cases h⟩

end

/-! ### Whole walks -/

/-- The state that a walk's rounds begin with (R43). -/
def WalkInput.begins (w : WalkInput) : WalkState :=
  { t := w.walk.entry.start, cost := 0, bought := 0, allowance := w.walk.a0, k := 0, segment := w.find 0 w.walk.entry.start,
    finding := 1, lastPlan := none, tried := 0 }

/-- The state and the cause that a walk's rounds end with. -/
def WalkInput.ended (w : WalkInput) : WalkState × EndCause :=
  w.rounds (horizon w.walk.entry.start) (walkLimit w.walk.entry.ask) (walkTarget w.walk.entry.start w.walk.entry.ask)
    (w.walk.entry.permit.map (·.2)) walkFuel w.begins

/-- A walk that ends before any round: no money and no allowance (R39). -/
def WalkInput.broke (w : WalkInput) : Prop := w.walk.entry.ask = .byAmount 0 ∧ w.walk.a0 = 0

section
variable {w : WalkInput}

theorem begins_sound (w : WalkInput) : WalkSound w.walk.entry.start (walkLimit w.walk.entry.ask) w.walk.a0 w.begins :=
  ⟨le_rfl, fun _ => rfl, Nat.zero_le _, rfl, fun _ hg => ⟨(find_found hg).later, (find_found hg).kind⟩⟩

theorem ended_sound (w : WalkInput) : WalkSound w.walk.entry.start (walkLimit w.walk.entry.ask) w.walk.a0 w.ended.1 :=
  (rounds_sound (begins_sound w) walkFuel).1

theorem ended_target (h : w.ended.2 = .target) :
    ∃ goal ∈ walkTarget w.walk.entry.start w.walk.entry.ask, goal ≤ w.ended.1.t ∧ 0 < w.ended.1.bought :=
  (rounds_sound (begins_sound w) walkFuel).2 h

theorem run_broke (h : w.broke) :
    w.run.outcome = .noTender ∧ w.run.expiry = w.walk.entry.start ∧ w.run.cost = 0 ∧ w.run.minutes = 0 ∧ w.run.used = 0
      ∧ w.run.cause = .limit := by
  have hbroke : w.walk.entry.ask = .byAmount 0 ∧ w.walk.a0 = 0 := h
  unfold WalkInput.run
  dsimp only
  rw [if_pos hbroke]
  exact ⟨rfl, rfl, rfl, rfl, rfl, rfl⟩

theorem run_ended (h : ¬w.broke) :
    w.run.outcome = outcomeOf w.walk.entry.ask w.walk.entry.start w.ended.1 w.ended.2 ∧ w.run.expiry = w.ended.1.t
      ∧ w.run.cost = w.ended.1.cost ∧ w.run.minutes = w.ended.1.bought ∧ w.run.used = w.walk.a0 - w.ended.1.allowance
      ∧ w.run.cause = w.ended.2 ∧ w.run.tried = w.ended.1.tried := by
  have hrounds : ¬(w.walk.entry.ask = .byAmount 0 ∧ w.walk.a0 = 0) := h
  unfold WalkInput.run
  dsimp only
  rw [if_neg hrounds]
  exact ⟨rfl, rfl, rfl, rfl, rfl, rfl, rfl⟩

end

theorem ended_whole {w : WalkInput} (hstart : w.walk.entry.start % 60 = 0) (hlast : w.walk.entry.start ≤ Config.lastMinute)
    (hpending : ∀ p ∈ w.walk.pending, p.2 % 60 = 0) :
    WalkWhole (horizon w.walk.entry.start) w.ended.1
      ∧ (w.ended.2 = .horizon → w.ended.1.t = horizon w.walk.entry.start) := by
  have hhorizon : horizon w.walk.entry.start = min (w.walk.entry.start + 86400) 4294967280 := rfl
  have hlast' : w.walk.entry.start ≤ 4294967280 := hlast
  have hfuel : walkFuel = 1442 := rfl
  have hbegin : w.begins.t = w.walk.entry.start := rfl
  refine rounds_whole hpending (by omega) (by omega) (begins_sound w) ⟨?_, hstart, fun g hg => find_whole hpending hg hstart⟩ _
    (by omega)
  omega

/-- Settles O18: the rounds keep `WalkSound` and `WalkWhole`, and a walk with no money and no allowance charges nothing. -/
theorem walksKeepTheTariffLaw : Obligations.WalksKeepTheTariffLaw := by
  intro w hstart hlast hpending r
  have hlast' : w.walk.entry.start ≤ 4294967280 := hlast
  by_cases hbroke : w.broke
  · obtain ⟨-, hexpiry, hcost, hminutes, hused, hcause⟩ := run_broke hbroke
    rw [show r = w.run from rfl, hexpiry, hcost, hminutes, hused, hcause]
    refine ⟨by omega, by omega, hlast', hstart, fun _ _ => Nat.zero_le _, fun _ _ => Nat.zero_le _, ?_, fun h => by cases h⟩
    rw [Nat.min_zero]
  · obtain ⟨-, hexpiry, hcost, hminutes, hused, hcause, -⟩ := run_ended hbroke
    have hsound := ended_sound w
    obtain ⟨hwhole, hend⟩ := ended_whole hstart hlast hpending
    have hhigh : w.ended.1.t ≤ min (w.walk.entry.start + 86400) 4294967280 := hwhole.high
    rw [show r = w.run from rfl, hexpiry, hcost, hminutes, hused, hcause]
    refine ⟨hsound.low, hhigh.trans (min_le_left _ _), hhigh.trans (min_le_right _ _), hwhole.whole, fun amount hask => ?_, fun d hask => ?_, ?_, hend⟩
    · have hlimit := hsound.cost
      rwa [hask] at hlimit
    · have hlimit := hsound.cost
      rwa [hask] at hlimit
    · have hallowance := hsound.allowance
      omega

/-! ### Outcomes -/

/-- The outcome of a BY_DURATION walk (R51, R52). -/
theorem outcomeOf_byDuration {d t0 : Nat} {x : WalkState} {cause : EndCause} :
    outcomeOf (.byDuration d) t0 x cause
      = if cause = .target then .ok else if cause = .noStay ∧ x.t = t0 ∨ x.bought = 0 then .noSale else .clamped := by
  unfold outcomeOf
  cases cause <;> simp
  by_cases ht : x.t = t0 <;> simp [ht]

/-- The outcome of a BY_AMOUNT walk with money or allowance (R51, R52). -/
theorem outcomeOf_byAmount {amount t0 : Nat} {x : WalkState} {cause : EndCause} :
    outcomeOf (.byAmount amount) t0 x cause
      = if cause = .noStay ∧ x.t = t0 then .noSale else if x.bought = 0 then .belowMinimum else .ok := rfl

theorem outcomeOf_ne_noTender (ask : Ask) (t0 : Nat) (x : WalkState) (cause : EndCause) : outcomeOf ask t0 x cause ≠ .noTender := by
  cases ask with
  | byAmount amount =>
    rw [outcomeOf_byAmount]
    split
    · simp
    · split <;> simp
  | byDuration d =>
    rw [outcomeOf_byDuration]
    split
    · simp
    · split <;> simp

section
variable {w : WalkInput}

/-- A walk has the outcome NO_TENDER exactly where it ends before any round (R39, R51). -/
theorem run_noTender_iff : w.run.outcome = .noTender ↔ w.broke := by
  constructor
  · intro h
    by_contra hbroke
    rw [(run_ended hbroke).1] at h
    exact outcomeOf_ne_noTender _ _ _ _ h
  · exact fun hbroke => (run_broke hbroke).1

theorem not_broke_of_byDuration {d : Nat} (hask : w.walk.entry.ask = .byDuration d) : ¬w.broke := by
  rintro ⟨hamount, -⟩
  rw [hask] at hamount
  cases hamount

/-- The outcomes of a BY_DURATION walk (R51, R52). -/
theorem run_byDuration {d : Nat} (hask : w.walk.entry.ask = .byDuration d) :
    (w.run.outcome = .ok ↔ w.run.cause = .target) ∧ (w.run.outcome = .ok → w.walk.entry.start + d * 60 ≤ w.run.expiry)
      ∧ (w.run.outcome = .ok ∨ w.run.outcome = .clamped ∨ w.run.outcome = .noSale) := by
  obtain ⟨houtcome, hexpiry, -, -, -, hcause, -⟩ := run_ended (not_broke_of_byDuration hask)
  rw [hask, outcomeOf_byDuration] at houtcome
  rw [houtcome, hexpiry, hcause]
  by_cases htarget : w.ended.2 = .target
  · rw [if_pos htarget]
    refine ⟨by simp [htarget], fun _ => ?_, .inl rfl⟩
    obtain ⟨goal, hgoal, hreached, -⟩ := ended_target htarget
    rw [hask] at hgoal
    obtain rfl := Option.some.inj hgoal
    exact hreached
  · rw [if_neg htarget]
    split <;> simp [htarget]

/-- The outcomes of a BY_AMOUNT walk (R51, R52). -/
theorem run_byAmount {amount : Nat} (hask : w.walk.entry.ask = .byAmount amount) :
    w.run.cause ≠ .target
      ∧ (w.run.outcome = .ok ∨ w.run.outcome = .noTender ∨ w.run.outcome = .noSale ∨ w.run.outcome = .belowMinimum)
      ∧ (w.run.outcome = .noTender ↔ amount = 0 ∧ w.walk.a0 = 0) := by
  have hiff : w.broke ↔ amount = 0 ∧ w.walk.a0 = 0 := by
    rw [WalkInput.broke, hask, Ask.byAmount.injEq]
  refine ⟨fun htarget => ?_, ?_, run_noTender_iff.trans hiff⟩
  · by_cases hbroke : w.broke
    · rw [(run_broke hbroke).2.2.2.2.2] at htarget
      cases htarget
    · obtain ⟨-, -, -, -, -, hcause, -⟩ := run_ended hbroke
      obtain ⟨goal, hgoal, -⟩ := ended_target (hcause.symm.trans htarget)
      rw [hask] at hgoal
      cases hgoal
  · by_cases hbroke : w.broke
    · exact .inr (.inl (run_broke hbroke).1)
    · rw [(run_ended hbroke).1, hask, outcomeOf_byAmount]
      split
      · simp
      · split <;> simp

/-- Where a walk has charged no minute its cost is 0 (R53). -/
theorem run_cost_eq_zero (h : w.run.minutes = 0) : w.run.cost = 0 := by
  by_cases hbroke : w.broke
  · exact (run_broke hbroke).2.2.1
  · obtain ⟨-, -, hcost, hminutes, -⟩ := run_ended hbroke
    rw [hcost]
    exact (ended_sound w).free (hminutes.symm.trans h)

/-- The outcomes by the charged minutes (R51, R52). -/
theorem run_minutes (w : WalkInput) :
    (w.run.outcome = .clamped → 0 < w.run.minutes) ∧ (w.run.outcome = .ok → 0 < w.run.minutes)
      ∧ (w.run.outcome = .noTender ∨ w.run.outcome = .noSale ∨ w.run.outcome = .belowMinimum → w.run.minutes = 0) := by
  by_cases hbroke : w.broke
  · obtain ⟨houtcome, -, -, hminutes, -⟩ := run_broke hbroke
    rw [houtcome, hminutes]
    simp
  obtain ⟨houtcome, -, -, hminutes, -⟩ := run_ended hbroke
  have hlow := (ended_sound w).low
  have hnone (hstart : w.ended.1.t = w.walk.entry.start) : w.ended.1.bought = 0 := by omega
  rw [houtcome, hminutes]
  cases hask : w.walk.entry.ask with
  | byAmount amount =>
    rw [outcomeOf_byAmount]
    split
    · next hstart => simp [hnone hstart.2]
    · split
      · next hbought => simp [hbought]
      · next hbought => simp [Nat.pos_of_ne_zero hbought]
  | byDuration d =>
    rw [outcomeOf_byDuration]
    split
    · next htarget =>
      obtain ⟨-, -, -, hbought⟩ := ended_target htarget
      simp [hbought]
    · split
      · next hsale =>
        have hzero : w.ended.1.bought = 0 := hsale.elim (fun hstart => hnone hstart.2) id
        simp [hzero]
      · next hsale =>
        have hbought : w.ended.1.bought ≠ 0 := fun hzero => hsale (.inr hzero)
        simp [Nat.pos_of_ne_zero hbought]

end

/-! ### The rounds as the rules say them -/

/-- The minutes of a step (R46). -/
theorem minutesNext_eq (h step stay : Nat) (x : WalkState) (g : FoundSegment) :
    minutesNext h step stay x g
      = if stay = 0 then min step (min ((g.segment.ends - x.t) / 60) ((h - x.t) / 60))
        else min (min step (min ((g.segment.ends - x.t) / 60) ((h - x.t) / 60))) (stay - x.bought) := by
  unfold minutesNext stepMinutes
  by_cases hstay : stay = 0
  · simp [hstay]
  · simp [hstay, Nat.pos_of_ne_zero hstay]

/-- One segment of the free pass, as R44 says it. -/
theorem freePass_free {w : WalkInput} {h fuel : Nat} {x : WalkState} {g : FoundSegment} (hsegment : x.segment = some g)
    (hbefore : x.t < h) (hfree : g.segment.kind = .free) :
    w.freePass h (fuel + 1) x
      = w.freePass h fuel
          (if h < g.segment.ends then { x with t := h }
          else
            { x with
              t := g.segment.ends, k := 0, segment := w.find x.finding g.segment.ends, finding := x.finding + 1 }) := by
  rw [freePass_succ hsegment hbefore hfree, WalkInput.moveTo]
  by_cases hshort : h < g.segment.ends
  · rw [if_pos hshort, Nat.min_eq_right (Nat.le_of_lt hshort), if_neg (Nat.ne_of_lt hshort)]
  · rw [if_neg hshort, Nat.min_eq_left (Nat.not_lt.mp hshort), if_pos rfl]

/-- Settles O19: the figures are those of `WalkInput.ended`, whose state is sound, and a round is one of the cases of `rounds`. -/
theorem walkOutcomes : Obligations.WalkOutcomes := by
  intro w r
  obtain ⟨hclamped, hok, hnone⟩ := run_minutes w
  refine ⟨fun d hask => run_byDuration hask, fun amount hask => run_byAmount hask, hclamped, hok,
    fun hsold => ⟨hnone hsold, run_cost_eq_zero (hnone hsold)⟩, fun hbroke => ?_, fun i t g hfound => ?_,
    fun h fuel x g hsegment => ⟨fun hbefore hfree => freePass_free hsegment hbefore hfree, fun hstay => ?_⟩,
    fun h limit target kind fuel before => ?_⟩
  · obtain ⟨-, hexpiry, hcost, hminutes, hused, hcause, htried⟩ := run_ended (w := w) hbroke
    exact ⟨hcause, hexpiry, hcost, hminutes, hused, htried⟩
  · exact ⟨(find_found hfound).later, (find_found hfound).kind⟩
  · refine freePass_stays fun g' hg' hgo => ?_
    obtain rfl : g = g' := Option.some.inj (hsegment.symm.trans hg')
    rcases hstay with hpast | hkind
    · exact absurd hgo.1 (Nat.not_lt.mpr hpast)
    · exact hkind hgo.2
  · intro x round
    have hx : w.freePass h walkFuel before = x := rfl
    refine ⟨fun hend => rounds_horizon hx hend, fun g hsegment hend => ⟨fun hband => rounds_noStay hx hend hsegment hband, ?_⟩⟩
    intro step price increment cap stay hband least m percent c ends next
    have hm : minutesNext h step stay x g = m := minutesNext_eq h step stay x g
    have hpercent : discountFor g.discounts kind = percent := by
      cases kind with
      | none => rfl
      | some k => cases k <;> rfl
    have hc : costNext kind step price increment cap x g m = c := by
      rw [costNext, hpercent]
    have hnext : w.bought x g m c = next := by
      rw [WalkInput.bought, moveTo_eq]
    refine ⟨fun hzero => rounds_maxStay hx hend hsegment hband (hm.trans hzero),
      fun hsome hlimit => rounds_limit hx hend hsegment hband hm hc hsome hlimit,
      fun hsome hlimit => ⟨fun goal hgoal hreached => ?_, fun hahead => ?_⟩⟩
    · rw [← hnext]
      exact rounds_reaches hx hend hsegment hband hm hc hsome hlimit hgoal (by rw [hnext]; exact hreached)
    · rw [← hnext]
      exact rounds_goesOn hx hend hsegment hband hm hc hsome hlimit (by rw [hnext]; exact hahead)

end Sys2Proof.Machine
end

section
/-!
PROOFS. The bytes of chapter 12: numbers are read back from their bytes (R182), frames from their length and CRC (R183), and each
request, answer and offer from its body (R184, R185).
-/

namespace Sys2Proof.Machine

open Sys2Proof

/-! ### Numbers -/

/-- One byte of a number, the least significant being the 0th. -/
def byteAt (i n : Nat) : Byte := BitVec.ofNat 8 (n / 256 ^ i)

theorem numBytes_succ (w n : Nat) : numBytes (w + 1) n = byteAt w n :: numBytes w n := rfl

theorem length_numBytes (w n : Nat) : (numBytes w n).length = w := by
  induction w with
  | zero => rfl
  | succ w ih => rw [numBytes_succ, List.length_cons, ih]

theorem foldl_numBytes (w n acc : Nat) :
    (numBytes w n).foldl (fun m b => m * 256 + b.toNat) acc = acc * 256 ^ w + n % 256 ^ w := by
  induction w generalizing acc with
  | zero => simp [numBytes, Nat.mod_one]
  | succ w ih =>
    have hbyte : (byteAt w n).toNat = n / 256 ^ w % 256 := BitVec.toNat_ofNat _ _
    have hsplit : n % 256 ^ (w + 1) = n % 256 ^ w + 256 ^ w * (n / 256 ^ w % 256) := by
      rw [Nat.pow_succ, Nat.mod_mul]
    rw [numBytes_succ, List.foldl_cons, ih, hbyte, hsplit]
    ring

/-- A number that fits its bytes is read back from them (R182). -/
theorem number_numBytes {w n : Nat} (h : n < 256 ^ w) : number (numBytes w n) = n := by
  rw [number, foldl_numBytes, Nat.zero_mul, Nat.zero_add, Nat.mod_eq_of_lt h]

theorem toNat_byteAt {n : Nat} (h : n < 256) : (byteAt 0 n).toNat = n := by
  have hbyte : (byteAt 0 n).toNat = n / 256 ^ 0 % 256 := BitVec.toNat_ofNat _ _
  rw [hbyte, Nat.pow_zero, Nat.div_one, Nat.mod_eq_of_lt h]

theorem numBytes_one (n : Nat) : numBytes 1 n = [BitVec.ofNat 8 n] := by
  rw [numBytes_succ, byteAt, Nat.pow_zero, Nat.div_one]
  rfl

/-- A signed number of two bytes is read back from its two's complement (R185; log entry 44). -/
theorem signed2_signedBytes {o : Int} (h : wfOffset o = true) : signed2 (number (signedBytes 2 o)) = o := by
  simp only [wfOffset, Bool.and_eq_true, decide_eq_true_eq] at h
  have hlt : (o % (256 ^ 2 : Nat)).toNat < 256 ^ 2 := by omega
  rw [signedBytes, number_numBytes hlt, signed2]
  split <;> omega

theorem length_signedBytes (w : Nat) (o : Int) : (signedBytes w o).length = w := length_numBytes w _

theorem toNat_ofNat_byte {n : Nat} (h : n < 256) : (BitVec.ofNat 8 n).toNat = n := by
  rw [BitVec.toNat_ofNat, Nat.mod_eq_of_lt h]

/-! ### Frames -/

theorem length_crcBytes (bytes : List Byte) : (crcBytes bytes).length = 2 := length_numBytes 2 _

/-- A frame of a UART port is read back whole where its body has room (R161, R169, R183). -/
theorem readFrame_uartFrame {most kind tag : Nat} {body : List Byte} (hkind : kind < 256) (htag : tag < 256)
    (hbody : body.length ≤ most) (hmost : most < 65536) : readFrame most (uartFrame kind tag body) = .whole kind tag body := by
  have hlength : number (numBytes 2 body.length) = body.length := number_numBytes (by omega)
  have hnumber : number [byteAt 1 body.length, byteAt 0 body.length] = body.length := hlength
  have hframe : uartFrame kind tag body
      = 0x7E :: byteAt 1 body.length :: byteAt 0 body.length :: byteAt 0 kind :: byteAt 0 tag
          :: (body ++ crcBytes (byteAt 1 body.length :: byteAt 0 body.length :: byteAt 0 kind :: byteAt 0 tag :: body)) := rfl
  have hall : ¬(body ++ crcBytes (byteAt 1 body.length :: byteAt 0 body.length :: byteAt 0 kind :: byteAt 0 tag :: body)).length
      < body.length + 2 := by
    rw [List.length_append, length_crcBytes]
    omega
  rw [hframe, readFrame, hnumber, if_neg (not_not.mpr rfl), if_neg (Nat.not_lt.mpr hbody), if_neg hall, List.take_left, List.drop_left,
    List.take_of_length_le (length_crcBytes _).le, if_neg (not_not.mpr rfl), toNat_byteAt hkind, toNat_byteAt htag]

/-- The contents of a kerb frame are read back where their length fits its byte (R136, R183, R184). -/
theorem kerbContents_kerbFrame {kind : Nat} {contents : List Byte} (hkind : kind < 256) (hlength : contents.length < 256) :
    kerbContents kind (kerbFrame kind contents) = some contents := by
  have hframe : kerbFrame kind contents
      = BitVec.ofNat 8 kind :: BitVec.ofNat 8 contents.length
          :: (contents ++ crcBytes (BitVec.ofNat 8 contents.length :: contents)) := rfl
  rw [hframe, kerbContents, toNat_ofNat_byte hkind, toNat_ofNat_byte hlength, if_neg, List.take_left, List.drop_left,
    if_neg (not_not.mpr rfl)]
  rw [List.length_append, length_crcBytes]
  simp

theorem length_kerbFrame (kind : Nat) (contents : List Byte) : (kerbFrame kind contents).length = contents.length + 4 := by
  simp [kerbFrame, length_crcBytes]

/-! ### Lists of numbers and plates -/

theorem length_flatMap_numBytes (w : Nat) (ns : List Nat) : (ns.flatMap (numBytes w)).length = w * ns.length := by
  induction ns with
  | nil => rfl
  | cons n rest ih => rw [List.flatMap_cons, List.length_append, ih, length_numBytes, List.length_cons, Nat.mul_succ, Nat.add_comm]

theorem numbers2_flatMap {ns : List Nat} (h : ∀ n ∈ ns, n < 65536) : numbers2 (ns.flatMap (numBytes 2)) = ns := by
  induction ns with
  | nil => rfl
  | cons n rest ih =>
    have hcons : numbers2 ((n :: rest).flatMap (numBytes 2)) = number (numBytes 2 n) :: numbers2 (rest.flatMap (numBytes 2)) := rfl
    rw [hcons, number_numBytes (h n (by simp)), ih fun m hm => h m (by simp [hm])]

theorem map_toNat_flatMap {ns : List Nat} (h : ∀ n ∈ ns, n < 256) : (ns.flatMap (numBytes 1)).map BitVec.toNat = ns := by
  induction ns with
  | nil => rfl
  | cons n rest ih =>
    have hcons : ((n :: rest).flatMap (numBytes 1)).map BitVec.toNat
        = (byteAt 0 n).toNat :: (rest.flatMap (numBytes 1)).map BitVec.toNat := rfl
    rw [hcons, toNat_byteAt (h n (by simp)), ih fun m hm => h m (by simp [hm])]

theorem readPlate_plateBytes {p : Plate} (h : p.length < 256) : readPlate (plateBytes p) = some p := by
  rw [plateBytes, readPlate, toNat_ofNat_byte h, if_pos rfl]

theorem length_plateBytes (p : Plate) : (plateBytes p).length = p.length + 1 := rfl

theorem allLe_iff (bound : Nat) (v : Six) : v.allLe bound = true ↔ ∀ n ∈ v.toList, n ≤ bound := by
  simp [Six.allLe]

theorem readSix_flatMap {v : Six} (h : v.allLe 65535 = true) : readSix (v.toList.flatMap (numBytes 2)) = some v := by
  have hfit : ∀ n ∈ v.toList, n < 65536 := fun n hn => Nat.lt_succ_of_le ((allLe_iff _ v).mp h n hn)
  rw [readSix, numbers2_flatMap hfit]
  exact if_pos (length_flatMap_numBytes 2 v.toList)

theorem length_bandBytes (b : BandEntry) : (BandEntry.bytes b).length = 12 := by
  simp [BandEntry.bytes, length_numBytes]

theorem length_flatMap_bandBytes (bands : List BandEntry) : (bands.flatMap BandEntry.bytes).length = 12 * bands.length := by
  induction bands with
  | nil => rfl
  | cons b rest ih => rw [List.flatMap_cons, List.length_append, ih, length_bandBytes, List.length_cons, Nat.mul_succ, Nat.add_comm]

theorem fits_iff (w n : Nat) : fits w n = true ↔ n < 256 ^ w := decide_eq_true_iff

/-- Band entries are read back (section 12.3). -/
theorem bandEntries_flatMap {bands : List BandEntry} (h : ∀ b ∈ bands, b.wf = true) :
    bandEntries (bands.flatMap BandEntry.bytes) = bands := by
  induction bands with
  | nil => rfl
  | cons b rest ih =>
    have hb := h b (by simp)
    simp only [BandEntry.wf, Bool.and_eq_true, fits_iff] at hb
    obtain ⟨⟨⟨⟨⟨⟨hstart, hkind⟩, hstep⟩, hprice⟩, hincrement⟩, hcap⟩, hstay⟩ := hb
    have hcons : bandEntries ((b :: rest).flatMap BandEntry.bytes)
        = { start := number (numBytes 2 b.start), kind := (byteAt 0 b.kind).toNat, step := (byteAt 0 b.step).toNat,
            price := number (numBytes 2 b.price), increment := number (numBytes 2 b.increment),
            cap := number (numBytes 2 b.cap), stay := number (numBytes 2 b.stay) }
          :: bandEntries (rest.flatMap BandEntry.bytes) := rfl
    rw [hcons, ih fun c hc => h c (by simp [hc]), number_numBytes hstart, toNat_byteAt hkind, toNat_byteAt hstep,
      number_numBytes hprice, number_numBytes hincrement, number_numBytes hcap, number_numBytes hstay]

/-! ### Office requests -/

/-- The switch time that the mode byte and the number give back (R185). -/
theorem switch_readBack (switch : Option Nat) :
    (if flagByte switch.isSome = 0 then none else some (switch.getD 0)) = switch := by
  cases switch with
  | none => rfl
  | some t => exact if_neg (show ¬flagByte true = 0 by decide)

/-- A well-formed office request has a kind and a tag of one byte and a body within the port's bound (R161, R185). -/
theorem officeRequest_fits {i : Instr} {kind tag : Nat} {body : List Byte} (hwf : i.wf = true)
    (h : officeRequestBytes i = some (kind, tag, body)) : kind < 256 ∧ tag < 256 ∧ body.length ≤ 1024 := by
  cases i
  case clockSet src time offset =>
    cases src <;> cases h
    simp only [Instr.wf, Source.wf, Bool.and_eq_true, fits_iff] at hwf
    simp only [List.length_append, length_numBytes, length_signedBytes]
    omega
  case faultAck src slot fault =>
    cases src <;> cases h
    simp only [Instr.wf, Source.wf, Bool.and_eq_true, fits_iff] at hwf
    simp only [List.length_append, length_numBytes]
    omega
  case profilePut tag plan profile bands =>
    cases h
    simp only [Instr.wf, Bool.and_eq_true, fits_iff] at hwf
    have hroom : 3 + 12 * bands.length ≤ 1024 := of_decide_eq_true hwf.1.2
    simp only [List.length_append, length_numBytes, length_flatMap_bandBytes]
    omega
  all_goals
    cases h
    try
      simp only [Instr.wf, wfPlate, Bool.and_eq_true, decide_eq_true_eq, fits_iff] at hwf
      simp only [List.length_append, length_numBytes, length_flatMap_numBytes, length_plateBytes,
        List.length_cons, List.length_nil, Six.toList]
      omega

/-- The body of a well-formed office request is read back (R185). -/
theorem officeBody_readBack {i : Instr} {kind tag : Nat} {body : List Byte} (hwf : i.wf = true)
    (h : officeRequestBytes i = some (kind, tag, body)) : officeBody tag kind body = some i := by
  cases i
  case clockSet src time offset =>
    cases src <;> cases h
    simp only [Instr.wf, Bool.and_eq_true, fits_iff] at hwf
    change some (Instr.clockSet _ (number (numBytes 4 time)) (signed2 (number (signedBytes 2 offset)))) = _
    rw [number_numBytes hwf.1.2, signed2_signedBytes hwf.2]
  case clockGet => cases h; rfl
  case holidaysPut tag days =>
    cases h
    simp only [Instr.wf, Bool.and_eq_true, fits_iff, List.all_eq_true] at hwf
    change (if (days.flatMap (numBytes 2)).length = 2 * (byteAt 0 days.length).toNat then
      some (Instr.holidaysPut _ (numbers2 (days.flatMap (numBytes 2)))) else none) = _
    rw [toNat_byteAt hwf.1.2, if_pos (length_flatMap_numBytes 2 days), numbers2_flatMap hwf.2]
  case planBegin tag plan =>
    cases h
    simp only [Instr.wf, Bool.and_eq_true, fits_iff] at hwf
    change some (Instr.planBegin _ (byteAt 0 plan).toNat) = _
    rw [toNat_byteAt hwf.2]
  case profilePut tag plan profile bands =>
    cases h
    simp only [Instr.wf, Bool.and_eq_true, fits_iff, List.all_eq_true] at hwf
    obtain ⟨⟨⟨⟨-, hplan⟩, hprofile⟩, hroom⟩, hbands⟩ := hwf
    have hbound : 3 + 12 * bands.length ≤ 1024 := of_decide_eq_true hroom
    change (if (bands.flatMap BandEntry.bytes).length = 12 * (byteAt 0 bands.length).toNat then
      some (Instr.profilePut _ (byteAt 0 plan).toNat (byteAt 0 profile).toNat (bandEntries (bands.flatMap BandEntry.bytes)))
      else none) = _
    rw [toNat_byteAt (by omega), if_pos (length_flatMap_bandBytes bands), toNat_byteAt hplan, toNat_byteAt hprofile,
      bandEntries_flatMap hbands]
  case planClose tag plan r v b =>
    cases h
    simp only [Instr.wf, Bool.and_eq_true, fits_iff] at hwf
    obtain ⟨⟨⟨⟨-, hplan⟩, hr⟩, hv⟩, hb⟩ := hwf
    change some (Instr.planClose _ (byteAt 0 plan).toNat (byteAt 0 r).toNat (byteAt 0 v).toNat (byteAt 0 b).toNat) = _
    rw [toNat_byteAt hplan, toNat_byteAt hr, toNat_byteAt hv, toNat_byteAt hb]
  case planClear tag plan =>
    cases h
    simp only [Instr.wf, Bool.and_eq_true, fits_iff] at hwf
    change some (Instr.planClear _ (byteAt 0 plan).toNat) = _
    rw [toNat_byteAt hwf.2]
  case planAssign tag plan switch slots =>
    cases h
    simp only [Instr.wf, Bool.and_eq_true, fits_iff, List.all_eq_true] at hwf
    obtain ⟨⟨⟨⟨-, hplan⟩, hswitch⟩, hcount⟩, hslots⟩ := hwf
    change (if (slots.flatMap (numBytes 1)).length = (byteAt 0 slots.length).toNat then
      some (Instr.planAssign _ (byteAt 0 plan).toNat
        (if flagByte switch.isSome = 0 then none else some (number (numBytes 4 (switch.getD 0))))
        ((slots.flatMap (numBytes 1)).map BitVec.toNat)) else none) = _
    rw [toNat_byteAt hcount, if_pos (by rw [length_flatMap_numBytes, Nat.one_mul]), toNat_byteAt hplan, number_numBytes hswitch,
      switch_readBack, map_toNat_flatMap hslots]
  case gracePut tag grace =>
    cases h
    simp only [Instr.wf, Bool.and_eq_true, fits_iff] at hwf
    change some (Instr.gracePut _ (byteAt 0 grace).toNat) = _
    rw [toNat_byteAt hwf.2]
  case permitPut tag n k firstDay lastDay allowance standing zones plate =>
    cases h
    simp only [Instr.wf, wfPlate, Bool.and_eq_true, decide_eq_true_eq, fits_iff, List.all_eq_true] at hwf
    obtain ⟨⟨⟨⟨⟨⟨⟨⟨⟨-, hn⟩, hk⟩, hfirst⟩, hlast⟩, hallowance⟩, hstanding⟩, hcount⟩, hzones⟩, hplate⟩ := hwf
    have hlength : (zones.flatMap (numBytes 1)).length = (byteAt 0 zones.length).toNat := by
      rw [length_flatMap_numBytes, Nat.one_mul, toNat_byteAt hcount]
    change (if (byteAt 0 zones.length).toNat ≤ (zones.flatMap (numBytes 1) ++ plateBytes plate).length then
      (readPlate ((zones.flatMap (numBytes 1) ++ plateBytes plate).drop (byteAt 0 zones.length).toNat)).map fun plate' =>
        Instr.permitPut _ (number (numBytes 3 n)) (byteAt 0 k).toNat (number (numBytes 2 firstDay)) (number (numBytes 2 lastDay))
          (number (numBytes 2 allowance)) (byteAt 0 standing).toNat
          (((zones.flatMap (numBytes 1) ++ plateBytes plate).take (byteAt 0 zones.length).toNat).map BitVec.toNat) plate'
      else none) = _
    rw [← hlength, if_pos (by simp), List.drop_left, List.take_left, readPlate_plateBytes (by omega), map_toNat_flatMap hzones,
      number_numBytes hn, toNat_byteAt hk, number_numBytes hfirst, number_numBytes hlast, number_numBytes hallowance,
      toNat_byteAt hstanding]
    rfl
  case permitRevoke tag n =>
    cases h
    simp only [Instr.wf, Bool.and_eq_true, fits_iff] at hwf
    change some (Instr.permitRevoke _ (number (numBytes 3 n))) = _
    rw [number_numBytes hwf.2]
  case permitGet tag n =>
    cases h
    simp only [Instr.wf, Bool.and_eq_true, fits_iff] at hwf
    change some (Instr.permitGet _ (number (numBytes 3 n))) = _
    rw [number_numBytes hwf.2]
  case terminalPut tag slot identity group capacity threshold =>
    cases h
    simp only [Instr.wf, Bool.and_eq_true, fits_iff] at hwf
    obtain ⟨⟨⟨⟨⟨-, hslot⟩, hidentity⟩, hgroup⟩, hcapacity⟩, hthreshold⟩ := hwf
    change some (Instr.terminalPut _ (byteAt 0 slot).toNat (number (numBytes 6 identity)) (byteAt 0 group).toNat
      (number (numBytes 2 capacity)) (byteAt 0 threshold).toNat) = _
    rw [toNat_byteAt hslot, number_numBytes hidentity, toNat_byteAt hgroup, number_numBytes hcapacity, toNat_byteAt hthreshold]
  case terminalRemove tag slot =>
    cases h
    simp only [Instr.wf, Bool.and_eq_true, fits_iff] at hwf
    change some (Instr.terminalRemove _ (byteAt 0 slot).toNat) = _
    rw [toNat_byteAt hwf.2]
  case terminalAudit tag slot =>
    cases h
    simp only [Instr.wf, Bool.and_eq_true, fits_iff] at hwf
    change some (Instr.terminalAudit _ (byteAt 0 slot).toNat) = _
    rw [toNat_byteAt hwf.2]
  case denominationsPut tag values =>
    cases h
    simp only [Instr.wf, Bool.and_eq_true] at hwf
    change (readSix (values.toList.flatMap (numBytes 2))).map _ = _
    rw [readSix_flatMap hwf.2]
    rfl
  case tolerancePut tag tolerance =>
    cases h
    simp only [Instr.wf, Bool.and_eq_true, fits_iff] at hwf
    change some (Instr.tolerancePut _ (number (numBytes 2 tolerance))) = _
    rw [number_numBytes hwf.2]
  case countResult tag n counted =>
    cases h
    simp only [Instr.wf, Bool.and_eq_true, fits_iff] at hwf
    change (readSix (counted.toList.flatMap (numBytes 2))).map (fun v => Instr.countResult _ (number (numBytes 2 n)) v) = _
    rw [readSix_flatMap hwf.2, number_numBytes hwf.1.2]
    rfl
  case faultList tag slot =>
    cases h
    simp only [Instr.wf, Bool.and_eq_true, fits_iff] at hwf
    change some (Instr.faultList _ (byteAt 0 slot).toNat) = _
    rw [toNat_byteAt hwf.2]
  case faultAck src slot fault =>
    cases src <;> cases h
    simp only [Instr.wf, Bool.and_eq_true, fits_iff] at hwf
    change some (Instr.faultAck _ (byteAt 0 slot).toNat (byteAt 0 fault).toNat) = _
    rw [toNat_byteAt hwf.1.2, toNat_byteAt hwf.2]
  case groupStatus => cases h; rfl
  case journalRead tag count =>
    cases h
    simp only [Instr.wf, Bool.and_eq_true, fits_iff] at hwf
    change some (Instr.journalRead _ (byteAt 0 count).toNat) = _
    rw [toNat_byteAt hwf.2]
  case journalAck tag sequence =>
    cases h
    simp only [Instr.wf, Bool.and_eq_true, fits_iff] at hwf
    change some (Instr.journalAck _ (number (numBytes 4 sequence))) = _
    rw [number_numBytes hwf.2]
  case status => cases h; rfl
  case attentionMask tag mask =>
    cases h
    simp only [Instr.wf, Bool.and_eq_true, fits_iff] at hwf
    change some (Instr.attentionMask _ (number (numBytes 2 mask))) = _
    rw [number_numBytes hwf.2]
  case rosterPut tag identity role key =>
    cases h
    simp only [Instr.wf, Bool.and_eq_true, fits_iff] at hwf
    obtain ⟨⟨⟨-, hidentity⟩, hrole⟩, hkey⟩ := hwf
    change some (Instr.rosterPut _ (number (numBytes 4 identity)) (byteAt 0 role).toNat (byteAt 0 key).toNat) = _
    rw [number_numBytes hidentity, toNat_byteAt hrole, toNat_byteAt hkey]
  case rosterRemove tag identity =>
    cases h
    simp only [Instr.wf, Bool.and_eq_true, fits_iff] at hwf
    change some (Instr.rosterRemove _ (number (numBytes 4 identity))) = _
    rw [number_numBytes hwf.2]
  case restart => cases h; rfl
  all_goals cases h

/-! ### Responses -/

/-- What a response's body holds after its result code (R161, R162; log entry 42). -/
theorem sent_eq (room kind : Nat) (r : Response) (hroom : 1 ≤ room) : ∃ fields : List Byte,
    r.sent room kind = BitVec.ofNat 8 r.code.number :: fields ∧ fields.length ≤ room - 1
      ∧ ((r.body.bytes kind).length ≤ room - 1 → fields = r.body.bytes kind) := by
  have hlength : (r.bytes kind).length = 1 + (r.body.bytes kind).length := by
    rw [Response.bytes, List.length_append, length_numBytes]
  unfold Response.sent
  by_cases hfits : (r.bytes kind).length ≤ room
  · rw [if_pos hfits]
    refine ⟨r.body.bytes kind, ?_, by omega, fun _ => rfl⟩
    rw [Response.bytes, numBytes_one]
    rfl
  · rw [if_neg hfits]
    refine ⟨(Config.overlongFields (r.body.bytes kind)).take (room - 1), ?_, List.length_take_le _ _, fun h => by omega⟩
    rw [numBytes_one]
    rfl

/-- An office response is read back, its body opening with the result code (R161, R162). -/
theorem readFrame_officeReply (r : OfficeReply) (hkind : r.kind < 256) (htag : r.tag < 256) : ∃ fields : List Byte,
    readFrame 1024 r.frame = .whole r.kind r.tag (BitVec.ofNat 8 r.response.code.number :: fields)
      ∧ fields.length ≤ 1023 ∧ ((r.response.body.bytes r.kind).length ≤ 1023 → fields = r.response.body.bytes r.kind) := by
  obtain ⟨fields, hsent, hle, hfits⟩ := sent_eq 1024 r.kind r.response (by decide)
  refine ⟨fields, ?_, hle, hfits⟩
  have hframe : r.frame = uartFrame r.kind r.tag (r.response.sent 1024 r.kind) := rfl
  rw [hframe, hsent, readFrame_uartFrame hkind htag _ (by decide)]
  rw [List.length_cons]
  omega

/-- Settles O14. -/
theorem officeFramesRoundTrip : Obligations.OfficeFramesRoundTrip := by
  refine ⟨fun i bytes hwf hbytes => ?_, readFrame_officeReply, fun kind tag hkind htag => ?_⟩
  · obtain ⟨⟨kind, tag, body⟩, hrequest, rfl⟩ := Option.map_eq_some_iff.mp hbytes
    obtain ⟨hkind, htag, hbody⟩ := officeRequest_fits hwf hrequest
    have hread : readFrame Config.officeBodyMax (uartFrame kind tag body) = .whole kind tag body :=
      readFrame_uartFrame hkind htag hbody (by decide)
    rw [officeCommand, hread]
    dsimp only
    rw [officeBody_readBack hwf hrequest]
    rfl
  · obtain ⟨fields, hread, -, hfields⟩ :=
      readFrame_officeReply { kind := kind, tag := tag, response := refusal .busy } hkind htag
    rw [hfields (Nat.zero_le _)] at hread
    exact hread

/-! ### Service requests -/

/-- A well-formed service request has a kind, a tag and an identity that fit, and a body within the link's bound (R169, R185). -/
theorem serviceRequest_fits {i : Instr} {kind tag identity : Nat} {body : List Byte} (hwf : i.wf = true)
    (h : serviceRequestBytes i = some (kind, tag, identity, body)) :
    kind < 256 ∧ tag < 256 ∧ identity < 256 ^ 4 ∧ body.length ≤ 252 := by
  cases i
  case clockSet src time offset =>
    cases src <;> cases h
    simp only [Instr.wf, Source.wf, Bool.and_eq_true, fits_iff] at hwf
    simp only [List.length_append, length_numBytes, length_signedBytes]
    omega
  case faultAck src slot fault =>
    cases src <;> cases h
    simp only [Instr.wf, Source.wf, Bool.and_eq_true, fits_iff] at hwf
    simp only [List.length_append, length_numBytes]
    omega
  all_goals
    cases h
    try
      simp only [Instr.wf, Bool.and_eq_true, decide_eq_true_eq, fits_iff] at hwf
      simp only [List.length_append, length_numBytes, length_plateBytes, List.length_nil]
      omega

/-- The body of a well-formed service request is read back (R185). -/
theorem serviceBody_readBack {i : Instr} {kind tag identity : Nat} {body : List Byte} (hwf : i.wf = true)
    (h : serviceRequestBytes i = some (kind, tag, identity, body)) : serviceBody identity tag kind body = some i := by
  cases i
  case clockSet src time offset =>
    cases src <;> cases h
    simp only [Instr.wf, Bool.and_eq_true, fits_iff] at hwf
    change some (Instr.clockSet _ (number (numBytes 4 time)) (signed2 (number (signedBytes 2 offset)))) = _
    rw [number_numBytes hwf.1.2, signed2_signedBytes hwf.2]
  case faultAck src slot fault =>
    cases src <;> cases h
    simp only [Instr.wf, Bool.and_eq_true, fits_iff] at hwf
    change some (Instr.faultAck _ (byteAt 0 slot).toNat (byteAt 0 fault).toNat) = _
    rw [toNat_byteAt hwf.1.2, toNat_byteAt hwf.2]
  case ticketCheck identity tag ticket plate =>
    cases h
    simp only [Instr.wf, Bool.and_eq_true, decide_eq_true_eq, fits_iff] at hwf
    change (readPlate (plateBytes plate)).map (fun p => Instr.ticketCheck _ _ (number (numBytes 3 ticket)) p) = _
    rw [readPlate_plateBytes (by omega), number_numBytes hwf.1.2]
    rfl
  case permitCheck identity tag n group plate =>
    cases h
    simp only [Instr.wf, Bool.and_eq_true, decide_eq_true_eq, fits_iff] at hwf
    obtain ⟨⟨⟨-, hn⟩, hgroup⟩, hplate⟩ := hwf
    change (readPlate (plateBytes plate)).map
      (fun p => Instr.permitCheck _ _ (number (numBytes 3 n)) (byteAt 0 group).toNat p) = _
    rw [readPlate_plateBytes (by omega), number_numBytes hn, toNat_byteAt hgroup]
    rfl
  case groupCheck identity tag group =>
    cases h
    simp only [Instr.wf, Bool.and_eq_true, fits_iff] at hwf
    change some (Instr.groupCheck _ _ (byteAt 0 group).toNat) = _
    rw [toNat_byteAt hwf.2]
  case roundStart => cases h; rfl
  case roundList => cases h; rfl
  case roundEnd => cases h; rfl
  case terminalStatus identity tag slot =>
    cases h
    simp only [Instr.wf, Bool.and_eq_true, fits_iff] at hwf
    change some (Instr.terminalStatus _ _ (byteAt 0 slot).toNat) = _
    rw [toNat_byteAt hwf.2]
  case lineRestart identity tag slot =>
    cases h
    simp only [Instr.wf, Bool.and_eq_true, fits_iff] at hwf
    change some (Instr.lineRestart _ _ (byteAt 0 slot).toNat) = _
    rw [toNat_byteAt hwf.2]
  all_goals cases h

/-- An identity is its four bytes, the most significant first (R182). -/
theorem identity_eq_bytes {identity : Nat} (h : identity < 2 ^ 32) :
    identity
      = (byteAt 3 identity).toNat * 16777216 + (byteAt 2 identity).toNat * 65536 + (byteAt 1 identity).toNat * 256
        + (byteAt 0 identity).toNat := by
  have hnumber : number [byteAt 3 identity, byteAt 2 identity, byteAt 1 identity, byteAt 0 identity] = identity :=
    number_numBytes (w := 4) h
  simp only [number, List.foldl_cons, List.foldl_nil] at hnumber
  omega

/-- A service response is read back, its body opening with the identity and the result code (R169, R170). -/
theorem readFrame_serviceReply (r : ServiceReply) (hkind : r.kind < 256) (htag : r.tag < 256) : ∃ fields : List Byte,
    readFrame 256 r.frame
        = .whole r.kind r.tag
            (byteAt 3 r.identity :: byteAt 2 r.identity :: byteAt 1 r.identity :: byteAt 0 r.identity
              :: BitVec.ofNat 8 r.response.code.number :: fields)
      ∧ fields.length ≤ 251 ∧ ((r.response.body.bytes r.kind).length ≤ 251 → fields = r.response.body.bytes r.kind) := by
  obtain ⟨fields, hsent, hle, hfits⟩ := sent_eq 252 r.kind r.response (by decide)
  refine ⟨fields, ?_, hle, hfits⟩
  have hframe : r.frame = uartFrame r.kind r.tag (numBytes 4 r.identity ++ r.response.sent 252 r.kind) := rfl
  rw [hframe, hsent, readFrame_uartFrame hkind htag _ (by decide)]
  · rfl
  · rw [List.length_append, length_numBytes, List.length_cons]
    omega

/-- Settles O15. -/
theorem serviceFramesRoundTrip : Obligations.ServiceFramesRoundTrip := by
  refine ⟨fun i bytes hwf hbytes => ?_, fun r hkind htag hidentity => ?_, fun identity kind tag hkind htag hidentity => ?_⟩
  · obtain ⟨⟨kind, tag, identity, body⟩, hrequest, rfl⟩ := Option.map_eq_some_iff.mp hbytes
    obtain ⟨hkind, htag, hidentity, hbody⟩ := serviceRequest_fits hwf hrequest
    have hread : readFrame Config.serviceBodyMax (uartFrame kind tag (numBytes 4 identity ++ body))
        = .whole kind tag (byteAt 3 identity :: byteAt 2 identity :: byteAt 1 identity :: byteAt 0 identity :: body) := by
      refine readFrame_uartFrame hkind htag ?_ (by decide)
      rw [List.length_append, length_numBytes, Config.serviceBodyMax]
      omega
    have hnumber : number [byteAt 3 identity, byteAt 2 identity, byteAt 1 identity, byteAt 0 identity] = identity :=
      number_numBytes (w := 4) hidentity
    rw [serviceCommand, hread]
    dsimp only
    rw [hnumber, serviceBody_readBack hwf hrequest]
    rfl
  · obtain ⟨fields, hread, hle, hfields⟩ := readFrame_serviceReply r hkind htag
    exact ⟨_, _, _, _, fields, hread, hle, hfields, identity_eq_bytes hidentity⟩
  · obtain ⟨fields, hread, -, hfields⟩ :=
      readFrame_serviceReply { identity := identity, kind := kind, tag := tag, response := refusal .busy } hkind htag
    rw [hfields (Nat.zero_le _)] at hread
    exact ⟨_, _, _, _, hread, identity_eq_bytes hidentity⟩

/-! ### Answers and offers -/

theorem toNat_append_eq {m n : Nat} (x : BitVec m) (y : BitVec n) : (x ++ y).toNat = x.toNat * 2 ^ n + y.toNat := by
  rw [BitVec.toNat_append, ← Nat.shiftLeft_add_eq_or_of_lt y.isLt, Nat.shiftLeft_eq]

/-- The status word that its three bytes hold. -/
theorem statusOf_bytes (w : BitVec 24) : statusOf (byteAt 2 w.toNat) (byteAt 1 w.toNat) (byteAt 0 w.toNat) = w := by
  have hw := w.isLt
  apply BitVec.eq_of_toNat_eq
  simp only [statusOf, byteAt, toNat_append_eq, BitVec.toNat_ofNat]
  omega

theorem flagByte_eq_one (b : Bool) : decide (flagByte b = 1) = b := by cases b <;> decide

/-- An answer's frame is read back as the command that its code and body make, with its head (R136, R184; log entry 27). -/
theorem answerCommand_kerbFrame {head : AnswerHead} {code : Nat} {body : List Byte} {i : Instr} (hhead : head.wf = true)
    (hcode : code < 256) (hbody : body.length ≤ 86) (hread : requestCommand head code body = some i) :
    answerCommand (kerbFrame 0x81 (answerContents head code body)) = i := by
  have hslot : head.slot < 256 := (fits_iff 1 head.slot).mp hhead
  have hcontents : answerContents head code body
      = byteAt 0 head.slot :: byteAt 2 head.status.toNat :: byteAt 1 head.status.toNat :: byteAt 0 head.status.toNat
          :: flagByte head.asleep :: byteAt 0 code :: body := rfl
  have hlength : (answerContents head code body).length = body.length + 6 := by rw [hcontents]; rfl
  have hshort : ¬Config.jabberBytes < (kerbFrame 0x81 (answerContents head code body)).length := by
    rw [length_kerbFrame, hlength, Config.jabberBytes]
    omega
  rw [answerCommand, if_neg hshort, kerbContents_kerbFrame (by decide) (by omega), hcontents]
  dsimp only
  rw [statusOf_bytes, toNat_byteAt hslot, toNat_byteAt hcode, flagByte_eq_one, hread]
  rfl

/-- A well-formed answer has its code, and a body that is read back (section 12.2). -/
theorem answerCommand_readBack {i : Instr} {bytes : List Byte} (hwf : i.wf = true) (h : answerBytes i = some bytes) :
    answerCommand bytes = i := by
  cases i
  case answer head =>
    cases h
    exact answerCommand_kerbFrame hwf (by decide) (by decide) rfl
  case quote head kind amount permit plate =>
    cases h
    simp only [Instr.wf, Bool.and_eq_true, decide_eq_true_eq, fits_iff] at hwf
    obtain ⟨⟨⟨⟨hhead, hkind⟩, hamount⟩, hpermit⟩, hplate⟩ := hwf
    refine answerCommand_kerbFrame hhead (by decide) ?_ ?_
    · simp only [List.length_append, length_numBytes, length_plateBytes]
      omega
    · change (readPlate (plateBytes plate)).map
        (fun p => Instr.quote _ (byteAt 0 kind).toNat (number (numBytes 2 amount)) (number (numBytes 3 permit)) p) = _
      rw [readPlate_plateBytes (by omega), toNat_byteAt hkind, number_numBytes hamount, number_numBytes hpermit]
      rfl
  case confirm head quoteId coins card =>
    cases h
    simp only [Instr.wf, Bool.and_eq_true, fits_iff] at hwf
    obtain ⟨⟨⟨hhead, hid⟩, hcoins⟩, hcard⟩ := hwf
    have hcoin {n : Nat} (hn : n ∈ coins.toList) : (byteAt 0 n).toNat = n :=
      toNat_byteAt (Nat.lt_succ_of_le ((allLe_iff _ coins).mp hcoins n hn))
    refine answerCommand_kerbFrame hhead (by decide) ?_ ?_
    · simp [length_numBytes, Six.toList]
    · change some (Instr.confirm _ (byteAt 0 quoteId).toNat
        ⟨(byteAt 0 coins.n1).toNat, (byteAt 0 coins.n2).toNat, (byteAt 0 coins.n3).toNat, (byteAt 0 coins.n4).toNat,
          (byteAt 0 coins.n5).toNat, (byteAt 0 coins.n6).toNat⟩ (number (numBytes 2 card))) = _
      rw [toNat_byteAt hid, number_numBytes hcard, hcoin (n := coins.n1) (by simp [Six.toList]),
        hcoin (n := coins.n2) (by simp [Six.toList]), hcoin (n := coins.n3) (by simp [Six.toList]),
        hcoin (n := coins.n4) (by simp [Six.toList]), hcoin (n := coins.n5) (by simp [Six.toList]),
        hcoin (n := coins.n6) (by simp [Six.toList])]
  case cancel head =>
    cases h
    exact answerCommand_kerbFrame hwf (by decide) (by decide) rfl
  case accept head level =>
    cases h
    simp only [Instr.wf, Bool.and_eq_true, fits_iff] at hwf
    refine answerCommand_kerbFrame hwf.1 (by decide) (by rw [length_numBytes]; decide) ?_
    change some (Instr.accept _ (byteAt 0 level).toNat) = _
    rw [toNat_byteAt hwf.2]
  case wakeReq head =>
    cases h
    exact answerCommand_kerbFrame hwf (by decide) (by decide) rfl
  all_goals cases h

/-- A well-formed offer is read back in its form (R140, section 12.2). -/
theorem offerCommand_readBack {identity : Nat} {form : OfferForm} (hwf : (Instr.offer identity form).wf = true) :
    offerCommand (offerBytes identity form) = some (.offer identity form) := by
  simp only [Instr.wf, Bool.and_eq_true, fits_iff] at hwf
  obtain ⟨hidentity, hform⟩ := hwf
  have hnumber : number [byteAt 5 identity, byteAt 4 identity, byteAt 3 identity, byteAt 2 identity, byteAt 1 identity,
      byteAt 0 identity] = identity := number_numBytes (w := 6) hidentity
  cases form with
  | legacy =>
    have hcontents : kerbContents 0x82 (offerBytes identity .legacy)
        = some [byteAt 5 identity, byteAt 4 identity, byteAt 3 identity, byteAt 2 identity, byteAt 1 identity, byteAt 0 identity] :=
      kerbContents_kerbFrame (by decide) (by rw [length_numBytes]; decide)
    rw [offerCommand, hcontents]
    dsimp only
    rw [hnumber]
  | full caps level =>
    have hlevel : level < 256 := (fits_iff 1 level).mp hform
    have hcontents : kerbContents 0x82 (offerBytes identity (.full caps level))
        = some [byteAt 5 identity, byteAt 4 identity, byteAt 3 identity, byteAt 2 identity, byteAt 1 identity, byteAt 0 identity,
            caps, byteAt 0 level] :=
      kerbContents_kerbFrame (by decide) (by simp [length_numBytes])
    rw [offerCommand, hcontents]
    dsimp only
    rw [hnumber, toNat_byteAt hlevel]

/-- Settles O16. -/
theorem kerbFramesRoundTrip : Obligations.KerbFramesRoundTrip :=
  ⟨fun _ _ hwf h => answerCommand_readBack hwf h, fun _ _ hwf => offerCommand_readBack hwf⟩

end Sys2Proof.Machine
end

section
/-!
PROOFS. The Plan Store's requests (R17 to R25) and the Permit Register's changes (R78 to R83): the checks in order, and what an accepted
request leaves.
-/

namespace Sys2Proof.Machine

open Sys2Proof

/-! ### Checks on lists -/

/-- A check for each element of a list, in order: the first element that fails is named. -/
theorem decides_map {α β : Type} {p : β → Prop} {c : β → Bool} {answer : β → α} (hp : ∀ b, p b ↔ c b = true) (l : List β) :
    Decides (l.map fun b => (p b, answer b)) ((l.find? c).map answer) := by
  induction l with
  | nil => exact .nil
  | cons b rest ih =>
    rw [List.map_cons, List.find?_cons]
    cases hb : c b with
    | true => exact .inl ⟨(hp b).mpr hb, rfl⟩
    | false =>
      have hpass : ¬p b := by rw [hp, hb]; exact Bool.false_ne_true
      cases hrest : (rest.find? c).map answer with
      | none =>
        rw [hrest] at ih
        exact ⟨hpass, ih⟩
      | some a =>
        rw [hrest] at ih
        exact .inr ⟨hpass, ih⟩

/-! ### The checks of a plan slot -/

theorem planNumber_eq_false (plan : Nat) : (!planNumber plan) = true ↔ plan < 1 ∨ 8 < plan := by
  rw [Bool.not_eq_true', planNumber, Bool.and_eq_false_iff, decide_eq_false_iff_not, decide_eq_false_iff_not, Config.planSlots,
    Nat.not_le, Nat.not_le]

/-- What refuses every request that changes a plan slot (R17, R20). -/
def planRefusal (plan : Nat) (s : State) : Option Response :=
  if (!planNumber plan) = true then some (refused .badPlanSlot)
  else if planInUse plan s = true then some (refused .planInUse)
  else none

theorem planRefusal_decides (plan : Nat) (s : State) : Decides (planChecks plan s) (planRefusal plan s) :=
  .cons (planNumber_eq_false plan).symm fun _ => .cons (planInUse_iff plan s).symm fun _ => .nil

/-- A request on a plan slot is refused by those checks, then by its own, or taken. -/
theorem onPlan_eq {plan : Nat} {act : State → State × Response} {s : State} {y : Option Response} {taken : State × Response}
    (hact : act s = y.elim taken fun r => (s, r)) :
    onPlan plan act s = ((planRefusal plan s).or y).elim taken fun r => (s, r) := by
  unfold onPlan planRefusal
  split
  · rfl
  · split
    · rfl
    · exact hact

/-! ### PROFILE_PUT -/

/-- The checks of a band entry in order, down to its fields (R23): `bad` is the refusal that names the band and the field. -/
def bandChecks (bands : List BandEntry) (e : BandEntry × Nat) : List (Prop × Response) :=
  let bad (field : Nat) : Response := { code := .badBand, body := .bandField (e.2 + 1) field }
  [(1439 < e.1.start ∨ (e.2 = 0 ∧ e.1.start ≠ 0) ∨ ∃ a ∈ bands[e.2 - 1]?, 0 < e.2 ∧ e.1.start ≤ a.start, bad 1),
    (e.1.kind ≠ 1 ∧ e.1.kind ≠ 2 ∧ e.1.kind ≠ 3, bad 2), (e.1.kind = 1 ∧ (e.1.step < 1 ∨ 120 < e.1.step), bad 3),
    (e.1.kind = 1 ∧ (e.1.price < 1 ∨ 2000 < e.1.price), bad 4), (e.1.kind = 1 ∧ 500 < e.1.increment, bad 5),
    (e.1.kind = 1 ∧ (e.1.cap < e.1.price ∨ 5000 < e.1.cap), bad 6), (e.1.kind = 1 ∧ 1440 < e.1.stay, bad 7)]

/-- The start minute of the band before one of a list. -/
def startBefore (bands : List BandEntry) (i : Nat) : Option Nat := if i = 0 then none else (bands[i - 1]?).map (·.start)

/-- The first field of a band entry that fails is what its checks decide (R23). -/
theorem badField_decides (bands : List BandEntry) (b : BandEntry) (i : Nat) (hi : i ≤ bands.length) :
    Decides (bandChecks bands (b, i))
      ((badField (startBefore bands i) b).map fun field => { code := .badBand, body := .bandField (i + 1) field }) := by
  have hstart : (1439 < b.start ∨ (i = 0 ∧ b.start ≠ 0) ∨ ∃ a ∈ bands[i - 1]?, 0 < i ∧ b.start ≤ a.start)
      ↔ 1439 < b.start ∨ (startBefore bands i = none ∧ b.start ≠ 0) ∨ ∃ m ∈ startBefore bands i, b.start ≤ m := by
    unfold startBefore
    by_cases h0 : i = 0
    · simp [h0]
    · have hlt : i - 1 < bands.length := by omega
      simp [h0, Nat.pos_of_ne_zero h0, List.getElem?_eq_getElem hlt]
  unfold badField
  simp only [apply_ite (Option.map fun field => ({ code := .badBand, body := .bandField (i + 1) field } : Response)),
    Option.map_some, Option.map_none]
  refine .cons hstart fun _ => .cons Iff.rfl fun _ => ?_
  by_cases hkind : b.kind = 1
  · rw [if_neg (not_not.mpr hkind)]
    exact .cons (and_iff_right hkind) fun _ => .cons (and_iff_right hkind) fun _ => .cons (and_iff_right hkind) fun _ =>
      .cons (and_iff_right hkind) fun _ => .cons (and_iff_right hkind) fun _ => .nil
  · rw [if_pos hkind]
    exact ⟨mt And.left hkind, mt And.left hkind, mt And.left hkind, mt And.left hkind, mt And.left hkind, trivial⟩

/-- The refusal of a profile's bands. -/
def bandRefusal (bad : Nat × Nat) : Response := { code := .badBand, body := .bandField bad.1 bad.2 }

/-- The first band that fails and the first of its fields that does are what the checks of all bands decide (R23). -/
theorem badBand_decides (bands : List BandEntry) (i : Nat) (before rest : List BandEntry) (hbands : bands = before ++ rest)
    (hi : i = before.length) :
    Decides ((rest.zipIdx i).flatMap (bandChecks bands)) ((badBand (i + 1) (startBefore bands i) rest).map bandRefusal) := by
  induction rest generalizing i before with
  | nil => exact .nil
  | cons b rest ih =>
    have hfirst := badField_decides bands b i (by rw [hbands, hi, List.length_append]; omega)
    have hnext : startBefore bands (i + 1) = some b.start := by
      rw [startBefore, if_neg (Nat.succ_ne_zero i), Nat.add_sub_cancel, hbands, hi, List.getElem?_append_right le_rfl,
        Nat.sub_self]
      rfl
    have hlater := ih (i + 1) (before ++ [b]) (by rw [hbands, List.append_assoc]; rfl) (by rw [hi, List.length_append]; rfl)
    rw [hnext] at hlater
    have hall := hfirst.append fun _ => hlater
    rw [List.zipIdx_cons, List.flatMap_cons, badBand]
    cases hfield : badField (startBefore bands i) b with
    | some field =>
      rw [hfield] at hall
      exact hall
    | none =>
      rw [hfield] at hall
      exact hall

/-- What refuses a PROFILE_PUT on a plan slot that is not in use (R22, R23). -/
def profileRefusal (plan profile : Nat) (bands : List BandEntry) (s : State) : Option Response :=
  match Table.find? plan s.plans with
  | some (.building _) =>
    if profile < 1 ∨ 8 < profile then some (refused .badProfile)
    else if bands.length = 0 ∨ Config.maxBands < bands.length then some (refused .badBandCount)
    else (badBand 1 none bands).map bandRefusal
  | _ => some (refused .notBuilding)

theorem profileRefusal_decides (plan profile : Nat) (bands : List BandEntry) (s : State) :
    Decides
      ([((∀ profiles, Table.find? plan s.plans ≠ some (.building profiles)), refused .notBuilding),
          (profile < 1 ∨ 8 < profile, refused .badProfile), (bands.length = 0 ∨ 12 < bands.length, refused .badBandCount)]
        ++ bands.zipIdx.flatMap (bandChecks bands))
      (profileRefusal plan profile bands s) := by
  unfold profileRefusal
  split
  · next profiles hbuilding =>
    have hfirst := Decides.cons (p := ∀ profiles, Table.find? plan s.plans ≠ some (.building profiles)) (c := False)
      (b := refused .notBuilding) (by simp [hbuilding]) fun _ =>
        .cons (b := refused .badProfile) (Iff.refl (profile < 1 ∨ 8 < profile)) fun _ =>
          .cons (b := refused .badBandCount) (Iff.refl (bands.length = 0 ∨ 12 < bands.length)) fun _ =>
            badBand_decides bands 0 [] bands rfl rfl
    rw [if_neg not_false] at hfirst
    exact hfirst
  · next hother =>
    exact .inl ⟨fun profiles h => hother profiles h, rfl⟩

/-- A PROFILE_PUT on a build stores the profile's bands, or is refused (R22, R23). -/
theorem putProfile_eq {plan : Nat} {s : State} {profiles : Table (List Band)} (profile : Nat) (bands : List BandEntry)
    (h : Table.find? plan s.plans = some (.building profiles)) :
    putProfile plan profile bands s
      = (profileRefusal plan profile bands s).elim
          ({ s with plans := Table.put plan (.building (Table.put profile (bands.map storeBand) profiles)) s.plans },
            accepted (.profileCount (Table.put profile (bands.map storeBand) profiles).length))
          fun r => (s, r) := by
  simp only [putProfile, profileRefusal, h]
  by_cases hprofile : profile < 1 ∨ 8 < profile
  · rw [if_pos hprofile, if_pos hprofile]
    rfl
  · rw [if_neg hprofile, if_neg hprofile]
    by_cases hcount : bands.length = 0 ∨ Config.maxBands < bands.length
    · rw [if_pos hcount, if_pos hcount]
      rfl
    · rw [if_neg hcount, if_neg hcount]
      cases badBand 1 none bands <;> rfl

theorem putProfile_notBuilding {plan : Nat} {s : State} (profile : Nat) (bands : List BandEntry)
    (h : ∀ profiles, Table.find? plan s.plans ≠ some (.building profiles)) :
    putProfile plan profile bands s = (s, refused .notBuilding) := by
  unfold putProfile
  split
  · next profiles hbuilding => exact absurd hbuilding (h profiles)
  · rfl

/-- What a PROFILE_PUT that is refused leaves, whatever the plan slot holds. -/
theorem putProfile_cases (plan profile : Nat) (bands : List BandEntry) (s : State) : ∃ taken : State × Response,
    putProfile plan profile bands s = (profileRefusal plan profile bands s).elim taken fun r => (s, r) := by
  by_cases hbuilding : ∃ profiles, Table.find? plan s.plans = some (.building profiles)
  · obtain ⟨profiles, hbuilding⟩ := hbuilding
    exact ⟨_, putProfile_eq profile bands hbuilding⟩
  · have hnone : ∀ profiles, Table.find? plan s.plans ≠ some (.building profiles) := fun profiles h => hbuilding ⟨profiles, h⟩
    refine ⟨(s, refused .notBuilding), (putProfile_notBuilding profile bands hnone).trans ?_⟩
    unfold profileRefusal
    split
    · next profiles h => exact absurd h (hnone profiles)
    · rfl

/-! ### PLAN_CLOSE -/

/-- What refuses a PLAN_CLOSE on a build that holds these profiles (R24). -/
def closeRefusal (resident visitor business : Nat) (profiles : Table (List Band)) : Option Response :=
  (((missingProfiles profiles).head?.map fun first =>
      ({ code := .profilesMissing, body := .missing first (missingProfiles profiles).length } : Response))).or
    (if 100 < resident then some (refusedAt .badDiscount 1)
    else if 100 < visitor then some (refusedAt .badDiscount 2)
    else if 100 < business then some (refusedAt .badDiscount 3)
    else none)

theorem closeRefusal_decides (resident visitor business : Nat) (profiles : Table (List Band)) :
    Decides
      (([1, 2, 3, 4, 5, 6, 7, 8].map fun n =>
        ((Table.find? n profiles).isNone = true,
          ({ code := .profilesMissing
             body := .missing n (([1, 2, 3, 4, 5, 6, 7, 8].filter fun m => (Table.find? m profiles).isNone).length) } :
            Response)))
        ++ [(100 < resident, refusedAt .badDiscount 1), (100 < visitor, refusedAt .badDiscount 2),
          (100 < business, refusedAt .badDiscount 3)])
      (closeRefusal resident visitor business profiles) := by
  refine .append ?_ fun _ => .cons Iff.rfl fun _ => .cons Iff.rfl fun _ => .cons Iff.rfl fun _ => .nil
  rw [missingProfiles, List.head?_filter]
  exact decides_map (fun n => Iff.rfl) _

theorem closePlan_eq {plan : Nat} {s : State} {profiles : Table (List Band)} (resident visitor business : Nat)
    (h : Table.find? plan s.plans = some (.building profiles)) :
    closePlan plan resident visitor business s
      = (closeRefusal resident visitor business profiles).elim
          ({ s with
             plans :=
               Table.put plan (.ready profiles { resident := resident, visitor := visitor, business := business }) s.plans },
            accepted .empty)
          fun r => (s, r) := by
  simp only [closePlan, closeRefusal, h]
  cases missingProfiles profiles with
  | cons first others => rfl
  | nil =>
    rw [List.head?_nil, Option.map_none, Option.none_or]
    dsimp only
    split
    · rfl
    · split
      · rfl
      · split <;> rfl

theorem closePlan_notBuilding {plan : Nat} {s : State} (resident visitor business : Nat)
    (h : ∀ profiles, Table.find? plan s.plans ≠ some (.building profiles)) :
    closePlan plan resident visitor business s = (s, refused .notBuilding) := by
  unfold closePlan
  split
  · next profiles hbuilding => exact absurd hbuilding (h profiles)
  · rfl

/-- What refuses a PLAN_CLOSE of a plan slot that is not being built (R24). -/
def buildingRefusal (plan : Nat) (s : State) : Option Response :=
  match Table.find? plan s.plans with
  | some (.building _) => none
  | _ => some (refused .notBuilding)

theorem buildingRefusal_decides (plan : Nat) (s : State) :
    Decides [((∀ profiles, Table.find? plan s.plans ≠ some (.building profiles)), refused .notBuilding)]
      (buildingRefusal plan s) := by
  unfold buildingRefusal
  split
  · next profiles hbuilding => exact ⟨fun hnone => hnone profiles hbuilding, trivial⟩
  · next hother => exact .inl ⟨fun profiles h => hother profiles h, rfl⟩

/-- A PLAN_CLOSE of a plan slot that is not being built is refused so. -/
theorem closePlan_cases (plan resident visitor business : Nat) (s : State) : ∃ taken : State × Response,
    closePlan plan resident visitor business s = (buildingRefusal plan s).elim taken fun r => (s, r) := by
  unfold closePlan buildingRefusal
  cases Table.find? plan s.plans with
  | none => exact ⟨(s, refused .notBuilding), rfl⟩
  | some p =>
    cases p with
    | building profiles => exact ⟨_, rfl⟩
    | ready profiles discounts => exact ⟨(s, refused .notBuilding), rfl⟩

/-- Settles O37. -/
theorem planStoreRequests : Obligations.PlanStoreRequests := by
  intro s tag plan hfree
  have hbegin : exec (.planBegin tag plan) s
      = officeRequest 0x04 tag (onPlan plan fun s => (s.onPlans (Table.put plan (.building [])), ok)) s := rfl
  have hclear : exec (.planClear tag plan) s
      = officeRequest 0x07 tag (onPlan plan fun s => (s.onPlans (Table.erase plan), ok)) s := rfl
  have hsimple (kind : Nat) (f : State → State) :=
    officeRequest_decided (kind := kind) (act := onPlan plan fun s => (f s, ok)) tag hfree
      (Decides.append (planRefusal_decides plan s) fun _ => .nil)
      (onPlan_eq (s := hunting s) (y := none) (taken := (f (hunting s), accepted .empty)) rfl)
  rw [List.append_nil] at hsimple
  refine ⟨fun r hr => ?_, fun hnone => ?_, fun profile bands => ⟨fun r hr => ?_, fun profiles hbuilding hnone => ?_⟩,
    fun resident visitor business => ⟨fun r hr => ?_, fun profiles hbuilding => ?_⟩⟩
  · rw [hbegin, hclear]
    exact ⟨(hsimple 0x04 _).1 r hr, (hsimple 0x07 _).1 r hr⟩
  · rw [hbegin, hclear]
    exact ⟨(hsimple 0x04 _).2 hnone, (hsimple 0x07 _).2 hnone⟩
  · have harm : exec (.profilePut tag plan profile bands) s
        = officeRequest 0x05 tag (onPlan plan (putProfile plan profile bands)) s := rfl
    obtain ⟨taken, hact⟩ := putProfile_cases plan profile bands (hunting s)
    have hd := (planRefusal_decides plan s).append fun _ => profileRefusal_decides plan profile bands s
    rw [harm]
    rw [profileChecks, List.append_assoc] at hr
    exact (officeRequest_decided tag hfree hd (onPlan_eq hact)).1 r hr
  · have harm : exec (.profilePut tag plan profile bands) s
        = officeRequest 0x05 tag (onPlan plan (putProfile plan profile bands)) s := rfl
    have hact := putProfile_eq (s := hunting s) profile bands hbuilding
    have hd := (planRefusal_decides plan s).append fun _ => profileRefusal_decides plan profile bands s
    rw [harm]
    rw [profileChecks, List.append_assoc] at hnone
    exact (officeRequest_decided tag hfree hd (onPlan_eq hact)).2 hnone
  · have harm : exec (.planClose tag plan resident visitor business) s
        = officeRequest 0x06 tag (onPlan plan (closePlan plan resident visitor business)) s := rfl
    obtain ⟨taken, hact⟩ := closePlan_cases plan resident visitor business (hunting s)
    have hd := (planRefusal_decides plan s).append fun _ => buildingRefusal_decides plan s
    rw [harm]
    exact (officeRequest_decided tag hfree hd (onPlan_eq hact)).1 r hr
  · have harm : exec (.planClose tag plan resident visitor business) s
        = officeRequest 0x06 tag (onPlan plan (closePlan plan resident visitor business)) s := rfl
    have hact := closePlan_eq (s := hunting s) resident visitor business hbuilding
    have hd := (planRefusal_decides plan s).append fun _ => closeRefusal_decides resident visitor business profiles
    rw [harm, closeChecks, List.append_assoc]
    exact officeRequest_decided tag hfree hd (onPlan_eq hact)

/-! ### PERMIT_PUT and PERMIT_REVOKE -/

theorem zonesGood_eq_false (zones : List Nat) :
    (!zonesGood zones) = true ↔ zones = [] ∨ (∃ g ∈ zones, g < 1 ∨ 12 < g) ∨ ¬zones.Nodup := by
  simp only [zonesGood, Bool.not_eq_true', Bool.and_eq_false_iff, Bool.not_eq_false', List.isEmpty_iff, List.all_eq_false,
    decide_eq_false_iff_not, Bool.and_eq_true, decide_eq_true_eq, not_and_or, Nat.not_le, or_assoc]
  exact Iff.rfl

theorem suspendedOf_isNone_iff (standing : Nat) : (suspendedOf standing).isNone = true ↔ standing ≠ 1 ∧ standing ≠ 2 := by
  match standing with
  | 0 | 1 | 2 => simp [suspendedOf]
  | n + 3 => simp [suspendedOf]

/-- The standing of an accepted PERMIT_PUT (R80). -/
theorem suspendedOf_getD {standing : Nat} (h : ¬(standing ≠ 1 ∧ standing ≠ 2)) :
    (suspendedOf standing).getD false = decide (standing = 2) := by
  obtain rfl | rfl : standing = 1 ∨ standing = 2 := by omega
  · rfl
  · rfl

/-- What refuses a PERMIT_PUT (R80). -/
def permitRefusal (number : Nat) (p : PermitPut) (s : State) : Option Response :=
  ((badPermitField number p).map (refusedAt .badPermit)).or
    (if (Table.find? number s.permits).isNone = true ∧ Config.maxPermits ≤ s.permits.length then some (refused .registerFull) else none)

theorem permitRefusal_decides (number kind firstDay lastDay allowance standing : Nat) (zones : List Nat) (plate : Plate) (s : State) :
    Decides (permitPutChecks number kind firstDay lastDay allowance standing zones plate s)
      (permitRefusal number
        { kind := kind, firstDay := firstDay, lastDay := lastDay, allowance := allowance, standing := standing, zones := zones,
          plate := plate } s) := by
  refine Decides.append (first := [_, _, _, _, _, _, _]) ?_ fun _ =>
    .cons (and_congr_left' Option.isNone_iff_eq_none.symm) fun _ => .nil
  unfold badPermitField
  simp only [apply_ite (Option.map (refusedAt .badPermit)), Option.map_some, Option.map_none]
  exact .cons Iff.rfl fun _ => .cons Iff.rfl fun _ => .cons (zonesGood_eq_false zones).symm fun _ =>
    .cons (by rw [Bool.not_eq_true']) fun _ => .cons Iff.rfl fun _ => .cons Iff.rfl fun _ =>
      .cons (suspendedOf_isNone_iff standing).symm fun _ => .nil

theorem takePermitPut_eq (number : Nat) (p : PermitPut) (s : State) :
    takePermitPut number p s
      = (permitRefusal number p s).elim
          ({ s with permits := Table.put number (permitRecord p (Table.find? number s.permits)) s.permits },
            accepted
              (.wordCount (if (Table.find? number s.permits).isSome then .replaced else .added)
                (Table.put number (permitRecord p (Table.find? number s.permits)) s.permits).length))
          fun r => (s, r) := by
  unfold takePermitPut permitRefusal
  cases badPermitField number p with
  | some field => rfl
  | none =>
    rw [Option.map_none, Option.none_or]
    dsimp only
    split
    · rfl
    · cases Table.find? number s.permits <;> rfl

/-- A zone set in ascending order holds the groups that were carried (log entry 28). -/
theorem mem_zoneSet {zones : List Nat} (h : ∀ g ∈ zones, g ≤ 12) (g : Nat) : g ∈ zoneSet zones ↔ g ∈ zones := by
  simp only [zoneSet, Config.bayGroups, List.mem_filter, List.mem_range, List.contains_iff_mem]
  exact ⟨And.right, fun hg => ⟨Nat.lt_succ_of_le (h g hg), hg⟩⟩

theorem zoneSet_pairwise (zones : List Nat) : (zoneSet zones).Pairwise (· < ·) :=
  List.Pairwise.filter _ List.pairwise_lt_range

/-- Settles O39. -/
theorem permitChanges : Obligations.PermitChanges := by
  intro s tag number hfree
  refine ⟨fun kind firstDay lastDay allowance standing zones plate => ?_, fun habsent => ?_, fun p hheld => ?_⟩
  · intro checks command before
    have hd := permitRefusal_decides number kind firstDay lastDay allowance standing zones plate s
    have htaken := officeRequest_decided (kind := 0x0A) tag hfree hd (takePermitPut_eq number _ (hunting s))
    refine ⟨htaken.1, fun hnone => ⟨_, ?_, rfl, rfl, rfl, rfl, ?_, zoneSet_pairwise zones, mem_zoneSet ?_, rfl, rfl,
      htaken.2 hnone⟩⟩
    · obtain ⟨-, hkind, -⟩ := hnone
      rw [Option.isNone_iff_eq_none] at hkind
      obtain ⟨k, hk⟩ := Option.ne_none_iff_exists'.mp hkind
      simp only [permitRecord, hk, Option.getD_some]
    · obtain ⟨-, -, -, -, -, -, hstanding, -⟩ := hnone
      exact suspendedOf_getD hstanding
    · obtain ⟨-, -, hzones, -⟩ := hnone
      intro g hg
      by_contra hbig
      exact hzones (.inr (.inl ⟨g, hg, .inr (Nat.not_le.mp hbig)⟩))
  · have harm : exec (.permitRevoke tag number) s = officeRequest 0x0B tag (takePermitRevoke number) s := rfl
    have hact : takePermitRevoke number (hunting s) = (hunting s, refused .notFound) := by
      have habsent' : Table.find? number (hunting s).permits = none := habsent
      simp only [takePermitRevoke, habsent', refusal_eq_refused]
    rw [harm, officeRequest_taken hfree.1 hfree.2, hact]
    rfl
  · have harm : exec (.permitRevoke tag number) s = officeRequest 0x0B tag (takePermitRevoke number) s := rfl
    have hact : takePermitRevoke number (hunting s)
        = ((hunting s).onPermits (Table.erase number), accepted (.revoked (p.hold.map fun h => (h.owner, h.quoteId)))) := by
      have hheld' : Table.find? number (hunting s).permits = some p := hheld
      simp only [takePermitRevoke, hheld', okWith_eq_accepted]
    rw [harm, officeRequest_taken hfree.1 hfree.2, hact]
    rfl

end Sys2Proof.Machine
end

section
/-!
PROOFS. What deriving afresh leaves in step: the rules by which one change of the state is made before and after it (`Reacts` on both
sides), and a request whose owner's act derives afresh. The statements about faults, links, quotes and the clock are assembled from them.
-/

namespace Sys2Proof.Machine

open Sys2Proof

/-! ### Served on both sides -/

/-- A change of a record that reads neither its service state nor its SERVICE notices, and moves neither. -/
structure Neutral (g : Terminal → Terminal) : Prop where
  bare : ∀ x y : Terminal, y.bare = x.bare → (g y).bare = (g x).bare
  queue : ∀ x : Terminal, (g x).link.queue = x.link.queue
  state : ∀ x : Terminal, (g x).link.state = x.link.state
  service : ∀ x : Terminal, (g x).watch.service = x.watch.service

theorem Served.neutral {g : Terminal → Terminal} (hg : Neutral g) {x y : Terminal} (h : Served x y) : Served (g x) (g y) where
  rest := hg.bare x y h.rest
  notice := by
    rw [hg.queue, hg.queue, hg.state, hg.service, hg.service]
    exact h.notice

theorem Served.quote {x y : Terminal} (h : Served x y) : y.quote = x.quote := by
  have := congrArg (fun z : Terminal => z.quote) h.rest
  exact this

theorem Served.faults {x y : Terminal} (h : Served x y) : y.watch.faults = x.watch.faults := by
  have := congrArg (fun z : Terminal => z.watch.faults) h.rest
  exact this

theorem Served.segment {x y : Terminal} (h : Served x y) : y.segment = x.segment := by
  have := congrArg (fun z : Terminal => z.segment) h.rest
  exact this

theorem Served.plans {x y : Terminal} (h : Served x y) : y.plans = x.plans := by
  have := congrArg (fun z : Terminal => z.plans) h.rest
  exact this

theorem Served.state {x y : Terminal} (h : Served x y) : y.link.state = x.link.state := Terminal.bare_state h.rest

/-- Notices of a sort are withdrawn, none of them a SERVICE or a RESET. -/
theorem Served.without {sort : NoticeBody → Bool} (hsort : ∀ b : NoticeBody, b.isService = true ∨ b = .reset → sort b = false)
    {x y : Terminal} (h : Served x y) : Served (x.without sort) (y.without sort) := by
  refine Served.onQueue (fun q => q.filter fun n => !sort n.body) (fun q => ?_) ?_ ?_ h
  · rw [services, services, List.filter_filter]
    refine List.filter_congr fun n _ => ?_
    cases hn : n.body.isService with
    | true => rw [hsort n.body (.inl hn)]; rfl
    | false => rfl
  · rw [List.filter_filter, List.filter_filter]
    simp only [Bool.and_comm]
    rw [← List.filter_filter, ← List.filter_filter, h.queue]
  · rw [List.any_filter]
    congr 1
    funext n
    by_cases hn : n.body = .reset
    · rw [hsort n.body (.inr hn)]
      simp [hn]
    · simp [hn]

theorem not_service_or_reset {sort : NoticeBody → Bool} (hs : ∀ v, sort (.service v) = false) (hr : sort .reset = false)
    (b : NoticeBody) (hb : b.isService = true ∨ b = .reset) : sort b = false := by
  rcases hb with hb | rfl
  · cases b <;> first | exact hs _ | cases hb
  · exact hr

theorem Neutral.onFault (k : FaultKind) (f : FaultRecord → FaultRecord) : Neutral (Terminal.onFault k f) where
  bare x y h := by
    have h' := congrArg (Terminal.onFault k f) h
    exact h'
  queue _ := rfl
  state _ := rfl
  service _ := rfl

theorem Neutral.quote (q : QuoteSlot) : Neutral fun y => { y with quote := q } where
  bare _ _ h := congrArg (fun z : Terminal => { z with quote := q }) h
  queue _ := rfl
  state _ := rfl
  service _ := rfl

/-! ### Deriving afresh, with the same change on both sides -/

namespace Reacts

variable {u t : State}

/-- A state whose terminals look the same slot by slot. -/
theorem lookups {v : State} (hk : Keeps [.terminals] v u) (hl : ∀ k, terminal u k = terminal v k) : Reacts u v :=
  .of_same hk hl (.refl v)

/-- Two changes of one slot's record that agree on the record found. -/
theorem agree {slot : Nat} {f g : Terminal → Terminal} {s : State} (h : ∀ x, Machine.terminal s slot = some x → f x = g x) :
    Reacts (Machine.onTerminal slot f s) (Machine.onTerminal slot g s) :=
  .lookups (fun b hb => by cases b <;> first | rfl | exact absurd (by decide) hb) (onTerminal_congr h)

/-- The fields that deriving afresh neither reads nor changes may change alike on both sides. -/
theorem rest {u' t' : State} (h : Reacts u t)
    (hu : Keeps [.plans, .engine, .sales, .permits, .line, .office, .roster, .service, .freeIndex, .pending] u u')
    (ht : Keeps [.plans, .engine, .sales, .permits, .line, .office, .roster, .service, .freeIndex, .pending] t t')
    (hsame : Keeps [.calendar, .terminals, .cash, .groups, .journal, .attention, .supply] u' t') : Reacts u' t' := by
  have hu1 : u'.terminals = u.terminals := hu .terminals (by decide)
  have hu2 : u'.groups = u.groups := hu .groups (by decide)
  have hu3 : u'.journal = u.journal := hu .journal (by decide)
  have hu4 : u'.attention = u.attention := hu .attention (by decide)
  have hu5 : u'.calendar = u.calendar := hu .calendar (by decide)
  have hu6 : u'.cash = u.cash := hu .cash (by decide)
  have hu7 : u'.supply = u.supply := hu .supply (by decide)
  have ht1 : t'.terminals = t.terminals := ht .terminals (by decide)
  have ht2 : t'.groups = t.groups := ht .groups (by decide)
  have ht3 : t'.journal = t.journal := ht .journal (by decide)
  have ht4 : t'.attention = t.attention := ht .attention (by decide)
  have ht5 : t'.calendar = t.calendar := ht .calendar (by decide)
  have ht6 : t'.cash = t.cash := ht .cash (by decide)
  have ht7 : t'.supply = t.supply := ht .supply (by decide)
  have hut (k : Nat) : Machine.terminal u' k = Machine.terminal u k := by rw [Machine.terminal, hu1]; rfl
  have htt (k : Nat) : Machine.terminal t' k = Machine.terminal t k := by rw [Machine.terminal, ht1]; rfl
  obtain ⟨told, hj, hlen, hcov, hflag, hshown⟩ := h.told
  refine
    { keeps := fun b hb => ?_
      slots := fun k => by rw [htt, hut, h.slots]
      terminals := fun k x y hx hy => h.terminals k x y (hut k ▸ hx) (htt k ▸ hy)
      groups := by rw [ht2, hu2, h.groups]
      told := ⟨told, ?_, ?_, ?_, ?_, fun hne => ?_⟩
      events := by rw [ht4, hu4]; exact h.events
      stands := by rw [ht4, hu4]; exact h.stands
      conditions := ?_
      mask := by rw [ht4, hu4, h.mask] }
  · cases b with
    | terminals | groups | journal | attention => exact absurd (by decide) hb
    | calendar => exact ht5.trans (h.calendar.trans hu5.symm)
    | cash => exact ht6.trans (h.cash.trans hu6.symm)
    | supply => exact ht7.trans (h.supply.trans hu7.symm)
    | _ => exact hsame _ (by decide)
  · rw [ht3, hj, hu5]
    exact (tells_congr _ told hu3 hu5 hu7).symm
  · rw [freeSpace_congr hu3]
    exact hlen
  · rw [hu2, ht2, hu5, freeSpace_congr ht3, ht4]
    exact hcov
  · rw [ht4, hu4, ht2, hu5]
    exact hflag
  · have := (shown_iff t).mp (hshown hne)
    rw [shown_iff, freeSpace_congr ht3, ht3, ht4, ht5, ht6]
    exact this
  · rw [ht4, hu4, freeSpace_congr ht3, ht3, ht5, ht6]
    exact h.conditions

theorem onEngine (f : Engine → Engine) (h : Reacts u t) : Reacts (u.onEngine f) (t.onEngine f) := by
  have he : t.engine = u.engine := h.keeps .engine (by decide)
  refine h.rest (fun b hb => ?_) (fun b hb => ?_) fun b hb => ?_
  · cases b <;> first | rfl | exact absurd (by decide) hb
  · cases b <;> first | rfl | exact absurd (by decide) hb
  · have := h.keeps b (by revert hb; cases b <;> decide)
    cases b <;> first | exact this | exact congrArg f he

theorem onPermits (f : Table Permit → Table Permit) (h : Reacts u t) : Reacts (u.onPermits f) (t.onPermits f) := by
  have he : t.permits = u.permits := h.keeps .permits (by decide)
  refine h.rest (fun b hb => ?_) (fun b hb => ?_) fun b hb => ?_
  · cases b <;> first | rfl | exact absurd (by decide) hb
  · cases b <;> first | rfl | exact absurd (by decide) hb
  · have := h.keeps b (by revert hb; cases b <;> decide)
    cases b <;> first | exact this | exact congrArg f he

theorem onSales (f : Sales → Sales) (h : Reacts u t) : Reacts (u.onSales f) (t.onSales f) := by
  have he : t.sales = u.sales := h.keeps .sales (by decide)
  refine h.rest (fun b hb => ?_) (fun b hb => ?_) fun b hb => ?_
  · cases b <;> first | rfl | exact absurd (by decide) hb
  · cases b <;> first | rfl | exact absurd (by decide) hb
  · have := h.keeps b (by revert hb; cases b <;> decide)
    cases b <;> first | exact this | exact congrArg f he

/-- A flag is set on both sides. -/
theorem raise (f : Flag) (h : Reacts u t) : Reacts (raise f u) (raise f t) := by
  obtain ⟨told, hj, hlen, hcov, hflag, hshown⟩ := h.told
  have hstands : (u.attention.flags.set f).or (t.attention.flags.set f) = t.attention.flags.set f := by
    have := h.stands
    rw [← this]
    cases f <;> simp [Flags.set, Flags.or]
  have hrise : t.attention.flags.or (t.attention.flags.set f) = t.attention.flags.set f := by
    cases f <;> simp [Flags.set, Flags.or]
  have hkept := Flags.or_fields hrise
  obtain ⟨e1, e2, e3, e4, e5⟩ := h.events
  obtain ⟨c1, c2, c3, c4⟩ := h.conditions
  refine
    { keeps := fun b hb => ?_
      slots := h.slots
      terminals := h.terminals
      groups := h.groups
      told := ⟨told, ?_, hlen, fun g a b ha hb => ?_, ?_, fun hne => ?_⟩
      events := ?_
      stands := hstands
      conditions := ?_
      mask := h.mask }
  · have := h.keeps b hb
    cases b <;> first | exact this | exact absurd (by decide) hb
  · rw [show (Machine.raise f t).journal = t.journal from rfl, hj]
    exact (tells_congr (u := u) (v := Machine.raise f u) _ told rfl rfl rfl).symm
  · exact (hcov g a b ha hb).imp id fun ⟨hsince, hcover, hrest⟩ => ⟨hsince, hkept.2.2.2.2.2.1 hcover, hrest⟩
  · intro hcover
    cases f with
    | cover => exact .inl rfl
    | _ => exact hflag hcover
  · obtain ⟨s1, s2, s3, s4⟩ := (shown_iff t).mp (hshown hne)
    exact (shown_iff _).mpr
      ⟨fun hc => hkept.1 (s1 hc), fun hc => hkept.2.1 (s2 hc), fun hc => hkept.2.2.1 (s3 hc), fun hc => hkept.2.2.2.1 (s4 hc)⟩
  · cases f <;> exact ⟨by first | rfl | exact e1, by first | rfl | exact e2, by first | rfl | exact e3,
      by first | rfl | exact e4, by first | rfl | exact e5⟩
  · cases f with
    | salesHalted => exact ⟨fun _ => .inl rfl, c2, c3, c4⟩
    | journalHigh => exact ⟨c1, fun _ => .inl rfl, c3, c4⟩
    | counts => exact ⟨c1, c2, fun _ => .inl rfl, c4⟩
    | clock => exact ⟨c1, c2, c3, fun _ => .inl rfl⟩
    | _ => exact ⟨c1, c2, c3, c4⟩

/-- A slot is configured on both sides, with records that `Served` relates, or on neither. -/
theorem slot_cases (h : Reacts u t) (slot : Nat) :
    (Machine.terminal u slot = none ∧ Machine.terminal t slot = none)
      ∨ ∃ x y, Machine.terminal u slot = some x ∧ Machine.terminal t slot = some y ∧ Served x y := by
  have hs := h.slots slot
  cases hx : Machine.terminal u slot with
  | none =>
    rw [hx] at hs
    exact .inl ⟨rfl, Option.isNone_iff_eq_none.mp (by rw [← Option.not_isSome, hs]; rfl)⟩
  | some x =>
    rw [hx] at hs
    obtain ⟨y, hy⟩ := Option.isSome_iff_exists.mp hs
    exact .inr ⟨x, y, rfl, hy, h.terminals slot x y hx hy⟩

/-- A fault's condition is reported on both sides. -/
theorem reportFault (slot : Nat) (k : FaultKind) (present : Bool) (h : Reacts u t) :
    Reacts (reportFault slot k present u) (reportFault slot k present t) := by
  rcases h.slot_cases slot with ⟨hx, hy⟩ | ⟨x, y, hx, hy, hxy⟩
  · simp only [Machine.reportFault, hx, hy]
    exact h
  · simp only [Machine.reportFault, hx, hy, h.calendar, hxy.faults]
    have hboth := reacts_onBoth slot (Terminal.onFault k (FaultRecord.reported present u.calendar.zoneTime))
      (fun _ _ => Served.neutral (.onFault k _)) h
    split
    · exact hboth.raise .fault
    · exact hboth

/-- An event-kind fault is raised on both sides. -/
theorem raiseFault (slot : Nat) (k : FaultKind) (h : Reacts u t) : Reacts (raiseFault slot k u) (raiseFault slot k t) := by
  rcases h.slot_cases slot with ⟨hx, hy⟩ | ⟨x, y, hx, hy, hxy⟩
  · simp only [Machine.raiseFault, hx, hy]
    exact h
  · simp only [Machine.raiseFault, hx, hy, h.calendar]
    exact (reacts_onBoth slot _ (fun _ _ => Served.neutral (.onFault k _)) h).raise .fault

end Reacts

/-! ### The end of a quote -/

/-- What the end of a quote does beside its slot's record: its entry leaves the walk queue, its walk is marked, its hold is released. -/
def quoteDropped (slot : Nat) (q : QuoteSlot) (s : State) : State :=
  match q with
  | .none => s
  | .queued _ => withdrawEntry slot s
  | .walking _ => markDiscard slot s
  | .opened q => s.onPermits (released slot q)

/-- What the end of a quote in this stage does to its slot's record. -/
def Terminal.quoteClosed (now : Nat) (q : QuoteSlot) (y : Terminal) : Terminal :=
  if q = .none then y.without NoticeBody.isResult
  else Terminal.considered now { y.without NoticeBody.isResult with quote := .none }

theorem quoteEnded_none {slot : Nat} {s : State} (h : terminal s slot = none) : quoteEnded slot s = s := by
  rw [quoteEnded, h]

theorem quoteEnded_some {slot : Nat} {s : State} {x : Terminal} (h : terminal s slot = some x) :
    quoteEnded slot s = onTerminal slot (Terminal.quoteClosed s.calendar.zoneTime x.quote) (quoteDropped slot x.quote s) := by
  rw [quoteEnded, h]
  dsimp only
  cases x.quote <;> rfl

theorem releaseQuote_eq (slot : Nat) (q : OpenQuote) (s : State) : releaseQuote slot q s = s.onPermits (released slot q) := by
  have howns (p : Permit) : ownsHold p slot q.quoteId = p.hold.any fun h => h.owner == slot && h.quoteId == q.quoteId := by
    rw [ownsHold]
    cases p.hold <;> rfl
  unfold releaseQuote released releaseHold
  cases q.permit with
  | none => rfl
  | some p => simp only [howns]

theorem Served.quoteClosed (now : Nat) (q : QuoteSlot) {x y : Terminal} (h : Served x y) :
    Served (x.quoteClosed now q) (y.quoteClosed now q) := by
  have hclear : Served (x.without NoticeBody.isResult) (y.without NoticeBody.isResult) :=
    h.without (not_service_or_reset (fun _ => rfl) rfl)
  unfold Terminal.quoteClosed
  split
  · exact hclear
  · exact (hclear.neutral (.quote .none)).considered now

theorem Reacts.quoteDropped {u t : State} (slot : Nat) (q : QuoteSlot) (h : Reacts u t) :
    Reacts (quoteDropped slot q u) (quoteDropped slot q t) := by
  cases q with
  | none => exact h
  | queued _ => exact h.onEngine fun e => { e with queue := e.queue.filter fun x => x.slot ≠ slot }
  | walking _ =>
    exact h.onEngine fun e =>
      { e with walk := e.walk.map fun w => if w.entry.slot = slot then { w with discard := true } else w }
  | opened q => exact h.onPermits (released slot q)

/-- A quote ends on both sides. -/
theorem Reacts.quoteEnded {u t : State} (slot : Nat) (h : Reacts u t) : Reacts (quoteEnded slot u) (quoteEnded slot t) := by
  rcases h.slot_cases slot with ⟨hx, hy⟩ | ⟨x, y, hx, hy, hxy⟩
  · rw [quoteEnded_none hx, quoteEnded_none hy]
    exact h
  · rw [quoteEnded_some hx, quoteEnded_some hy, hxy.quote, h.calendar]
    exact reacts_onBoth slot _ (fun _ _ => Served.quoteClosed _ _) (h.quoteDropped slot x.quote)

/-- Two changes of a slot's record that agree on the record found are the same change, in a table in order. -/
theorem onTerminal_eq {slot : Nat} {f g : Terminal → Terminal} {s : State} (hwf : Table.wf s.terminals = true)
    (h : ∀ x, terminal s slot = some x → f x = g x) : onTerminal slot f s = onTerminal slot g s := by
  rw [onTerminal, onTerminal, State.onTerminals, State.onTerminals]
  congr 1
  refine List.map_congr_left fun e he => ?_
  by_cases hkey : e.1 = slot
  · rw [if_pos hkey, if_pos hkey, h e.2 (by rw [← hkey]; exact Table.find?_of_mem hwf he)]
  · rw [if_neg hkey, if_neg hkey]

theorem onTerminal_absent {slot : Nat} {f : Terminal → Terminal} {s : State} (h : terminal s slot = none) :
    onTerminal slot f s = s := by
  have hnone : Table.modify slot f s.terminals = s.terminals := by
    rw [Table.modify]
    conv => rhs; rw [← List.map_id s.terminals]
    refine List.map_congr_left fun e he => ?_
    refine if_neg fun hkey => ?_
    have hmem : slot ∈ Table.keys s.terminals := hkey ▸ List.mem_map_of_mem (f := Prod.fst) he
    rw [Table.mem_keys_iff] at hmem
    rw [terminal] at h
    rw [h] at hmem
    cases hmem
  rw [onTerminal, State.onTerminals, hnone]

theorem wf_onTerminal (slot : Nat) (f : Terminal → Terminal) {s : State} (hwf : Table.wf s.terminals = true) :
    Table.wf (onTerminal slot f s).terminals = true := Table.wf_modify slot f s.terminals hwf

/-- What considering a slot for sleep makes of the record found. -/
theorem considered_eq {now : Nat} {x : Terminal} :
    x.considered now
      = if maySleep now x = true then
          { x with link := { x.link with queue := joinQueue NoticeBody.isSleep .sleep x.link.queue } }
        else x := by
  have due := maySleep_iff now x
  by_cases hm : maySleep now x = true
  · have hd := due.mp hm
    have hs : (x.link.queue.any fun n => n.body.isSleep) = false := by
      rw [List.any_eq_false]
      intro n hn
      have := (hd.2.2.2.2.2 n hn).1
      revert this
      cases n.body <;> simp [NoticeBody.isSleep]
    rw [if_pos hm, Terminal.considered, if_pos hd, joinQueue_eq, notified, hd.noReset, hs]
    rfl
  · rw [if_neg hm]
    exact if_neg (mt due.mpr hm)

theorem considerSleep_eq {slot : Nat} {s : State} (hwf : Table.wf s.terminals = true) :
    considerSleep slot s = onTerminal slot (Terminal.considered s.calendar.zoneTime) s := by
  unfold considerSleep
  cases hx : terminal s slot with
  | none => exact (onTerminal_absent hx).symm
  | some x =>
    dsimp only
    by_cases hm : maySleep s.calendar.zoneTime x = true
    · rw [if_pos hm]
      refine onTerminal_eq hwf fun y hy => ?_
      rw [hx] at hy
      cases hy
      rw [considered_eq, if_pos hm]
    · rw [if_neg hm]
      have hid : onTerminal slot id s = s := by
        rw [onTerminal, State.onTerminals, Table.modify]
        simp
      conv => lhs; rw [← hid]
      refine onTerminal_eq hwf fun y hy => ?_
      rw [hx] at hy
      cases hy
      rw [considered_eq, if_neg hm]
      rfl

/-- A quote's end is its record's, but for the consideration for sleep (R64, R65). -/
theorem endQuote_some {slot : Nat} {s : State} {x : Terminal} (h : terminal s slot = some x) :
    endQuote slot s
      = if x.quote = .none then withdrawResult slot s
        else
          considerSleep slot
            (onTerminal slot (fun y => { y.without NoticeBody.isResult with quote := .none }) (quoteDropped slot x.quote s)) := by
  have hmerge (u : State) : setQuote slot .none (withdrawResult slot u)
      = onTerminal slot (fun y => { y.without NoticeBody.isResult with quote := .none }) u := onTerminal_onTerminal slot _ _ u
  rw [endQuote, h]
  dsimp only
  cases hq : x.quote with
  | none => rfl
  | queued i => exact congrArg (considerSleep slot) (hmerge (withdrawEntry slot s))
  | walking i => exact congrArg (considerSleep slot) (hmerge (markDiscard slot s))
  | opened q =>
    have hrelease : releaseQuote slot q (withdrawResult slot s) = withdrawResult slot (s.onPermits (released slot q)) :=
      releaseQuote_eq slot q _
    dsimp only
    rw [hrelease]
    exact congrArg (considerSleep slot) (hmerge (s.onPermits (released slot q)))

/-- A quote's end changes the state as the statements say, up to what is derived afresh. -/
theorem endQuote_reacts (slot : Nat) (s : State) : Reacts (quoteEnded slot s) (endQuote slot s) := by
  cases hx : terminal s slot with
  | none =>
    rw [quoteEnded_none hx, endQuote, hx]
    exact .refl s
  | some x =>
    rw [quoteEnded_some hx, endQuote_some hx]
    unfold Terminal.quoteClosed
    by_cases hq : x.quote = .none
    · simp only [hq, if_true]
      exact .refl _
    · simp only [hq, if_false]
      have hsleep := considerSleep_reacts slot
        (onTerminal slot (fun y => { y.without NoticeBody.isResult with quote := .none }) (quoteDropped slot x.quote s))
      rw [onTerminal_onTerminal] at hsleep
      cases hstage : x.quote with
      | none => exact absurd hstage hq
      | queued _ | walking _ | opened _ =>
        rw [hstage] at hsleep
        exact hsleep

theorem endQuote_eq_quoteEnded {slot : Nat} {s : State} (hwf : Table.wf s.terminals = true) : endQuote slot s = quoteEnded slot s := by
  cases hx : terminal s slot with
  | none => rw [quoteEnded_none hx, endQuote, hx]
  | some x =>
    have hterminals : (quoteDropped slot x.quote s).terminals = s.terminals := by cases x.quote <;> rfl
    have hcalendar : (quoteDropped slot x.quote s).calendar = s.calendar := by cases x.quote <;> rfl
    rw [quoteEnded_some hx, endQuote_some hx]
    unfold Terminal.quoteClosed
    by_cases hq : x.quote = .none
    · simp only [hq, if_true]
      rfl
    · simp only [hq, if_false]
      rw [considerSleep_eq, onTerminal_onTerminal]
      · rw [show (onTerminal slot (fun y => { y.without NoticeBody.isResult with quote := .none })
          (quoteDropped slot x.quote s)).calendar = s.calendar from hcalendar]
      · exact wf_onTerminal slot _ (hterminals ▸ hwf)

/-- A slot that leaves a called state, or is barred (R65, R139): its link fields change and its quote ends. -/
theorem leaveTo_reacts (slot : Nat) (new : LinkState) (s : State) :
    Reacts (quoteEnded slot (onTerminal slot (fun y => { y with link := y.link.leave s.calendar.uptime new }) s))
      (leaveTo slot new s) :=
  (endQuote_reacts slot _).trans (deriveService_reacts slot _)

end Sys2Proof.Machine
end

section
/-!
PROOFS. Segment boundaries (R14, R146, R148), switches (R30) and TIME notices (R10) of every slot: what one slot's record becomes, and
what an action taken slot by slot makes of the terminal table. Requests whose owner's act derives afresh.
-/

namespace Sys2Proof.Machine

open Sys2Proof

/-! ### Queues beside their SERVICE notices -/

/-- A change of a queue that neither reads nor moves its SERVICE notices, and neither brings a RESET nor takes one. -/
structure Beside (f : List Notice → List Notice) : Prop where
  services : ∀ q, services (f q) = services q
  others : ∀ q, (f q).filter (fun n => !n.body.isService) = f (q.filter fun n => !n.body.isService)
  reset : ∀ q, ((f q).any fun n => n.body = .reset) = q.any fun n => n.body = .reset

theorem Beside.id : Beside fun q => q := ⟨fun _ => rfl, fun _ => rfl, fun _ => rfl⟩

theorem Beside.comp {f g : List Notice → List Notice} (hf : Beside f) (hg : Beside g) : Beside fun q => f (g q) :=
  ⟨fun q => (hf.services _).trans (hg.services q), fun q => (hf.others _).trans (congrArg f (hg.others q)),
    fun q => (hf.reset _).trans (hg.reset q)⟩

theorem Beside.withdraw {sort : NoticeBody → Bool} (hsort : ∀ b : NoticeBody, b.isService = true ∨ b = .reset → sort b = false) :
    Beside (withdraw sort) where
  services q := by
    rw [Machine.services, Machine.services, Machine.withdraw, List.filter_filter]
    refine List.filter_congr fun n _ => ?_
    cases hn : n.body.isService with
    | true => rw [hsort n.body (.inl hn)]; rfl
    | false => rfl
  others q := by
    rw [Machine.withdraw, Machine.withdraw, List.filter_filter, List.filter_filter]
    simp only [Bool.and_comm]
  reset q := by
    rw [Machine.withdraw, List.any_filter]
    congr 1
    funext n
    by_cases hn : n.body = .reset
    · rw [hsort n.body (.inr hn)]
      simp [hn]
    · simp [hn]

theorem Beside.joinWake : Beside joinWake := by
  have hsorts (q : List Notice) : (holds NoticeBody.isReset q || holds NoticeBody.isWake q)
      = (holds NoticeBody.isReset (q.filter fun n => !n.body.isService)
        || holds NoticeBody.isWake (q.filter fun n => !n.body.isService)) := by
    have hone (sort : NoticeBody → Bool) (hsort : ∀ v, sort (.service v) = false) :
        holds sort (q.filter fun n => !n.body.isService) = holds sort q := by
      refine any_without_service (fun n => sort n.body) (fun n hn => ?_) q
      cases hbody : n.body with
      | service v =>
        rw [hbody, hsort v] at hn
        cases hn
      | _ => rfl
    rw [hone _ fun _ => rfl, hone _ fun _ => rfl]
  constructor
  · intro q
    unfold Machine.joinWake
    split
    · rfl
    · rfl
  · intro q
    unfold Machine.joinWake
    rw [← hsorts q]
    split
    · rfl
    · rfl
  · intro q
    unfold Machine.joinWake
    split
    · rfl
    · rfl

theorem Served.beside {f : List Notice → List Notice} (hf : Beside f) {x y : Terminal} (h : Served x y) :
    Served { x with link := { x.link with queue := f x.link.queue } } { y with link := { y.link with queue := f y.link.queue } } :=
  .onQueue f hf.services (by rw [hf.others, hf.others, h.queue]) (hf.reset _) h

/-! ### A boundary (R14, R146, R148) -/

theorem sleepSegment_iff (now : Nat) (segment : Option Segment) : sleepSegment now segment = true ↔ FreeLong now segment := by
  cases segment with
  | none => simp [sleepSegment, FreeLong]
  | some g =>
    simp only [sleepSegment, FreeLong, Bool.and_eq_true, decide_eq_true_eq, Option.mem_def, Option.some.injEq, exists_eq_left']
    exact Iff.rfl

theorem isWake_iff (b : NoticeBody) : b.isWake = true ↔ b = .wake := by
  cases b <;> simp [NoticeBody.isWake]

theorem isSleep_iff (b : NoticeBody) : b.isSleep = true ↔ b = .sleep := by
  cases b <;> simp [NoticeBody.isSleep]

theorem isReset_iff (b : NoticeBody) : b.isReset = true ↔ b = .reset := by
  cases b <;> simp [NoticeBody.isReset]

theorem withdraw_wake (q : List Notice) : withdraw NoticeBody.isWake q = q.filter fun n => n.body ≠ .wake :=
  List.filter_congr fun n _ => by
    rw [Bool.eq_iff_iff, Bool.not_eq_true', ← Bool.not_eq_true, isWake_iff, decide_eq_true_eq]

theorem withdraw_sleep (q : List Notice) : withdraw NoticeBody.isSleep q = q.filter fun n => n.body ≠ .sleep :=
  List.filter_congr fun n _ => by
    rw [Bool.eq_iff_iff, Bool.not_eq_true', ← Bool.not_eq_true, isSleep_iff, decide_eq_true_eq]

theorem noWake_iff (q : List Notice) :
    (holds NoticeBody.isReset q || holds NoticeBody.isWake q) = false ↔ ∀ n ∈ q, n.body ≠ .wake ∧ n.body ≠ .reset := by
  simp only [holds, Bool.or_eq_false_iff, List.any_eq_false, isReset_iff, isWake_iff]
  exact ⟨fun h n hn => ⟨h.2 n hn, h.1 n hn⟩, fun h => ⟨fun n hn => (h n hn).2, fun n hn => (h n hn).1⟩⟩

/-- A boundary's queue, in the words of the statements. -/
theorem boundaryQueue_eq (now : Nat) (state : LinkState) (found : Option Segment) (q : List Notice) :
    boundaryQueue now state found q
      = (let woken : List Notice :=
          if found.map (·.kind) = some .charged then
            if state = .sleeping ∧ ∀ n ∈ q, n.body ≠ .wake ∧ n.body ≠ .reset then { body := .wake, rode := false } :: q else q
          else q.filter fun n => n.body ≠ .wake
        if FreeLong now found then woken else woken.filter fun n => n.body ≠ .sleep) := by
  have hwoken : (if state = .sleeping then joinWake q else q)
      = if state = .sleeping ∧ ∀ n ∈ q, n.body ≠ .wake ∧ n.body ≠ .reset then { body := .wake, rode := false } :: q else q := by
    by_cases hstate : state = .sleeping
    · rw [if_pos hstate, joinWake]
      cases hwaits : holds NoticeBody.isReset q || holds NoticeBody.isWake q with
      | true =>
        rw [if_pos rfl, if_neg fun h => ?_]
        rw [(noWake_iff q).mpr h.2] at hwaits
        cases hwaits
      | false => rw [if_neg Bool.false_ne_true, if_pos ⟨hstate, (noWake_iff q).mp hwaits⟩]
    · rw [if_neg hstate, if_neg fun h => hstate h.1]
  rw [boundaryQueue]
  simp only [hwoken, withdraw_wake, withdraw_sleep, sleepSegment_iff]

/-- A terminal that enters another segment: its queue as the boundary leaves it, then the consideration for sleep. -/
theorem bounded_eq {now : Nat} {found : Option Segment} {x : Terminal} (h : found ≠ x.segment) :
    x.bounded now found
      = Terminal.considered now
          { x with
            segment := found
            link := { x.link with queue := boundaryQueue now x.link.state found x.link.queue } } := by
  rw [Terminal.bounded, if_neg h, boundaryQueue_eq]

theorem bounded_same {now : Nat} {found : Option Segment} {x : Terminal} (h : found = x.segment) : x.bounded now found = x := by
  rw [Terminal.bounded, if_pos h]

theorem Beside.boundaryQueue (now : Nat) (state : LinkState) (found : Option Segment) : Beside (boundaryQueue now state found) := by
  have hwake : Beside (Machine.withdraw NoticeBody.isWake) := .withdraw (not_service_or_reset (fun _ => rfl) rfl)
  have hsleep : Beside (Machine.withdraw NoticeBody.isSleep) := .withdraw (not_service_or_reset (fun _ => rfl) rfl)
  have hfirst : Beside fun q =>
      if decide (found.map (·.kind) = some SegKind.charged) = true then (if state = .sleeping then Machine.joinWake q else q)
      else Machine.withdraw NoticeBody.isWake q := by
    by_cases hcharged : decide (found.map (·.kind) = some SegKind.charged) = true
    · simp only [hcharged, if_true]
      by_cases hstate : state = .sleeping
      · simp only [hstate, if_true]
        exact .joinWake
      · simp only [hstate, if_false]
        exact .id
    · simp only [hcharged]
      exact hwake
  unfold Machine.boundaryQueue
  cases hlong : sleepSegment now found with
  | true => simpa using hfirst
  | false => simpa using hsleep.comp hfirst

theorem Served.bounded (now : Nat) (found : Option Segment) {x y : Terminal} (h : Served x y) :
    Served (x.bounded now found) (y.bounded now found) := by
  by_cases hsame : found = x.segment
  · rw [bounded_same hsame, bounded_same (hsame.trans h.segment.symm)]
    exact h
  · rw [bounded_eq hsame, bounded_eq (by rwa [h.segment]), h.state]
    have hqueue := h.beside (.boundaryQueue now x.link.state found)
    have hsegment : Neutral fun z : Terminal => { z with segment := found } :=
      ⟨fun _ _ hbare => congrArg (fun z : Terminal => { z with segment := found }) hbare, fun _ => rfl, fun _ => rfl, fun _ => rfl⟩
    exact (hqueue.neutral hsegment).considered now

theorem terminal_onTerminal_self {slot : Nat} {f : Terminal → Terminal} {s : State} {x : Terminal} (h : terminal s slot = some x) :
    terminal (onTerminal slot f s) slot = some (f x) := by
  rw [terminal] at h
  rw [terminal, onTerminal, State.onTerminals_terminals, Table.find?_modify_self, h, Option.map_some]

/-- A slot's record changes, and then the slot is considered for sleep. -/
theorem considerSleep_after (slot : Nat) (f : Terminal → Terminal) (s : State) :
    Reacts (onTerminal slot (fun y => (f y).considered s.calendar.zoneTime) s) (considerSleep slot (onTerminal slot f s)) := by
  have h := considerSleep_reacts slot (onTerminal slot f s)
  rw [onTerminal_onTerminal] at h
  exact h

/-- A record in its new segment, with the queue that the boundary leaves. -/
def Terminal.entered (now : Nat) (found : Option Segment) (state : LinkState) (y : Terminal) : Terminal :=
  { y with segment := found, link := { y.link with queue := boundaryQueue now state found y.link.queue } }

/-- A slot whose segment is found afresh (R14): its record is bounded, and the Fault Monitor follows. -/
theorem refind_reacts (slot : Nat) (s : State) :
    Reacts (onTerminal slot (fun y => y.bounded s.calendar.zoneTime (segmentNow s y.plans)) s) (refind slot s) := by
  cases hx : terminal s slot with
  | none =>
    rw [onTerminal_absent hx, refind, hx]
    exact .refl s
  | some x =>
    rw [refind, hx]
    dsimp only
    by_cases hsame : segmentNow s x.plans = x.segment
    · rw [if_pos hsame]
      refine .lookups (fun b hb => by cases b <;> first | rfl | exact absurd (by decide) hb) (onTerminal_same hx ?_)
      exact bounded_same hsame
    · rw [if_neg hsame, deliverBoundary, terminal_onTerminal_self hx]
      have hmerge : onQueue slot (boundaryQueue s.calendar.zoneTime x.link.state (segmentNow s x.plans))
            (onTerminal slot (fun y => { y with segment := segmentNow s x.plans }) s)
          = onTerminal slot (Terminal.entered s.calendar.zoneTime (segmentNow s x.plans) x.link.state) s :=
        onTerminal_onTerminal slot _ _ s
      have hsleep : Reacts
          (onTerminal slot
            (fun y => (y.entered s.calendar.zoneTime (segmentNow s x.plans) x.link.state).considered s.calendar.zoneTime) s)
          (considerSleep slot
            (onQueue slot (boundaryQueue s.calendar.zoneTime x.link.state (segmentNow s x.plans))
              (onTerminal slot (fun y => { y with segment := segmentNow s x.plans }) s))) := by
        rw [hmerge]
        exact considerSleep_after slot _ s
      refine Reacts.trans (.agree fun y hy => ?_) (hsleep.trans (cover_reacts _ _))
      rw [hx] at hy
      cases hy
      exact bounded_eq hsame

/-! ### TIME notices (R10) -/

theorem Served.timed (c : Calendar) {x y : Terminal} (h : Served x y) : Served (x.timed c) (y.timed c) := by
  unfold Terminal.timed
  rw [h.state]
  split
  · exact h.toldTime _ rfl
  · split
    · exact h.neutral (g := fun z => { z with link := { z.link with timeOwed := true } })
        ⟨fun _ _ hbare => congrArg (fun z : Terminal => { z with link := { z.link with timeOwed := true } }) hbare, fun _ => rfl,
          fun _ => rfl, fun _ => rfl⟩
    · exact h

end Sys2Proof.Machine
end

section
/-!
PROOFS. What an action taken slot by slot makes of the terminal table, and requests whose owner's act derives afresh: the port that has
the request in progress, and beside it what the act did.
-/

namespace Sys2Proof.Machine

open Sys2Proof

/-! ### Slot by slot -/

/-- The records of these slots change. -/
def onSlots (slots : List Nat) (g : Terminal → Terminal) (s : State) : State :=
  s.onTerminals fun t => t.map fun e => if e.1 ∈ slots then (e.1, g e.2) else e

theorem foldl_onTerminal (g : Terminal → Terminal) {slots : List Nat} (hslots : slots.Nodup) (s : State) :
    slots.foldl (fun u k => onTerminal k g u) s = onSlots slots g s := by
  induction slots generalizing s with
  | nil =>
    simp only [List.foldl_nil, onSlots, State.onTerminals, List.not_mem_nil, if_false, List.map_id']
  | cons k rest ih =>
    obtain ⟨hk, hrest⟩ := List.nodup_cons.mp hslots
    rw [List.foldl_cons, ih hrest]
    simp only [onSlots, onTerminal, State.onTerminals, Table.modify, List.map_map]
    congr 1
    refine List.map_congr_left fun e _ => ?_
    by_cases he : e.1 = k
    · have hout : e.1 ∉ rest := he ▸ hk
      simp [he, hk]
    · simp [he]

theorem onSlots_keys (g : Terminal → Terminal) (s : State) :
    onSlots (Table.keys s.terminals) g s = s.onTerminals (Table.mapAll g) := by
  simp only [onSlots, State.onTerminals, Table.mapAll]
  congr 1
  exact List.map_congr_left fun e he => if_pos (List.mem_map_of_mem (f := Prod.fst) he)

theorem keys_nodup {α : Type} {t : Table α} (h : Table.wf t = true) : (Table.keys t).Nodup :=
  ((Table.wf_iff t).mp h).imp fun hlt => Nat.ne_of_lt hlt

/-- An action taken for these slots in turn, each of which changes its slot's record by `g` and derives afresh. -/
theorem foldl_reacts {f : Nat → State → State} {g : Terminal → Terminal} (c : Calendar) (p : Table PlanSlot)
    (hg : ∀ x y, Served x y → Served (g x) (g y))
    (hf : ∀ k u, u.calendar = c → u.plans = p → Reacts (onTerminal k g u) (f k u)) (slots : List Nat) {a b : State}
    (hc : b.calendar = c) (hp : b.plans = p) (h : Reacts a b) :
    Reacts (slots.foldl (fun u k => onTerminal k g u) a) (slots.foldl (fun u k => f k u) b) := by
  induction slots generalizing a b with
  | nil => exact h
  | cons k rest ih =>
    have hstep := hf k b hc hp
    refine ih (hstep.calendar.trans hc) ?_ ((reacts_onBoth k g hg h).trans hstep)
    exact (show (f k b).plans = b.plans from hstep.keeps .plans (by decide)).trans hp

/-- The same for a set of slots of one state. -/
theorem onSlots_reacts {f : Nat → State → State} {g : Terminal → Terminal} {slots : List Nat} {s : State} (hslots : slots.Nodup)
    (hg : ∀ x y, Served x y → Served (g x) (g y))
    (hf : ∀ k u, u.calendar = s.calendar → u.plans = s.plans → Reacts (onTerminal k g u) (f k u)) :
    Reacts (onSlots slots g s) (slots.foldl (fun u k => f k u) s) := by
  rw [← foldl_onTerminal g hslots]
  exact foldl_reacts s.calendar s.plans hg hf slots rfl rfl (.refl s)

/-- The same for every configured slot. -/
theorem forEachSlot_reacts {f : Nat → State → State} {g : Terminal → Terminal} {s : State} (hwf : Table.wf s.terminals = true)
    (hg : ∀ x y, Served x y → Served (g x) (g y))
    (hf : ∀ k u, u.calendar = s.calendar → u.plans = s.plans → Reacts (onTerminal k g u) (f k u)) :
    Reacts (s.onTerminals (Table.mapAll g)) (forEachSlot f s) := by
  rw [← onSlots_keys]
  exact onSlots_reacts (keys_nodup hwf) hg hf

/-- An action that changes each slot's record by `g` and nothing else. -/
theorem forEachSlot_eq {f : Nat → State → State} {g : Terminal → Terminal} {s : State} (hwf : Table.wf s.terminals = true)
    (hf : ∀ k u, u.calendar = s.calendar → Table.wf u.terminals = true → f k u = onTerminal k g u) :
    forEachSlot f s = s.onTerminals (Table.mapAll g) := by
  rw [← onSlots_keys, ← foldl_onTerminal g (keys_nodup hwf), forEachSlot]
  have hfold : ∀ (slots : List Nat) (u : State), u.calendar = s.calendar → Table.wf u.terminals = true →
      slots.foldl (fun u k => f k u) u = slots.foldl (fun u k => onTerminal k g u) u := by
    intro slots
    induction slots with
    | nil => exact fun _ _ _ => rfl
    | cons k rest ih =>
      intro u hu hw
      rw [List.foldl_cons, List.foldl_cons, hf k u hu hw]
      exact ih _ hu (wf_onTerminal k g hw)
  exact hfold _ s rfl hwf

/-- Every slot's segment is found afresh (R14). -/
theorem refindAll_reacts {s : State} (hwf : Table.wf s.terminals = true) :
    Reacts (s.onTerminals (Table.mapAll fun y => y.bounded s.calendar.zoneTime (segmentNow s y.plans))) (refindAll s) := by
  refine forEachSlot_reacts hwf (fun x y h => ?_) fun k u hc hp => ?_
  · rw [h.plans]
    exact h.bounded _ _
  · have hsegment (f : PlanFields) : segmentNow u f = segmentNow s f := by simp only [segmentNow, hc, hp]
    have h := refind_reacts k u
    simp only [hsegment, hc] at h
    exact h

/-- TIME for one slot. -/
def timeForSlot (slot : Nat) (s : State) : State :=
  match terminal s slot with
  | none => s
  | some t =>
    if t.link.state.enrolled then queueTime slot s
    else if t.link.state = .granted then onLink slot (fun l => { l with timeOwed := true }) s
    else s

theorem timeForSlot_eq {slot : Nat} {s : State} (hwf : Table.wf s.terminals = true) :
    timeForSlot slot s = onTerminal slot (Terminal.timed s.calendar) s := by
  unfold timeForSlot
  cases hx : terminal s slot with
  | none => exact (onTerminal_absent hx).symm
  | some x =>
    have henrolled : x.link.state.enrolled = true ↔ x.link.state = .active ∨ x.link.state = .sleeping := by
      cases x.link.state <;> simp [LinkState.enrolled]
    dsimp only
    by_cases hin : x.link.state.enrolled = true
    · rw [if_pos hin]
      refine onTerminal_eq hwf fun y hy => ?_
      rw [hx] at hy
      cases hy
      rw [Terminal.timed, if_pos (henrolled.mp hin), Terminal.told, ← joinQueue_eq]
    · rw [if_neg hin]
      by_cases hgranted : x.link.state = .granted
      · rw [if_pos hgranted]
        refine onTerminal_eq hwf fun y hy => ?_
        rw [hx] at hy
        cases hy
        rw [Terminal.timed, if_neg (mt henrolled.mpr hin), if_pos hgranted]
      · rw [if_neg hgranted]
        have hid : onTerminal slot id s = s := by
          rw [onTerminal, State.onTerminals, Table.modify]
          simp
        conv => lhs; rw [← hid]
        refine onTerminal_eq hwf fun y hy => ?_
        rw [hx] at hy
        cases hy
        rw [Terminal.timed, if_neg (mt henrolled.mpr hin), if_neg hgranted]
        rfl

/-- TIME for every slot (R10). -/
theorem timeForAll_eq {s : State} (hwf : Table.wf s.terminals = true) :
    timeForAll s = s.onTerminals (Table.mapAll (Terminal.timed s.calendar)) := by
  refine forEachSlot_eq (f := timeForSlot) hwf fun k u hc hw => ?_
  rw [timeForSlot_eq hw, hc]

/-! ### The ports -/

/-- The state with the ports of another. -/
def portsOf (s u : State) : State := { u with office := s.office, service := s.service }

theorem Reacts.portsOf {u v : State} (s : State) (h : Reacts u v) : Reacts (portsOf s u) (portsOf s v) := by
  refine h.rest (fun b hb => ?_) (fun b hb => ?_) fun b hb => ?_
  · cases b <;> first | rfl | exact absurd (by decide) hb
  · cases b <;> first | rfl | exact absurd (by decide) hb
  · have := h.keeps b (by revert hb; cases b <;> decide)
    cases b <;> first | rfl | exact this

theorem portsOf_reportFault (s u : State) (slot : Nat) (k : FaultKind) (present : Bool) :
    portsOf s (reportFault slot k present u) = reportFault slot k present (portsOf s u) := by
  have hsame : terminal (portsOf s u) slot = terminal u slot := rfl
  unfold reportFault
  rw [hsame]
  cases terminal u slot with
  | none => rfl
  | some x => exact apply_ite _ _ _ _

theorem portsOf_raiseFault (s u : State) (slot : Nat) (k : FaultKind) :
    portsOf s (raiseFault slot k u) = raiseFault slot k (portsOf s u) := by
  have hsame : terminal (portsOf s u) slot = terminal u slot := rfl
  unfold raiseFault
  rw [hsame]
  cases terminal u slot <;> rfl

theorem portsOf_quoteEnded (s u : State) (slot : Nat) : portsOf s (quoteEnded slot u) = quoteEnded slot (portsOf s u) := by
  have hsame : terminal (portsOf s u) slot = terminal u slot := rfl
  unfold quoteEnded
  rw [hsame]
  cases terminal u slot with
  | none => rfl
  | some x =>
    dsimp only
    cases x.quote <;> rfl

/-- The ports stand as they were. -/
def SamePorts (s t : State) : Prop := t.office = s.office ∧ t.service = s.service

theorem SamePorts.refl (s : State) : SamePorts s s := ⟨rfl, rfl⟩

theorem SamePorts.trans {a b c : State} (h : SamePorts a b) (h' : SamePorts b c) : SamePorts a c :=
  ⟨h'.1.trans h.1, h'.2.trans h.2⟩

theorem Reacts.samePorts {u v : State} (h : Reacts u v) : SamePorts u v :=
  ⟨h.keeps .office (by decide), h.keeps .service (by decide)⟩

theorem reportFault_samePorts (slot : Nat) (k : FaultKind) (present : Bool) (s : State) :
    SamePorts s (reportFault slot k present s) := by
  unfold reportFault
  split
  · exact .refl s
  · dsimp only
    split <;> exact ⟨rfl, rfl⟩

theorem raiseFault_samePorts (slot : Nat) (k : FaultKind) (s : State) : SamePorts s (raiseFault slot k s) := by
  unfold raiseFault
  split <;> exact ⟨rfl, rfl⟩

theorem quoteEnded_samePorts (slot : Nat) (s : State) : SamePorts s (quoteEnded slot s) := by
  unfold quoteEnded
  split
  · exact .refl s
  · dsimp only
    split <;> exact ⟨rfl, rfl⟩

/-- An office request whose act answers and leaves the port hunting. -/
theorem officeRequest_acted {kind : Nat} {act : State → State × Response} {s v : State} {r : Response} (tag : Nat)
    (hfree : OfficeFree s) (hact : act (hunting s) = (v, r)) (hports : SamePorts (hunting s) v) :
    officeRequest kind tag act s = .next (answered kind tag r (portsOf s v)) := by
  rw [officeRequest_taken hfree.1 hfree.2, hact]
  have hv : v = portsOf (hunting s) v := by rw [portsOf, ← hports.1, ← hports.2]
  conv => lhs; rw [hv]
  rfl

/-- A service request whose act answers and leaves the link hunting. -/
theorem serviceRequest_acted {identity kind : Nat} {act : RosterEntry → State → State × Response} {s v : State} {e : RosterEntry}
    {r : Response} (tag : Nat) (hfree : LinkFree identity e s) (hrole : kind ∈ roleKinds e.role)
    (hact : act e (serviceHunting s) = (v, r)) (hports : SamePorts (serviceHunting s) v) :
    serviceRequest identity kind tag (roleMayAsk kind) act s = .next (serviceAnswered identity kind tag r (portsOf s v)) := by
  rw [serviceRequest_asked tag hfree hrole, hact]
  have hv : v = portsOf (serviceHunting s) v := by rw [portsOf, ← hports.1, ← hports.2]
  conv => lhs; rw [hv]
  rfl

/-- The port that takes a request, hunting. -/
def sourceHunts (src : Source) (s : State) : State :=
  match src with
  | .office _ => hunting s
  | .handheld _ _ => serviceHunting s

/-- The act of a request of both ports. -/
def actOf (src : Source) (act engineer : State → State × Response) : State → State × Response :=
  match src with
  | .office _ => act
  | .handheld _ _ => engineer

theorem portsOf_sourceHunts (src : Source) (s : State) : portsOf s (sourceHunts src s) = s := by
  cases src <;> rfl

/-- A request that both ports take (R175). -/
theorem eitherPort_acted {src : Source} {kind : Nat} {act engineer : State → State × Response} {s v : State} {r : Response}
    (hfree : SourceFree src s) (hkind : kind ∈ roleKinds .engineer) (hact : actOf src act engineer (sourceHunts src s) = (v, r))
    (hports : SamePorts (sourceHunts src s) v) :
    eitherPort src kind act engineer s = .next (answeredTo src kind r (portsOf s v)) := by
  cases src with
  | office tag => exact officeRequest_acted tag hfree hact hports
  | handheld identity tag =>
    obtain ⟨e, hrole, hlink⟩ := hfree
    exact serviceRequest_acted (act := fun _ => engineer) tag hlink (by rw [hrole]; exact hkind) hact hports

/-- A request that both ports take and whose act derives afresh. -/
theorem eitherPort_reacts {src : Source} {kind : Nat} {act engineer : State → State × Response} {s u v : State} {r : Response}
    (hfree : SourceFree src s) (hkind : kind ∈ roleKinds .engineer) (hact : actOf src act engineer (sourceHunts src s) = (v, r))
    (h : Reacts u v) (hports : SamePorts (sourceHunts src s) u) :
    eitherPort src kind act engineer s = .next (answeredTo src kind r (portsOf s v)) ∧ Reacts (portsOf s u) (portsOf s v) :=
  ⟨eitherPort_acted hfree hkind hact (hports.trans h.samePorts), h.portsOf s⟩

/-- An office request whose act derives afresh. -/
theorem officeRequest_reacts {kind : Nat} {act : State → State × Response} {s u v : State} {r : Response} (tag : Nat)
    (hfree : OfficeFree s) (hact : act (hunting s) = (v, r)) (h : Reacts u v)
    (hports : SamePorts (hunting s) u) :
    officeRequest kind tag act s = .next (answered kind tag r (portsOf s v)) ∧ Reacts (portsOf s u) (portsOf s v) :=
  ⟨officeRequest_acted tag hfree hact (hports.trans h.samePorts), h.portsOf s⟩

/-- A service request whose act derives afresh. -/
theorem serviceRequest_reacts {identity kind : Nat} {act : RosterEntry → State → State × Response} {s u v : State}
    {e : RosterEntry} {r : Response} (tag : Nat) (hfree : LinkFree identity e s) (hrole : kind ∈ roleKinds e.role)
    (hact : act e (serviceHunting s) = (v, r)) (h : Reacts u v)
    (hports : SamePorts (serviceHunting s) u) :
    serviceRequest identity kind tag (roleMayAsk kind) act s = .next (serviceAnswered identity kind tag r (portsOf s v))
      ∧ Reacts (portsOf s u) (portsOf s v) :=
  ⟨serviceRequest_acted tag hfree hrole hact (hports.trans h.samePorts), h.portsOf s⟩

end Sys2Proof.Machine
end

section
/-!
PROOFS. FAULT_ACK (R116, R117, R119), LINE_RESTART (R153), the deadlines on uptime (R63, R128, R139, R145) and CANCEL (R64).
-/

namespace Sys2Proof.Machine

open Sys2Proof

/-! ### FAULT_ACK -/

/-- A request of both ports whose refusal a list of checks decides. -/
theorem eitherPort_decided {src : Source} {kind : Nat} {act engineer : State → State × Response} {s : State}
    {checks : List (Prop × Response)} {x : Option Response} {taken : State × Response} (hfree : SourceFree src s)
    (hkind : kind ∈ roleKinds .engineer) (hd : Decides checks x)
    (hact : actOf src act engineer (sourceHunts src s) = x.elim taken fun r => (sourceHunts src s, r)) :
    (∀ r : Response, FirstFails checks r → eitherPort src kind act engineer s = .next (answeredTo src kind r s))
      ∧ (NoneFails checks → actOf src act engineer (sourceHunts src s) = taken) := by
  constructor
  · intro r hr
    rw [hd.eq_some hr] at hact
    have h := eitherPort_acted hfree hkind hact (.refl _)
    rwa [portsOf_sourceHunts] at h
  · intro hnone
    rw [hact, hd.eq_none hnone]
    rfl

theorem slotNumber_not (slot : Nat) : (!slotNumber slot) = true ↔ slot < 1 ∨ 24 < slot := by
  rw [Bool.not_eq_true', slotNumber_eq_false]

/-- What refuses a request of a slot that is not configured (R119, R153). -/
def slotRefusal (slot : Nat) (s : State) : Option Response :=
  if (!slotNumber slot) = true then some (refused .badSlot)
  else if (terminal s slot).isNone = true then some (refused .slotEmpty)
  else none

theorem slotRefusal_decides (slot : Nat) (s : State) : Decides (slotChecks slot s) (slotRefusal slot s) :=
  .cons (slotNumber_not slot).symm fun _ => .cons Option.isNone_iff_eq_none.symm fun _ => .nil

theorem slotRefusal_eq_none {slot : Nat} {s : State} {x : Terminal} (h1 : 1 ≤ slot) (h24 : slot ≤ 24)
    (hx : terminal s slot = some x) : slotRefusal slot s = none := by
  rw [slotRefusal, if_neg (by rw [slotNumber_of_range h1 h24]; exact Bool.false_ne_true), hx, if_neg (by exact Bool.false_ne_true)]

/-- What refuses a FAULT_ACK (R119). -/
def faultAckRefusal (slot fault : Nat) (s : State) : Option Response :=
  (slotRefusal slot s).or (if (faultKindOf fault).isNone = true then some (refused .badFault) else none)

theorem faultAckRefusal_decides (slot fault : Nat) (s : State) :
    Decides (slotChecks slot s ++ [((faultKindOf fault).isNone = true, refused .badFault)]) (faultAckRefusal slot fault s) :=
  (slotRefusal_decides slot s).append fun _ => .cons Iff.rfl fun _ => .nil

theorem takeFaultAck_cases (slot fault : Nat) (s : State) : ∃ taken : State × Response,
    takeFaultAck slot fault s = (faultAckRefusal slot fault s).elim taken fun r => (s, r) := by
  unfold takeFaultAck faultAckRefusal slotRefusal
  by_cases hslot : (!slotNumber slot) = true
  · rw [if_pos hslot, if_pos hslot]
    exact ⟨(s, ok), rfl⟩
  · rw [if_neg hslot, if_neg hslot]
    cases terminal s slot with
    | none => exact ⟨(s, ok), rfl⟩
    | some x =>
      cases faultKindOf fault with
      | none => exact ⟨(s, ok), rfl⟩
      | some k => exact ⟨_, rfl⟩

theorem takeFaultAck_held {slot fault : Nat} {s : State} {x : Terminal} {k : FaultKind} (h1 : 1 ≤ slot) (h24 : slot ≤ 24)
    (hx : terminal s slot = some x) (hk : faultKindOf fault = some k) : takeFaultAck slot fault s = acknowledge slot k x s := by
  rw [takeFaultAck, if_neg (by rw [slotNumber_of_range h1 h24]; exact Bool.false_ne_true), hx]
  simp only [hk]

/-- An acknowledgement that moves nothing is answered ALREADY (R116, R117). -/
theorem acknowledge_already {slot : Nat} {k : FaultKind} {x : Terminal} {s : State}
    (h : (x.watch.faults.get k).state = .clear ∨ (x.watch.faults.get k).state = .held) :
    acknowledge slot k x s = (s, { code := .already, body := .faultState (x.watch.faults.get k).state }) := by
  rw [acknowledge]
  rcases h with h | h <;> simp [h, FaultState.acknowledge]

/-- An acknowledgement of ACTIVE or LATCHED moves the fault, and the service state follows (R116, R117). -/
theorem acknowledge_moves {slot : Nat} {k : FaultKind} {x : Terminal} {s : State}
    (h : (x.watch.faults.get k).state = .active ∨ (x.watch.faults.get k).state = .latched) :
    acknowledge slot k x s
      = (deriveService slot
          (setFault slot k (if (x.watch.faults.get k).state = .active then .held else .clear) s),
        accepted (.faultState (if (x.watch.faults.get k).state = .active then .held else .clear))) := by
  rw [acknowledge]
  rcases h with h | h <;> simp [h, FaultState.acknowledge, okWith, accepted]

/-- Settles O41. -/
theorem faultAcksMoveFaults : Obligations.FaultAcksMoveFaults := by
  intro src slot fault s hfree
  have harm : exec (.faultAck src slot fault) s = eitherPort src 0x14 (takeFaultAck slot fault) (takeFaultAck slot fault) s := rfl
  have hact : actOf src (takeFaultAck slot fault) (takeFaultAck slot fault) = takeFaultAck slot fault := by cases src <;> rfl
  have hkind : 0x14 ∈ roleKinds .engineer := by decide
  have hports : (sourceHunts src s).terminals = s.terminals := by cases src <;> rfl
  rw [harm]
  constructor
  · obtain ⟨taken, htaken⟩ := takeFaultAck_cases slot fault (sourceHunts src s)
    have hd : Decides (slotChecks slot s ++ [((faultKindOf fault).isNone = true, refused .badFault)])
        (faultAckRefusal slot fault (sourceHunts src s)) := by
      cases src <;> exact faultAckRefusal_decides slot fault s
    exact (eitherPort_decided hfree hkind hd ((congrFun hact _).trans htaken)).1
  · intro x k h1 h24 hx hk
    have hfound : terminal (sourceHunts src s) slot = some x := by rw [terminal, hports]; exact hx
    have htake := (congrFun hact (sourceHunts src s)).trans (takeFaultAck_held h1 h24 hfound hk)
    constructor
    · intro hbefore
      have h := eitherPort_acted hfree hkind (htake.trans (acknowledge_already hbefore)) (.refl _)
      rwa [portsOf_sourceHunts] at h
    · intro hbefore
      obtain ⟨hexec, hreacts⟩ := eitherPort_reacts hfree hkind (htake.trans (acknowledge_moves hbefore))
        (deriveService_reacts slot _) ⟨rfl, rfl⟩
      refine ⟨_, hexec, ?_⟩
      cases src <;> exact hreacts

/-! ### LINE_RESTART -/

theorem takeLineRestart_cases (slot : Nat) (s : State) : ∃ taken : State × Response,
    takeLineRestart slot s = (slotRefusal slot s).elim taken fun r => (s, r) := by
  unfold takeLineRestart slotRefusal
  by_cases hslot : (!slotNumber slot) = true
  · rw [if_pos hslot, if_pos hslot]
    exact ⟨(s, ok), rfl⟩
  · rw [if_neg hslot, if_neg hslot]
    cases terminal s slot with
    | none => exact ⟨(s, ok), rfl⟩
    | some x => exact ⟨_, rfl⟩

theorem takeLineRestart_held {slot : Nat} {s : State} {x : Terminal} (h1 : 1 ≤ slot) (h24 : slot ≤ 24)
    (hx : terminal s slot = some x) : takeLineRestart slot s = restartLine slot x s := by
  rw [takeLineRestart, if_neg (by rw [slotNumber_of_range h1 h24]; exact Bool.false_ne_true), hx]

/-- The link fields that a slot has on leaving for ABSENT, from the record found (R138, R139). -/
theorem leave_absent (l : Link) (uptime : Nat) :
    l.leave uptime .absent
      = { Link.gone uptime l with lostDeadline := if l.state.called then some (uptime + 60) else l.lostDeadline } := rfl

/-- The end of a slot's quote after a change of its record that is known of the record found. -/
theorem quoteEnded_agree {slot : Nat} {f g : Terminal → Terminal} {s : State}
    (h : ∀ x, terminal s slot = some x → f x = g x) :
    Reacts (quoteEnded slot (onTerminal slot f s)) (quoteEnded slot (onTerminal slot g s)) :=
  (Reacts.agree h).quoteEnded slot

/-- The end of a bar (R145): the slot leaves for ABSENT, and JABBER is reported ended. -/
theorem endBar_reacts (slot : Nat) (s : State) :
    Reacts
      (reportFault slot .jabber false
        (quoteEnded slot (onTerminal slot (fun y => { y with link := y.link.leave s.calendar.uptime .absent }) s)))
      (endBar slot s) :=
  ((leaveTo_reacts slot .absent s).reportFault slot .jabber false).trans (conditionEnds_reacts slot .jabber _)

/-- Settles O53. -/
theorem lineRestarts : Obligations.LineRestarts := by
  intro s identity tag slot e hfree hrole
  have harm : exec (.lineRestart identity tag slot) s
      = serviceRequest identity 0x47 tag (roleMayAsk 0x47) (fun _ => takeLineRestart slot) s := rfl
  have hkind : 0x47 ∈ roleKinds e.role := by rw [hrole]; decide
  rw [harm]
  constructor
  · obtain ⟨taken, htaken⟩ := takeLineRestart_cases slot (serviceHunting s)
    exact (serviceRequest_decided tag hfree hkind (slotRefusal_decides slot s) htaken).1
  · intro x h1 h24 hx
    have htake := takeLineRestart_held (s := serviceHunting s) h1 h24 hx
    refine ⟨fun hstate => ?_, fun hstate => ?_, fun hstate => ?_⟩
    · have hact : takeLineRestart slot (serviceHunting s)
          = (onQueue slot resetQueue (serviceHunting s), accepted (.word .queued)) := by
        rw [htake, restartLine]
        rcases hstate with h | h <;> rw [h] <;> rfl
      exact serviceRequest_acted (act := fun _ => takeLineRestart slot) tag hfree hkind hact ⟨rfl, rfl⟩
    · have hact : takeLineRestart slot (serviceHunting s)
          = (leaveTo slot .absent (serviceHunting s), accepted (.word .done)) := by
        rw [htake, restartLine]
        rcases hstate with h | h | h <;> rw [h] <;> rfl
      have hagree : ∀ y, terminal (serviceHunting s) slot = some y →
          ({ y with
            link :=
              { Link.gone s.calendar.uptime y.link with
                lostDeadline :=
                  if y.link.state = .granted then some (s.calendar.uptime + 60) else y.link.lostDeadline } } : Terminal)
            = { y with link := y.link.leave s.calendar.uptime .absent } := by
        intro y hy
        obtain rfl : x = y := Option.some.inj (hx.symm.trans hy)
        rw [leave_absent]
        rcases hstate with h | h | h <;> simp [h, LinkState.called]
      obtain ⟨hexec, hreacts⟩ := serviceRequest_reacts (act := fun _ => takeLineRestart slot) tag hfree hkind hact
        ((quoteEnded_agree hagree).trans (leaveTo_reacts slot .absent (serviceHunting s))) (quoteEnded_samePorts slot _)
      rw [portsOf_quoteEnded] at hreacts
      exact ⟨_, hexec, hreacts⟩
    · have hact : takeLineRestart slot (serviceHunting s) = (endBar slot (serviceHunting s), accepted (.word .done)) := by
        rw [htake, restartLine, hstate]
        rfl
      have hagree : ∀ y, terminal (serviceHunting s) slot = some y →
          ({ y with link := { Link.gone s.calendar.uptime y.link with lostDeadline := y.link.lostDeadline } } : Terminal)
            = { y with link := y.link.leave s.calendar.uptime .absent } := by
        intro y hy
        obtain rfl : x = y := Option.some.inj (hx.symm.trans hy)
        rw [leave_absent]
        simp [hstate, LinkState.called]
      obtain ⟨hexec, hreacts⟩ := serviceRequest_reacts (act := fun _ => takeLineRestart slot) tag hfree hkind hact
        (((quoteEnded_agree hagree).reportFault slot .jabber false).trans (endBar_reacts slot (serviceHunting s)))
        ((quoteEnded_samePorts slot (onTerminal slot _ (serviceHunting s))).trans (reportFault_samePorts slot _ _ _))
      rw [portsOf_reportFault, portsOf_quoteEnded] at hreacts
      exact ⟨_, hexec, hreacts⟩

/-! ### Deadlines on uptime -/

theorem lostDue_iff {slot : Nat} {s : State} {x : Terminal} (hx : terminal s slot = some x) :
    lostDue slot s = true ↔ ∃ d ∈ x.link.lostDeadline, d ≤ s.calendar.uptime := by
  rw [lostDue, hx, Option.bind_some]
  cases x.link.lostDeadline <;> simp

theorem barDue_iff {slot : Nat} {s : State} {x : Terminal} (hx : terminal s slot = some x) :
    barDue slot s = true ↔ x.link.state = .barred ∧ ∃ d ∈ x.link.barExpiry, d ≤ s.calendar.uptime := by
  rw [barDue, hx, Option.map_some, Option.getD_some, Bool.and_eq_true, decide_eq_true_eq]
  cases x.link.barExpiry <;> simp

theorem silenceDue_iff {slot : Nat} {s : State} {x : Terminal} (hx : terminal s slot = some x) :
    silenceDue slot s = true ↔ silenceLimit x.watch.estimate < x.watch.silence := by
  rw [silenceDue, hx, Option.map_some, Option.getD_some, decide_eq_true_eq]

/-- A quote past its validity changes its slot's record once, and the slot is then considered for sleep (R63). -/
theorem expireQuote_merged (slot : Nat) (q : OpenQuote) (s : State) :
    expireQuote slot q s
      = considerSleep slot
          (onTerminal slot
            (fun y =>
              Terminal.without (NoticeBody.isResultOf q.quoteId) { y with quote := .none, closed := some (.expired q.quoteId) })
            (s.onPermits (released slot q))) := by
  rw [expireQuote, releaseQuote_eq]
  exact congrArg (considerSleep slot)
    ((congrArg _ (onTerminal_onTerminal slot _ _ _)).trans (onTerminal_onTerminal slot _ _ _))

/-- A quote whose validity is over (R63): the hold returns, and the record says so. -/
theorem expireQuote_reacts (slot : Nat) (q : OpenQuote) (s : State) :
    Reacts
      (onTerminal slot
        (fun y =>
          Terminal.considered s.calendar.zoneTime
            (Terminal.without (NoticeBody.isResultOf q.quoteId) { y with quote := .none, closed := some (.expired q.quoteId) }))
        { s with permits := released slot q s.permits })
      (expireQuote slot q s) := by
  rw [expireQuote_merged]
  exact considerSleep_after slot _ _

/-- Settles O54. -/
theorem uptimeDeadlines : Obligations.UptimeDeadlines := by
  intro s slot hrunning
  have hlost : exec (.linkLostDeadline slot) s = .next
      (if lostDue slot s then conditionRises slot .linkLost (onLink slot (fun l => { l with lostDeadline := none }) s) else s) :=
    whileRunning_running hrunning
  have hbar : exec (.barExpiry slot) s = .next (if barDue slot s then endBar slot s else s) := whileRunning_running hrunning
  have hquote : exec (.quoteExpiry slot) s = .next ((lapsedQuote slot s).elim s fun q => expireQuote slot q s) := by
    rw [exec, execQuoteExpiry, whileRunning_running hrunning]
    cases lapsedQuote slot s <;> rfl
  have hsilent : exec (.silent slot) s = .next (if silenceDue slot s then conditionRises slot .silent s else s) :=
    whileRunning_running hrunning
  constructor
  · intro hx
    have hlapsed : lapsedQuote slot s = none := by rw [lapsedQuote, hx]
    rw [hlost, hbar, hquote, hsilent, lostDue, barDue, silenceDue, hlapsed, hx]
    exact ⟨rfl, rfl, rfl, rfl⟩
  intro x hx
  refine ⟨fun hd => ?_, fun d hd hdue => ?_, fun hd => ?_, fun d hd hstate hdue => ?_, fun hq => ?_, fun q hq hdue => ?_,
    fun hlimit => ?_, fun hlimit => ?_⟩
  · rw [hlost, if_neg]
    rw [lostDue_iff hx]
    rintro ⟨d, hmem, hdue⟩
    exact Nat.not_le.mpr (hd d hmem) hdue
  · rw [hlost, if_pos ((lostDue_iff hx).mpr ⟨d, hd, hdue⟩)]
    exact ⟨_, rfl, conditionRises_reacts slot .linkLost _⟩
  · rw [hbar, if_neg]
    rw [barDue_iff hx]
    rintro ⟨hstate, d, hmem, hdue⟩
    rcases hd with hne | hlater
    · exact hne hstate
    · exact Nat.not_le.mpr (hlater d hmem) hdue
  · rw [hbar, if_pos ((barDue_iff hx).mpr ⟨hstate, d, hd, hdue⟩)]
    refine ⟨_, rfl, ((quoteEnded_agree fun y hy => ?_).reportFault slot .jabber false).trans (endBar_reacts slot s)⟩
    obtain rfl : x = y := Option.some.inj (hx.symm.trans hy)
    rw [leave_absent]
    simp [hstate, LinkState.called]
  · have hlapsed : lapsedQuote slot s = none := by
      simp only [lapsedQuote, hx]
      cases hstage : x.quote with
      | opened q => exact if_neg (Nat.not_le.mpr (hq q hstage))
      | _ => rfl
    rw [hquote, hlapsed]
    rfl
  · have hlapsed : lapsedQuote slot s = some q := by
      simp only [lapsedQuote, hx, hq]
      exact if_pos hdue
    rw [hquote, hlapsed]
    exact ⟨_, rfl, expireQuote_reacts slot q s⟩
  · rw [hsilent, if_neg]
    rw [silenceDue_iff hx]
    cases hestimate : x.watch.estimate with
    | none =>
      rw [hestimate] at hlimit
      exact Nat.not_lt.mpr hlimit
    | some e =>
      rw [hestimate] at hlimit
      exact Nat.not_lt.mpr hlimit
  · rw [hsilent, if_pos]
    · exact ⟨_, rfl, conditionRises_reacts slot .silent s⟩
    · rw [silenceDue_iff hx]
      cases hestimate : x.watch.estimate with
      | none =>
        rw [hestimate] at hlimit
        exact hlimit
      | some e =>
        rw [hestimate] at hlimit
        exact hlimit

/-! ### A request that an answer hands on (R136) -/

theorem Frames.wf {s t : State} (h : Frames s t) (hwf : Table.wf s.terminals = true) : Table.wf t.terminals = true := by
  rw [Table.wf_iff] at hwf ⊢
  rwa [h.slots]

/-- An answer of a slot in a called state is taken whole (R136). -/
theorem takeAnswer_valid {head : AnswerHead} {slot : Nat} {kind : CallKind} {calledAs : LinkState} {rode : Option NoticeBody}
    {s : State} {x : Terminal} {w : StatusWord} (hmode : s.line.mode = .window slot kind calledAs rode) (ha : Answers head slot w)
    (hx : terminal s slot = some x) (hcalled : x.link.state.called = true) (request : AnswerRequest) :
    takeAnswer head request s = lineGoesOn slot kind (validAnswer slot x rode head.asleep w request s) := by
  obtain ⟨hslot, hword⟩ := ha
  simp only [takeAnswer, hmode, windowAnswer, hword, hslot, ne_eq, not_true_eq_false, if_false, hx, hcalled, if_true]
  rfl

/-- The request is one that an ACTIVE or SLEEPING slot's answer hands on: some request, and no ACCEPT. -/
def HandedOn (request : AnswerRequest) : Prop := request ≠ .none ∧ ∀ level, request ≠ .accept level

/-- The request of an answer is handed on in the state that the statements describe. -/
theorem takeAnswer_handsOn {head : AnswerHead} {slot : Nat} {call : CallKind} {rode : Option NoticeBody} {s h : State}
    {x z : Terminal} {w : StatusWord} (hw : InWindow slot call rode x s) (ha : Answers head slot w)
    (hh : HandsOn slot rode x w s h z) {request : AnswerRequest} (hr : HandedOn request) :
    takeAnswer head request s = lineGoesOn slot call (handRequest slot request h) := by
  obtain ⟨-, ⟨calledAs, hmode⟩, hx⟩ := hw
  obtain ⟨hreset, -, -, hstate⟩ := hh
  have hcalled : x.link.state.called = true := by
    rcases hstate with ⟨h, -⟩ | ⟨h, -⟩ <;> rw [h] <;> rfl
  have hnot : x.link.state ≠ .granted := by
    rcases hstate with ⟨h, -⟩ | ⟨h, -⟩ <;> rw [h] <;> decide
  have henrols : enrols x request = false := by
    cases request with
    | accept level => exact absurd rfl (hr.2 level)
    | _ => rfl
  rw [takeAnswer_valid hmode ha hx hcalled]
  have hanswer : validAnswer slot x rode head.asleep w request s
      = handRequest slot request (takeStatus slot w (answerLink slot x rode head.asleep w request (gotAnswer slot s))) := by
    have hgone : ¬(x.link.state = .granted ∨ rode = some .reset) := not_or.mpr ⟨hnot, hreset⟩
    simp only [validAnswer, henrols, Bool.false_eq_true, if_false, hgone]
    rfl
  rw [hanswer]
  rcases hstate with ⟨hactive, rfl⟩ | ⟨hsleeping, rfl⟩
  · have hlink : answerLink slot x rode head.asleep w request (gotAnswer slot s) = gotAnswer slot s := by
      simp only [answerLink, hactive, hreset, if_false, hr.1, false_and, and_false]
    rw [hlink]
  · have hwakes : wakes rode head.asleep request = true := by simp [wakes, hr.1]
    have hlink : answerLink slot x rode head.asleep w request (gotAnswer slot s) = wakeSlot slot (gotAnswer slot s) := by
      simp only [answerLink, hsleeping, hreset, if_false, hwakes, if_true]
    rw [hlink]

/-- The table stays in order up to the state in which a request is handed on. -/
theorem HandsOn.wf {slot : Nat} {rode : Option NoticeBody} {x z : Terminal} {w : StatusWord} {s h : State}
    (hh : HandsOn slot rode x w s h z) : Table.wf h.terminals = true := by
  obtain ⟨-, hwf, -, hstate⟩ := hh
  have hgot : Table.wf (gotAnswer slot s).terminals = true := wf_onTerminal slot _ hwf
  rcases hstate with ⟨-, rfl⟩ | ⟨-, rfl⟩
  · exact (takeStatus_frames slot w _).wf hgot
  · exact ((wakeSlot_frames slot _).trans (takeStatus_frames slot w _)).wf hgot

/-- Settles O59. -/
theorem cancelsEndQuotes : Obligations.CancelsEndQuotes := by
  refine ⟨fun s slot rode x call head w h z hw ha hh => ?_, fun s slot hwf => endQuote_eq_quoteEnded hwf⟩
  have harm : exec (.cancel head) s = whileRunning (takeAnswer head .cancel) s := rfl
  rw [harm, whileRunning_running hw.1, takeAnswer_handsOn hw ha hh ⟨by simp, by simp⟩, ← endQuote_eq_quoteEnded hh.wf]
  rfl

end Sys2Proof.Machine
end

section
/-!
PROOFS. The journal's requests and the round's: owed cover records (R131), JOURNAL_ACK (R160), COUNT_RESULT (R110, R111), ROUND_START
(R101) and the close of a round (R105 to R107).
-/

namespace Sys2Proof.Machine

open Sys2Proof

/-! ### Records told one after another -/

/-- A COVER_CHANGE of a group record stands at the journal's end. -/
def owedRecord (s : State) (e : Nat × GroupRecord) : State := recorded (.coverChange e.1 e.2.cover e.2.since) s

/-- A record leaves no more free space and no fewer entries, so a condition that held before it holds after it. -/
theorem shown_recorded_shown (body : RecordBody) (s : State) : shown (recorded body (shown s)) = shown (recorded body s) := by
  have habsorb {p q : Prop} [Decidable p] [Decidable q] (h : p → q) (a : Bool) :
      (a || decide p || decide q) = (a || decide q) := by
    by_cases hq : q <;> simp [hq, mt h]
  have htwice (a b : Bool) : (a || b || b) = (a || b) := by rw [Bool.or_assoc, Bool.or_self]
  by_cases hcol : s.cash.collections = [] <;>
    simp [shown, recorded, recordNow, hcol, htwice] <;>
    exact ⟨habsorb (by omega) _, habsorb (by omega) _⟩

theorem shown_foldl_shown (owing : List (Nat × GroupRecord)) (s : State) :
    shown (owing.foldl owedRecord (shown s)) = shown (owing.foldl owedRecord s) := by
  induction owing generalizing s with
  | nil => exact shown_shown s
  | cons e rest ih =>
    rw [List.foldl_cons, List.foldl_cons, ← ih (owedRecord (shown s) e), ← ih (owedRecord s e), owedRecord, shown_recorded_shown]
    rfl

/-- Records told leave every field but the journal, and what the journal gains depends on the journal, the time and the straps. -/
theorem foldl_owedRecord (owing : List (Nat × GroupRecord)) (s : State) :
    owing.foldl owedRecord s = { s with journal := (owing.foldl owedRecord s).journal } := by
  induction owing generalizing s with
  | nil => rfl
  | cons e rest ih =>
    rw [List.foldl_cons, ih]
    rfl

theorem foldl_owedRecord_congr (owing : List (Nat × GroupRecord)) {s t : State} (hj : t.journal = s.journal)
    (hc : t.calendar = s.calendar) (hs : t.supply = s.supply) :
    (owing.foldl owedRecord t).journal = (owing.foldl owedRecord s).journal := by
  induction owing generalizing s t with
  | nil => exact hj
  | cons e rest ih => exact ih (recorded_congr hj hc hs) hc hs

/-! ### Owed cover records (R131) -/

/-- The records that a state owes of a part of its groups, as far as its free space goes. -/
def owed (groups : Table GroupRecord) (s : State) : List (Nat × GroupRecord) := (groups.filter fun e => e.2.mark).take (freeSpace s)

/-- The marks of these groups are cleared. -/
def unmarkGroups (owing : List (Nat × GroupRecord)) (s : State) : State :=
  s.onGroups fun t => t.map fun e => if e.1 ∈ owing.map (·.1) then (e.1, { e.2 with mark := false }) else e

/-- The state after the records it owes have been appended. -/
def afterOwed (owing : List (Nat × GroupRecord)) (s : State) : State :=
  if owing = [] then s else shown (owing.foldl owedRecord (unmarkGroups owing s))

theorem withOwed_eq (s : State) : withOwed s = afterOwed (owed s.groups s) s := rfl

/-- The owed record of one group, where it is owed and there is room. -/
def appendOwedOf (s : State) (g : Nat) : State :=
  match Table.find? g s.groups with
  | none => s
  | some r =>
    if r.mark && freeSpace s ≠ 0 then
      append (.coverChange g r.cover r.since) (s.onGroups (Table.modify g fun r => { r with mark := false }))
    else s

theorem appendOwedOf_taken {s : State} {e : Nat × GroupRecord} (hfind : Table.find? e.1 s.groups = some e.2)
    (hmark : e.2.mark = true) (hroom : freeSpace s ≠ 0) :
    appendOwedOf s e.1 = shown (owedRecord (s.onGroups (Table.modify e.1 fun r => { r with mark := false })) e) := by
  rw [appendOwedOf, hfind]
  dsimp only
  rw [if_pos (by simp [hmark, hroom]), append_eq]
  rfl

theorem appendOwedOf_left {s : State} {e : Nat × GroupRecord} (hfind : Table.find? e.1 s.groups = some e.2)
    (h : e.2.mark = false ∨ freeSpace s = 0) : appendOwedOf s e.1 = s := by
  rw [appendOwedOf, hfind]
  rcases h with h | h <;> simp [h]

theorem unmarkGroups_nil (s : State) : unmarkGroups [] s = s := by
  simp [unmarkGroups, State.onGroups]

/-- Clearing one group's mark and then those of others clears them all. -/
theorem unmarkGroups_cons (e : Nat × GroupRecord) (owing : List (Nat × GroupRecord)) (s : State) :
    unmarkGroups owing (s.onGroups (Table.modify e.1 fun r => { r with mark := false })) = unmarkGroups (e :: owing) s := by
  simp only [unmarkGroups, State.onGroups, Table.modify, List.map_map]
  congr 1
  refine List.map_congr_left fun a _ => ?_
  by_cases ha : a.1 = e.1
  · by_cases hin : e.1 ∈ owing.map (·.1) <;> simp [ha, hin]
  · by_cases hin : a.1 ∈ owing.map (·.1) <;> simp [ha, hin]

theorem freeSpace_owedRecord (e : Nat × GroupRecord) (s : State) : freeSpace (shown (owedRecord s e)) = freeSpace s - 1 := by
  simp only [freeSpace, used, shown, owedRecord, recorded, List.length_append, List.length_singleton]
  omega

/-- Owed records of a run of groups, taken group by group. -/
theorem foldl_appendOwedOf (groups : Table GroupRecord) (hnodup : (Table.keys groups).Nodup) (s : State)
    (hfind : ∀ e ∈ groups, Table.find? e.1 s.groups = some e.2) :
    (Table.keys groups).foldl appendOwedOf s = afterOwed (owed groups s) s := by
  induction groups generalizing s with
  | nil => rw [owed, List.filter_nil, List.take_nil, afterOwed, if_pos rfl]; rfl
  | cons e rest ih =>
    obtain ⟨hnew, hrest⟩ := List.nodup_cons.mp hnodup
    have he := hfind e List.mem_cons_self
    rw [Table.keys, List.map_cons, List.foldl_cons, ← Table.keys]
    by_cases htaken : e.2.mark = true ∧ freeSpace s ≠ 0
    · obtain ⟨hmark, hroom⟩ := htaken
      obtain ⟨n, hn⟩ := Nat.exists_eq_succ_of_ne_zero hroom
      have howed : owed (e :: rest) s
          = e :: owed rest (shown (owedRecord (s.onGroups (Table.modify e.1 fun r => { r with mark := false })) e)) := by
        rw [owed, owed, freeSpace_owedRecord, List.filter_cons_of_pos (p := fun a : Nat × GroupRecord => a.2.mark) hmark,
          show freeSpace (s.onGroups _) = freeSpace s from rfl, hn, Nat.succ_eq_add_one, Nat.add_sub_cancel, List.take_succ_cons]
      rw [appendOwedOf_taken he hmark hroom, ih hrest, howed]
      · rw [afterOwed, afterOwed, if_neg (List.cons_ne_nil _ _)]
        generalize owed rest (shown (owedRecord (s.onGroups (Table.modify e.1 fun r => { r with mark := false })) e)) = owing
        rw [List.foldl_cons, ← unmarkGroups_cons]
        by_cases hnone : owing = []
        · subst hnone
          rw [if_pos rfl]
          rw [List.foldl_nil, show unmarkGroups [] _ = _ from unmarkGroups_nil _]
        · rw [if_neg hnone]
          exact shown_foldl_shown owing
            (unmarkGroups owing (owedRecord (s.onGroups (Table.modify e.1 fun r => { r with mark := false })) e))
      · intro a ha
        have hne : e.1 ≠ a.1 := fun heq => hnew (heq ▸ List.mem_map_of_mem (f := Prod.fst) ha)
        exact (Table.find?_modify_ne hne (fun r : GroupRecord => { r with mark := false }) s.groups).trans (hfind a (List.mem_cons_of_mem _ ha))
    · have hleft : e.2.mark = false ∨ freeSpace s = 0 := by
        by_cases hmark : e.2.mark = true
        · exact .inr (not_not.mp fun hroom => htaken ⟨hmark, hroom⟩)
        · exact .inl (Bool.eq_false_iff.mpr hmark)
      have howed : owed (e :: rest) s = owed rest s := by
        rcases hleft with hmark | hfull
        · rw [owed, owed, List.filter_cons_of_neg (p := fun a : Nat × GroupRecord => a.2.mark) (by rw [hmark]; exact Bool.false_ne_true)]
        · rw [owed, owed, hfull, List.take_zero, List.take_zero]
      rw [appendOwedOf_left he hleft, ih hrest s fun a ha => hfind a (List.mem_cons_of_mem _ ha), howed]

theorem groupNumbers_ascend : groupNumbers.Pairwise (· < ·) := by decide

/-- The owed cover records, in the words of the statements (R131). -/
theorem appendOwed_eq {s : State} (hgroups : Table.keys s.groups = groupNumbers) : appendOwed s = withOwed s := by
  have hwf : Table.wf s.groups = true := by
    rw [Table.wf_iff, hgroups]
    exact groupNumbers_ascend
  rw [withOwed_eq, ← foldl_appendOwedOf s.groups (keys_nodup hwf) s fun e he => Table.find?_of_mem hwf he, hgroups]
  rfl

theorem withOwed_full {s : State} (h : freeSpace s = 0) : withOwed s = s := by
  rw [withOwed_eq, owed, h, List.take_zero, afterOwed, if_pos rfl]

/-- The journal's free space may have risen: the owed records, then what is derived (R131, R158). -/
theorem spaceRose_reacts {s : State} (free : Nat) (halted : Bool) (hgroups : Table.keys s.groups = groupNumbers) :
    Reacts (if free = 0 then withOwed s else s) (spaceRose free halted s) := by
  have hsame : (if free = 0 ∧ freeSpace s ≠ 0 then appendOwed s else s) = if free = 0 then withOwed s else s := by
    by_cases hfree : free = 0
    · by_cases hroom : freeSpace s = 0
      · rw [if_neg fun h => h.2 hroom, if_pos hfree, withOwed_full hroom]
      · rw [if_pos ⟨hfree, hroom⟩, if_pos hfree, appendOwed_eq hgroups]
    · rw [if_neg fun h => hfree h.1, if_neg hfree]
  rw [spaceRose, hsame]
  exact haltChanged_reacts _ _

/-! ### What the ledger leaves -/

/-- The fields that neither a record nor the close of a round reads or changes, changed. -/
def aroundLedger (o : OfficePort → OfficePort) (p : ServicePort → ServicePort) (q : Sales → Sales) (l : Line → Line) (s : State) : State :=
  { s with office := o s.office, service := p s.service, sales := q s.sales, line := l s.line }

theorem withOwed_around (o : OfficePort → OfficePort) (p : ServicePort → ServicePort) (q : Sales → Sales) (l : Line → Line)
    (s : State) : withOwed (aroundLedger o p q l s) = aroundLedger o p q l (withOwed s) := by
  rw [withOwed_eq, withOwed_eq, show owed (aroundLedger o p q l s).groups (aroundLedger o p q l s) = owed s.groups s from rfl]
  generalize owed s.groups s = owing
  unfold afterOwed
  split
  · rfl
  · rw [foldl_owedRecord, foldl_owedRecord owing (unmarkGroups owing s),
      foldl_owedRecord_congr owing (s := unmarkGroups owing s) (t := unmarkGroups owing (aroundLedger o p q l s)) rfl rfl rfl]
    rfl

theorem withOwed_samePorts (s : State) : SamePorts s (withOwed s) := by
  rw [withOwed_eq, afterOwed]
  split
  · exact .refl s
  · rw [foldl_owedRecord]
    exact .refl s

theorem roundClosed_samePorts (r : Round) (s : State) : SamePorts s (roundClosed r s) := by
  unfold roundClosed
  dsimp only
  split
  · exact withOwed_samePorts _
  · exact .refl s

theorem roundClosed_around (o : OfficePort → OfficePort) (p : ServicePort → ServicePort) (q : Sales → Sales) (l : Line → Line)
    (r : Round) (s : State) : roundClosed r (aroundLedger o p q l s) = aroundLedger o p q l (roundClosed r s) := by
  unfold roundClosed
  rw [show freeSpace (aroundLedger o p q l s) = freeSpace s from rfl]
  dsimp only
  by_cases hfull : freeSpace s = 0
  · rw [if_pos hfull, if_pos hfull, ← withOwed_around]
    rfl
  · rw [if_neg hfull, if_neg hfull]
    rfl

theorem portsOf_roundClosed (r : Round) (s u : State) : portsOf s (roundClosed r u) = roundClosed r (portsOf s u) :=
  (roundClosed_around (fun _ => s.office) (fun _ => s.service) id id r u).symm

theorem portsOf_withOwed (s u : State) : portsOf s (withOwed u) = withOwed (portsOf s u) :=
  (withOwed_around (fun _ => s.office) (fun _ => s.service) id id u).symm

/-! ### The close of a round -/

theorem closedEntries_eq (r : Round) : closedEntries r = atClose r := by
  rw [closedEntries, atClose, List.map_map]
  refine List.map_congr_left fun e _ => ?_
  rw [Function.comp_apply, RoundEntry.close]
  split <;> rfl

/-- Releasing reserved entries brings on no condition that did not hold. -/
theorem reserve_none {s : State} (h : shown s = s) : reserve 0 s = s.onJournal fun j => { j with reservation := 0 } := by
  obtain ⟨h1, h2, h3, h4⟩ := (shown_iff s).mp h
  rw [reserve, refresh_eq_shown, shown_iff]
  refine ⟨fun hlow => h1 (le_trans ?_ hlow), h2, h3, h4⟩
  simp only [freeSpace, used, State.onJournal]
  omega

/-- The close of a round, but for what the rise of the free space sets off. -/
theorem closeRoundCore_eq (r : Round) (s : State) :
    closeRoundCore r s
      = (let a := shown (recorded (.roundClosed r.number r.collector r.start s.calendar.zoneTime (atClose r))
            { s with journal := { s.journal with reservation := s.journal.reservation - 1 } })
        { a with
          calendar := { a.calendar with deadline := none }
          cash := { a.cash with round := none }
          journal := { a.journal with reservation := 0 }
          attention := { a.attention with flags := { a.attention.flags with round := true } } }) := by
  have happend : appendReserved (.roundClosed r.number r.collector r.start s.calendar.zoneTime (closedEntries r)) s
      = shown (recorded (.roundClosed r.number r.collector r.start s.calendar.zoneTime (atClose r))
          { s with journal := { s.journal with reservation := s.journal.reservation - 1 } }) := by
    rw [closedEntries_eq, appendReserved, refresh_eq_shown]
    rfl
  rw [closeRoundCore, happend, reserve_none (shown_shown _)]
  rfl

/-- The close of a round (R105, R107). -/
theorem closeRound_reacts {s : State} (r : Round) (hgroups : Table.keys s.groups = groupNumbers) :
    Reacts (roundClosed r s) (closeRound r s) := by
  have h := spaceRose_reacts (s := closeRoundCore r s) (freeSpace s) (salesHalted s) hgroups
  rw [closeRoundCore_eq] at h
  rw [closeRound, closeRoundCore_eq]
  exact h

/-- The registered deadline is delivered (R11, R106). -/
theorem deliverDeadline_delivers {s : State} (hgroups : Table.keys s.groups = groupNumbers) : DeadlineDelivered s (deliverDeadline s) := by
  unfold DeadlineDelivered deliverDeadline
  cases s.cash.round with
  | none => rfl
  | some r => exact closeRound_reacts r hgroups

theorem deadlineDue_iff (s : State) : deadlineDue s = true ↔ ∃ d ∈ s.calendar.deadline, d ≤ s.calendar.zoneTime := by
  rw [deadlineDue]
  cases s.calendar.deadline <;> simp

/-- Settles O46. -/
theorem roundsClose : Obligations.RoundsClose := by
  intro s htables
  obtain ⟨-, -, -, -, hgroups⟩ := htables
  refine ⟨fun hrunning => ⟨fun r d hr hd hdue => ?_, fun hlater => ?_⟩, fun identity tag e hfree hrole => ⟨fun hnone => ?_, fun r hr => ⟨?_, ?_⟩⟩⟩
  · have harm : exec .roundAutoClose s = .next (deliverIfDue s) := whileRunning_running hrunning
    rw [harm, deliverIfDue, if_pos ((deadlineDue_iff s).mpr ⟨d, hd, hdue⟩), deliverDeadline, hr]
    exact ⟨_, rfl, closeRound_reacts r hgroups⟩
  · have harm : exec .roundAutoClose s = .next (deliverIfDue s) := whileRunning_running hrunning
    rw [harm, deliverIfDue, if_neg]
    rw [deadlineDue_iff]
    rintro ⟨d, hmem, hdue⟩
    exact Nat.not_le.mpr (hlater d hmem) hdue
  all_goals
    have harm : exec (.roundEnd identity tag) s = serviceRequest identity 0x45 tag (roleMayAsk 0x45) (takeRoundEnd identity) s := rfl
    have hkind : 0x45 ∈ roleKinds e.role := by
      cases hr : e.role with
      | officer => exact absurd hr hrole
      | collector => decide
      | engineer => decide
    rw [harm]
  · have hact : takeRoundEnd identity e (serviceHunting s) = (serviceHunting s, refused .noRound) := by
      rw [takeRoundEnd, show (serviceHunting s).cash = s.cash from rfl, hnone]
      rfl
    exact serviceRequest_acted (v := serviceHunting s) tag hfree hkind hact (.refl _)
  · intro hcollector hother
    have hact : takeRoundEnd identity e (serviceHunting s) = (serviceHunting s, refused .notYours) := by
      rw [takeRoundEnd, show (serviceHunting s).cash = s.cash from rfl, hr]
      exact if_pos ⟨hcollector, hother⟩
    exact serviceRequest_acted (v := serviceHunting s) tag hfree hkind hact (.refl _)
  · intro hmay
    have hact : takeRoundEnd identity e (serviceHunting s)
        = (closeRound r (serviceHunting s), accepted (.roundEnded r.number (atClose r))) := by
      rw [takeRoundEnd, show (serviceHunting s).cash = s.cash from rfl, hr, ← closedEntries_eq]
      refine if_neg fun h => ?_
      rcases hmay with hengineer | hown
      · rw [hengineer] at h
        exact absurd h.1 (by decide)
      · exact h.2 hown
    obtain ⟨hexec, hreacts⟩ := serviceRequest_reacts tag hfree hkind hact (closeRound_reacts (s := serviceHunting s) r hgroups)
      (roundClosed_samePorts r _)
    rw [portsOf_roundClosed] at hreacts
    exact ⟨_, hexec, hreacts⟩

end Sys2Proof.Machine
end

section
/-!
PROOFS. JOURNAL_ACK (R160), COUNT_RESULT (R110, R111) and ROUND_START (R101).
-/

namespace Sys2Proof.Machine

open Sys2Proof

/-! ### JOURNAL_ACK -/

/-- The records up to the one of a number, where it is held (R160). -/
theorem ackCount_held {before after : List Record} {r : Record} {sequence : Nat} (hr : r.sequence = sequence)
    (hbefore : ∀ b ∈ before, b.sequence ≠ sequence) : ackCount sequence (before ++ r :: after) = before.length + 1 := by
  have hnone : before.findIdx? (fun b => decide (b.sequence = sequence)) = none := by
    rw [List.findIdx?_eq_none_iff]
    exact fun b hb => decide_eq_false (hbefore b hb)
  rw [ackCount, List.findIdx?_append, hnone]
  simp [List.findIdx?_cons, hr]

theorem ackCount_absent {records : List Record} {sequence : Nat} (h : ∀ r ∈ records, r.sequence ≠ sequence) :
    ackCount sequence records = 0 := by
  have hnone : records.findIdx? (fun b => decide (b.sequence = sequence)) = none := by
    rw [List.findIdx?_eq_none_iff]
    exact fun b hb => decide_eq_false (h b hb)
  rw [ackCount, hnone]

/-- The records before and of the number removed, with the owed cover records where the free space was 0. -/
theorem removeRecords_reacts {s : State} {before after : List Record} {r : Record} (hgroups : Table.keys s.groups = groupNumbers)
    (hrecords : s.journal.records = before ++ r :: after) :
    Reacts
      (if freeSpace s = 0 then withOwed { s with journal := { s.journal with records := after } }
        else { s with journal := { s.journal with records := after } })
      (removeRecords (before.length + 1) s) := by
  have hdrop : s.journal.records.drop (before.length + 1) = after := by
    rw [hrecords, ← List.drop_drop, List.drop_left]
    rfl
  rw [removeRecords, State.onJournal, hdrop]
  exact spaceRose_reacts (s := { s with journal := { s.journal with records := after } }) (freeSpace s) (salesHalted s) hgroups

/-- Settles O42. -/
theorem journalAcksRemoveRecords : Obligations.JournalAcksRemoveRecords := by
  intro s tag sequence hfree
  refine ⟨fun before after r hrecords hr hbefore htables => ?_, fun habsent => ?_⟩
  all_goals
    have harm : exec (.journalAck tag sequence) s = officeRequest 0x17 tag (takeJournalAck sequence) s := rfl
    rw [harm]
  · have hcount : ackCount sequence (hunting s).journal.records = before.length + 1 := by
      rw [show (hunting s).journal.records = before ++ r :: after from hrecords, ackCount_held hr hbefore]
    have hact : takeJournalAck sequence (hunting s)
        = (removeRecords (before.length + 1) (hunting s),
          okWith (.acked (before.length + 1) (figures (removeRecords (before.length + 1) (hunting s))))) := by
      rw [takeJournalAck, hcount]
      exact if_pos (Nat.succ_ne_zero _)
    have hcore := removeRecords_reacts (s := hunting s) htables.2.2.2.2 hrecords
    obtain ⟨hexec, hreacts⟩ := officeRequest_reacts tag hfree hact hcore (by
      split
      · exact withOwed_samePorts _
      · exact .refl _)
    refine ⟨_, hexec, ?_⟩
    rw [apply_ite (portsOf s), portsOf_withOwed] at hreacts
    exact hreacts
  · have hcount : ackCount sequence (hunting s).journal.records = 0 := ackCount_absent habsent
    have hact : takeJournalAck sequence (hunting s) = (hunting s,
        if ackTaken s.journal.nextSequence sequence then okWith (.acked 0 (figures (hunting s)))
        else { code := .badSequence, body := .ackRefused (figures (hunting s)) }) := by
      rw [takeJournalAck, hcount, if_neg (fun h => h rfl), ← apply_ite (Prod.mk (hunting s))]
      rfl
    have hwindow : ackTaken s.journal.nextSequence sequence = true
        ↔ 1 ≤ sequence ∧ sequence ≤ 4294967295
          ∧ (if sequence < s.journal.nextSequence then s.journal.nextSequence - sequence
              else s.journal.nextSequence + 4294967295 - sequence) ≤ 2147483648 := by
      rw [ackTaken, Bool.and_eq_true, Bool.and_eq_true, decide_eq_true_eq, decide_eq_true_eq, decide_eq_true_eq, and_assoc]
      exact Iff.rfl
    rw [officeRequest_acted (v := hunting s) tag hfree hact (.refl _), if_congr hwindow rfl rfl]
    rfl

/-! ### COUNT_RESULT -/

/-- The cash fields may change alike on both sides where every condition flag stands already and no new collection comes on. -/
theorem Reacts.onCash {u t : State} (f : Cash → Cash) (hshown : shown u = u)
    (hsub : (f u.cash).collections ≠ [] → u.cash.collections ≠ []) (h : Reacts u t) : Reacts (u.onCash f) (t.onCash f) := by
  have hcash : t.cash = u.cash := h.cash
  obtain ⟨told, hj, hlen, hcov, hflag, htold⟩ := h.told
  obtain ⟨hhalted, hhigh, hcounts, hclock⟩ := h.conditions
  refine
    { keeps := fun b hb => ?_
      slots := h.slots
      terminals := h.terminals
      groups := h.groups
      told := ⟨told, hj.trans (tells_congr (u := u) (v := u.onCash f) u.calendar.zoneTime told rfl rfl rfl).symm, hlen, hcov, hflag, fun hne => ?_⟩
      events := h.events
      stands := h.stands
      conditions := ⟨hhalted, hhigh, fun hset => .inl ?_, hclock⟩
      mask := h.mask }
  · have := h.keeps b hb
    cases b <;> first | exact this | exact congrArg f hcash
  · obtain ⟨h1, h2, h3, h4⟩ := (shown_iff t).mp (htold hne)
    refine (shown_iff _).mpr ⟨h1, h2, fun hmore => h3 ?_, h4⟩
    rw [hcash]
    exact hsub (by rw [← hcash]; exact hmore)
  · rcases hcounts hset with hu | ht
    · exact hu
    · exact ((shown_iff u).mp hshown).2.2.1 (hcash ▸ ht)

/-- A reconciled record (R110, R111). -/
theorem reconcile_reacts (c : Collection) (counted : Six) (s : State) :
    Reacts
      (let w : State :=
        (shown (recorded (.reconciled c.number counted c.value (counted.value s.cash.denominations) (discrepancyOf s c counted)
          (outcomeFor s c counted)) s)).onCash fun k => { k with collections := k.collections.filter fun x => x.number ≠ c.number }
       if outcomeFor s c counted = .short then raiseFault c.slot .cashShort w else w)
      (reconcile c counted s) := by
  have hnoted := haltChanged_reacts (salesHalted s) (append (.reconciled c.number counted c.value (counted.value s.cash.denominations)
    (discrepancyOf s c counted) (outcomeFor s c counted)) s)
  have hgone := hnoted.onCash (fun k => { k with collections := k.collections.filter fun x => x.number ≠ c.number })
    (by rw [append_eq, shown_shown]) fun hmore hnil => hmore (by dsimp only; rw [hnil, List.filter_nil])
  rw [append_eq] at hgone
  unfold reconcile
  dsimp only
  rw [append_eq]
  split
  · exact (hgone.raiseFault c.slot .cashShort).trans (raiseEventFault_reacts _ _ _)
  · exact hgone

/-- Settles O43. -/
theorem countsReconcile : Obligations.CountsReconcile := by
  intro s tag number counted hfree
  have harm : exec (.countResult tag number counted) s = officeRequest 0x12 tag (takeCountResult number counted) s := rfl
  rw [harm]
  refine ⟨fun r hfails => ?_, fun c hc hroom => ?_⟩
  · have hact : takeCountResult number counted (hunting s) = (hunting s, r) := by
      rcases hfails with ⟨hnone, rfl⟩ | ⟨hheld, ⟨hfull, rfl⟩ | ⟨-, h⟩⟩
      · have : collectionOf number (hunting s) = none := List.find?_eq_none.mpr fun c hc => by simpa using hnone c hc
        rw [takeCountResult, this]
        rfl
      · obtain ⟨c, hc⟩ : ∃ c, collectionOf number (hunting s) = some c := by
          refine Option.ne_none_iff_exists'.mp fun hnone => hheld fun c hc => ?_
          simpa using List.find?_eq_none.mp hnone c hc
        rw [takeCountResult, hc]
        exact if_pos hfull
      · exact h.elim
    exact officeRequest_acted (v := hunting s) tag hfree hact (.refl _)
  · have hnumber : c.number = number := by simpa using List.find?_some hc
    have hact : takeCountResult number counted (hunting s)
        = (reconcile c counted (hunting s), okWith (.reconciled (outcomeFor s c counted) c.value
            (counted.value s.cash.denominations) (discrepancyOf s c counted))) := by
      rw [takeCountResult, show collectionOf number (hunting s) = some c from hc]
      exact if_neg hroom
    obtain ⟨hexec, hreacts⟩ := officeRequest_reacts tag hfree hact (reconcile_reacts c counted (hunting s)) (by
      dsimp only
      split
      · exact (SamePorts.refl _).trans (raiseFault_samePorts _ _ _)
      · exact .refl _)
    refine ⟨_, hexec, ?_⟩
    rw [apply_ite (portsOf s), portsOf_raiseFault, hnumber] at hreacts
    exact hreacts

/-! ### ROUND_START -/

/-- What a ROUND_START is refused with (R101). -/
def roundRefusal (s : State) : Option Response :=
  if s.calendar.clockSet = false then some (refused .noClock)
  else
    (s.cash.round.map fun r => { code := .roundOpen, body := .roundBusy r.number r.collector }).or
      (if (roundList s).length = 0 then some (refused .nothingDue)
      else if roundFits s (roundList s).length = false then
        some { code := .noSpace, body := .space (roundList s).length (freeCollections s) (freeSpace s) }
      else none)

theorem roundRefusal_decides (s : State) : Decides (roundChecks s) (roundRefusal s) := by
  refine .cons Iff.rfl fun _ => ?_
  cases s.cash.round with
  | some r => exact Or.inl ⟨trivial, rfl⟩
  | none =>
    refine .cons Iff.rfl fun _ => .cons ?_ fun _ => .nil
    rw [roundFits, Bool.and_eq_false_iff, decide_eq_false_iff_not, decide_eq_false_iff_not, not_le, not_le]
    exact Iff.rfl

theorem takeRoundStart_eq (identity : Nat) (e : RosterEntry) (s : State) :
    takeRoundStart identity e s
      = (roundRefusal s).elim
          (openRound identity (e.key.getD 0) (roundList s) s, accepted (.roundOpened s.cash.nextRound (roundList s))) fun r => (s, r) := by
  unfold takeRoundStart roundRefusal
  cases s.calendar.clockSet with
  | false => rfl
  | true =>
    cases s.cash.round with
    | some r => rfl
    | none =>
      by_cases hnone : (roundList s).length = 0
      · simp [hnone, refused, refusal]
      · cases hfits : roundFits s (roundList s).length <;> simp [hnone, hfits, accepted, okWith]

theorem recordRound_eq (collector key : Nat) (entries : List RoundEntry) (s : State) :
    recordRound collector key entries s
      = { shown { s with journal := { s.journal with reservation := entries.length + 1 } } with
          cash := { s.cash with round := some (newRound collector key entries s), nextRound := nextCounter s.cash.nextRound }
          calendar := { s.calendar with deadline := some (s.calendar.zoneTime + 28800) } } := by
  simp only [recordRound, reserve, refresh_eq_shown]
  rfl

/-- A round opened over its list (R101). -/
theorem openRound_reacts (collector key : Nat) (entries : List RoundEntry) (s : State) :
    Reacts (raise .round (recordRound collector key entries s)) (openRound collector key entries s) := haltChanged_reacts _ _

/-- Settles O45. -/
theorem roundStartsOpen : Obligations.RoundStartsOpen := by
  intro s identity tag e hfree hrole
  have harm : exec (.roundStart identity tag) s = serviceRequest identity 0x43 tag (roleMayAsk 0x43) (takeRoundStart identity) s := rfl
  have hkind : 0x43 ∈ roleKinds e.role := by rw [hrole]; decide
  rw [harm]
  refine ⟨fun r hfails => ?_, fun hpasses => ?_⟩
  · have hrefused : roundRefusal (serviceHunting s) = some r := (roundRefusal_decides s).eq_some hfails
    exact serviceRequest_acted (v := serviceHunting s) tag hfree hkind (by rw [takeRoundStart_eq, hrefused]; rfl) (.refl _)
  · have htaken : roundRefusal (serviceHunting s) = none := (roundRefusal_decides s).eq_none hpasses
    have hact : takeRoundStart identity e (serviceHunting s)
        = (openRound identity (e.key.getD 0) (roundList s) (serviceHunting s),
          accepted (.roundOpened s.cash.nextRound (roundList s))) := by
      rw [takeRoundStart_eq, htaken]
      rfl
    obtain ⟨hexec, hreacts⟩ := serviceRequest_reacts tag hfree hkind hact
      (openRound_reacts identity (e.key.getD 0) (roundList s) (serviceHunting s)) (by
        rw [recordRound_eq]
        exact ⟨rfl, rfl⟩)
    rw [recordRound_eq] at hreacts
    exact ⟨_, hexec, hreacts⟩

end Sys2Proof.Machine
end

section
/-!
PROOFS. The Calendar's events and PLAN_ASSIGN: the rolls (R9, R10), boundaries and switches (R13 to R15, R30), the end of a second and the
wrap of zone time (R1, R3, R4), HOLIDAYS_PUT (R8) and the one mode of a PLAN_ASSIGN (R27 to R29).
-/

namespace Sys2Proof.Machine

open Sys2Proof

/-! ### The rolls (R9, R10) -/

theorem dayRollDue_iff (s : State) :
    dayRollDue s = true ↔ s.calendar.clockSet = true ∧ ∃ d ∈ s.calendar.lastRolled, d < today s := by
  rw [dayRollDue, Bool.and_eq_true]
  cases s.calendar.lastRolled <;> simp

/-- Settles O35. -/
theorem rollsRunWhenDue : Obligations.RollsRunWhenDue := by
  intro s hrunning
  have hminute : exec .minuteRoll s = .next (if s.calendar.zoneTime % 60 = 0 then minuteRoll s else s) := whileRunning_running hrunning
  have hday : exec .dayRoll s = .next (if dayRollDue s then dayRoll s else s) := whileRunning_running hrunning
  refine ⟨fun hdue => ?_, fun hlater => ?_, fun hlater => ?_, fun d hd hset hbefore htables => ?_⟩
  · rw [hminute, if_pos hdue]
    rfl
  · rw [hminute, if_neg hlater]
  · rw [hday, if_neg]
    rw [dayRollDue_iff]
    rintro ⟨hset, d, hd, hbefore⟩
    rcases hlater with hunset | hall
    · rw [hunset] at hset
      cases hset
    · exact Nat.not_le.mpr hbefore (hall d hd)
  · rw [hday, if_pos ((dayRollDue_iff s).mpr ⟨hset, d, hd, hbefore⟩)]
    have hwf : Table.wf s.terminals = true := htables.1
    refine ⟨_, rfl, ?_⟩
    rw [dayRoll, timeForAll_eq (by exact hwf)]
    refine ⟨fun b hb => ?_, rfl, rfl, fun slot => ?_⟩
    · cases b <;> first | rfl | exact absurd (by decide) hb
    · rw [terminal, State.onTerminals_terminals, Table.find?_mapAll]
      refine congrFun (congrArg Option.map (funext fun x => ?_)) _
      rw [Terminal.timed, Terminal.told]
      simp only [clearConsumed, State.onPermits, State.onCalendar, hset]

/-! ### The segment found (R12, R13) -/

theorem bandAt_none {minute i : Nat} {bands : List Band} (h : ∀ c ∈ bands, minute < c.start) : bandAt minute i bands = none := by
  induction bands generalizing i with
  | nil => rfl
  | cons c rest ih =>
    rw [bandAt, ih fun a ha => h a (List.mem_cons_of_mem _ ha)]
    exact if_neg (Nat.not_le.mpr (h c List.mem_cons_self))

/-- The band found is the last that starts at or below the minute. -/
theorem bandAt_last {minute i : Nat} {before rest : List Band} {b : Band} (hstart : b.start ≤ minute)
    (hlater : ∀ c ∈ rest, minute < c.start) :
    bandAt minute i (before ++ b :: rest) = some (i + before.length, b, rest.head?.map (·.start)) := by
  induction before generalizing i with
  | nil =>
    rw [List.nil_append, bandAt, bandAt_none hlater]
    exact if_pos hstart
  | cons a before ih =>
    rw [List.cons_append, bandAt, ih, List.length_cons, Nat.add_assoc, Nat.add_comm 1]

theorem localDay_of {offset : Int} {now time : Nat} (h : (time : Int) = now + 60 * offset) : localDay offset now = time / 86400 := by
  rw [localDay, localTime, ← h]
  rfl

theorem secondOfDay_of {offset : Int} {now time : Nat} (h : (time : Int) = now + 60 * offset) :
    secondOfDay offset now = time % 86400 := by
  rw [secondOfDay, localTime, ← h]
  rfl

/-- The plan in force, where the switch time has passed or lies ahead. -/
theorem planAt_eq (f : PlanFields) (now : Nat) :
    planAt f.current f.pending now
      = if ∃ p ∈ f.pending, p.2 ≤ now then (f.pending.map (·.1), none) else (f.current, f.pending.map (·.2)) := by
  cases hp : f.pending with
  | none => simp [planAt]
  | some p => simp [planAt, apply_ite]

theorem segmentNow_unset {s : State} (h : s.calendar.clockSet = false) (f : PlanFields) : segmentNow s f = none := by
  rw [segmentNow, h]
  rfl

/-! ### Boundaries and switches (R14, R30) -/

theorem boundaryDue_iff (slot : Nat) (s : State) :
    boundaryDue slot s = true
      ↔ s.calendar.clockSet = true ∧ ∃ x ∈ terminal s slot, ∃ g ∈ x.segment, g.ends ≤ s.calendar.zoneTime := by
  rw [boundaryDue, Bool.and_eq_true]
  cases terminal s slot with
  | none => simp
  | some x => cases hx : x.segment <;> simp [hx]

theorem switchDue_iff (slot : Nat) (s : State) :
    switchDue slot s = true
      ↔ s.calendar.clockSet = true ∧ ∃ x ∈ terminal s slot, ∃ p ∈ x.plans.pending, p.2 ≤ s.calendar.zoneTime := by
  rw [switchDue, Bool.and_eq_true]
  cases terminal s slot with
  | none => simp
  | some x =>
    cases hx : x.plans.pending with
    | none => simp [hx]
    | some p => simp only [Option.bind_some, hx, Option.map_some, Option.getD_some, decide_eq_true_eq, Option.mem_def,
        Option.some.injEq, exists_eq_left']

/-- A switch that is due is taken, and PLAN_SWITCHED set. -/
theorem takeSwitch_due {slot : Nat} {s : State} {x : Terminal} {p : Nat × Nat} (hx : terminal s slot = some x)
    (hp : x.plans.pending = some p) (hdue : p.2 ≤ s.calendar.zoneTime) :
    takeSwitch slot s
      = raise .planSwitched (onTerminal slot (fun t => { t with plans := { current := some p.1, pending := none } }) s) := by
  rw [takeSwitch, hx]
  dsimp only
  rw [hp]
  exact if_pos hdue

/-- A slot whose plan fields change is found afresh. -/
theorem refind_planned (slot : Nat) (g : PlanFields → PlanFields) (s : State) :
    Reacts
      (onTerminal slot
        (fun y => Terminal.bounded s.calendar.zoneTime (segmentNow s (g y.plans)) { y with plans := g y.plans }) s)
      (refind slot (onTerminal slot (fun y => { y with plans := g y.plans }) s)) := by
  have h := refind_reacts slot (onTerminal slot (fun y => { y with plans := g y.plans }) s)
  rw [onTerminal_onTerminal] at h
  exact h

/-- Settles O36. -/
theorem boundariesAndSwitches : Obligations.BoundariesAndSwitches := by
  constructor
  · intro s slot hrunning
    have hboundary : exec (.segmentBoundary slot) s = .next (if boundaryDue slot s then refind slot s else s) :=
      whileRunning_running hrunning
    have hswitch : exec (.switchTimeArrival slot) s = .next (if switchDue slot s then refind slot (takeSwitch slot s) else s) :=
      whileRunning_running hrunning
    have hnoBoundary (h : ¬boundaryDue slot s = true) : exec (.segmentBoundary slot) s = .next s := by rw [hboundary, if_neg h]
    have hnoSwitch (h : ¬switchDue slot s = true) : exec (.switchTimeArrival slot) s = .next s := by rw [hswitch, if_neg h]
    rw [boundaryDue_iff] at hnoBoundary
    rw [switchDue_iff] at hnoSwitch
    refine ⟨fun hunset => ?_, fun habsent => ?_, fun x hx hset => ⟨fun hlater => ?_, fun hlater => ?_, fun g hg hdue => ?_,
      fun p hp hdue => ?_⟩⟩
    · rw [hunset] at hnoBoundary hnoSwitch
      exact ⟨hnoBoundary fun h => Bool.false_ne_true h.1, hnoSwitch fun h => Bool.false_ne_true h.1⟩
    · rw [habsent] at hnoBoundary hnoSwitch
      exact ⟨hnoBoundary (by rintro ⟨-, x, hx, -⟩; cases hx), hnoSwitch (by rintro ⟨-, x, hx, -⟩; cases hx)⟩
    · refine hnoBoundary ?_
      rintro ⟨-, y, hy, g, hg, hends⟩
      obtain rfl : x = y := Option.some.inj (hx.symm.trans hy)
      exact Nat.not_le.mpr (hlater g hg) hends
    · refine hnoSwitch ?_
      rintro ⟨-, y, hy, p, hp, hends⟩
      obtain rfl : x = y := Option.some.inj (hx.symm.trans hy)
      exact Nat.not_le.mpr (hlater p hp) hends
    · rw [hboundary, if_pos ((boundaryDue_iff slot s).mpr ⟨hset, x, hx, g, hg, hdue⟩)]
      refine ⟨_, rfl, Reacts.trans (.agree fun y hy => ?_) (refind_reacts slot s)⟩
      obtain rfl : x = y := Option.some.inj (hx.symm.trans hy)
      rfl
    · rw [hswitch, if_pos ((switchDue_iff slot s).mpr ⟨hset, x, hx, p, hp, hdue⟩), takeSwitch_due hx hp hdue]
      exact ⟨_, rfl, refind_planned slot (fun _ => { current := some p.1, pending := none }) (raise .planSwitched s)⟩
  · intro s f
    refine ⟨fun hunset => segmentNow_unset hunset f, fun hnone hahead => ?_, ?_⟩
    · rw [segmentNow, findSegment, planAt_eq, if_neg hahead, hnone]
      exact ite_self _
    · intro plan time profiles discounts before rest b hset hplan hready htime day minute profile hprofile hstart hlater _ bandEnd
      have hday : localDay s.calendar.offset s.calendar.zoneTime = day := localDay_of htime
      have hprofileOf : profileOf s.calendar.holidays day = profile := by
        rw [profileOf]
        by_cases hholiday : day ∈ s.calendar.holidays
        · rw [if_pos (List.contains_iff_mem.mpr hholiday)]
          exact (if_pos hholiday).symm
        · rw [if_neg (mt List.contains_iff_mem.mp hholiday)]
          exact (if_neg hholiday).symm
      have hfound (switch : Option Nat) :
          (findUnder s.plans s.calendar.holidays s.calendar.offset plan switch s.calendar.zoneTime).map (·.segment)
            = some
                { kind := b.kind.segKind, plan := plan, profile := profile, band := before.length + 1, day := day
                  ends := min bandEnd (switch.getD bandEnd) } := by
        have hnext : ((rest.head?.map (·.start)).map (· * 60)).getD Config.daySeconds = (rest.head?.map (·.start)).getD 1440 * 60 := by
          cases rest.head? <;> rfl
        rw [findUnder, readyPlan, hready]
        dsimp only
        rw [hday, hprofileOf, hprofile]
        dsimp only
        rw [minuteOfDay, secondOfDay_of htime, bandAt_last hstart hlater]
        dsimp only
        rw [hnext, Nat.add_comm 1]
        rfl
      rw [segmentNow, hset, if_pos rfl, findSegment, planAt_eq]
      by_cases hpassed : ∃ p ∈ f.pending, p.2 ≤ s.calendar.zoneTime
      · have hcurrent : f.pending.map (·.1) = some plan := by
          rcases hplan with ⟨switch, hp, -⟩ | ⟨hahead, -⟩
          · rw [hp]
            rfl
          · exact absurd hpassed hahead
        rw [if_pos hpassed, hcurrent]
        dsimp only
        rw [hfound none, if_pos hpassed, Option.getD_none, min_self]
        rfl
      · have hcurrent : f.current = some plan := by
          rcases hplan with ⟨switch, hp, hle⟩ | ⟨-, hcurrent⟩
          · exact absurd ⟨_, hp, hle⟩ hpassed
          · exact hcurrent
        rw [if_neg hpassed, hcurrent]
        dsimp only
        rw [hfound, if_neg hpassed]
        rfl

/-! ### The end of a second -/

theorem countSilence_eq (t : Terminal) : countSilence t = t.second := by
  unfold countSilence Terminal.second Config.silenceCounterMax
  by_cases hcounts : t.segment.map (·.kind) = some .charged ∧ t.watch.service ≠ .outOfService
  · obtain ⟨hcharged, hservice⟩ := hcounts
    by_cases hbelow : t.watch.silence < 86400
    · rw [if_pos ⟨hcharged, hservice, hbelow⟩, if_pos ⟨hcharged, hservice⟩, if_pos hbelow]
    · rw [if_neg fun h => hbelow h.2.2, if_pos ⟨hcharged, hservice⟩, if_neg hbelow]
  · rw [if_neg fun h => hcounts ⟨h.1, h.2.1⟩, if_neg hcounts]

theorem mapAll_countSilence (t : Table Terminal) : Table.mapAll countSilence t = t.map fun e => (e.1, e.2.second) := by
  rw [show countSilence = Terminal.second from funext countSilence_eq]
  rfl

/-- The second that ends below the greatest zone time. -/
theorem endSecond_counts {s : State} (h : s.calendar.zoneTime ≠ 4294967295) :
    endSecond s
      = { s with
          calendar := { s.calendar with zoneTime := s.calendar.zoneTime + 1, uptime := s.calendar.uptime + 1 }
          terminals := s.terminals.map fun e => (e.1, e.2.second) } := by
  rw [endSecond, State.onTerminals, mapAll_countSilence]
  exact if_neg h

/-- Zone time 0 with the clock unset and no last-rolled date (R1, R4). -/
def unsetAtZero (s : State) : State :=
  shown (s.onCalendar fun c => { c with zoneTime := 0, clockSet := false, lastRolled := none })

/-- Zone time's wrap, but for its deadline and the live tickets: segments, services and covers are derived. -/
def unsetDerived (s : State) : State := deriveAll (refindAll (unsetAtZero s))

theorem unsetDerived_derives (s : State) : Derives Placed (unsetAtZero s) (unsetDerived s) :=
  (refindAll_derives _).trans (deriveAll_derives _).placed

/-- No live ticket is left (R1). -/
def noLive (s : State) : State := s.onSales fun q => { q with live := [] }

theorem wrapped_reacts {s : State} (hwf : Table.wf s.terminals = true) :
    Reacts
      (shown
        { s with
          calendar := { s.calendar with zoneTime := 0, clockSet := false, lastRolled := none }
          terminals := s.terminals.map fun e => (e.1, e.2.bounded 0 none)
          sales := { s.sales with live := [] } })
      (noLive (unsetDerived s)) := by
  have hfound := refindAll_reacts (s := unsetAtZero s) hwf
  simp only [segmentNow_unset (s := unsetAtZero s) rfl] at hfound
  exact (hfound.trans (deriveAll_reacts _)).onSales fun q => { q with live := [] }

/-- The live tickets go on both sides of a delivered deadline. -/
theorem deliverDeadline_noLive {s : State} (hgroups : Table.keys s.groups = groupNumbers) :
    DeadlineDelivered (noLive s) (noLive (deliverDeadline s)) := by
  unfold DeadlineDelivered deliverDeadline
  rw [show (noLive s).cash = s.cash from rfl]
  cases s.cash.round with
  | none => rfl
  | some r =>
    have h := (closeRound_reacts r hgroups).onSales fun q => { q with live := [] }
    rw [← noLive, show noLive (roundClosed r s) = roundClosed r (noLive s) from
      (roundClosed_around id id (fun q => { q with live := [] }) id r s).symm] at h
    exact h

theorem wrapZoneTime_eq (s : State) :
    wrapZoneTime s
      = noLive (if (unsetDerived s).calendar.deadline.isSome then deliverDeadline (unsetDerived s) else unsetDerived s) := by
  unfold unsetDerived unsetAtZero noLive
  rw [wrapZoneTime, refresh_eq_shown]

/-- Zone time's wrap: with a deadline registered it is delivered, after the covers (log entry 7). -/
theorem wrapZoneTime_delivers {s : State} (hwf : Table.wf s.terminals = true) (hgroups : Table.keys s.groups = groupNumbers) :
    ∃ v : State,
      Reacts
          (shown
            { s with
              calendar := { s.calendar with zoneTime := 0, clockSet := false, lastRolled := none }
              terminals := s.terminals.map fun e => (e.1, e.2.bounded 0 none)
              sales := { s.sales with live := [] } }) v
        ∧ (s.calendar.deadline = none → wrapZoneTime s = v)
        ∧ (s.calendar.deadline ≠ none → DeadlineDelivered v (wrapZoneTime s)) := by
  have hdeadline : (unsetDerived s).calendar.deadline = s.calendar.deadline :=
    (congrArg Calendar.deadline (unsetDerived_derives s).calendar).trans rfl
  have hkeys : Table.keys (unsetDerived s).groups = groupNumbers := by
    rw [(unsetDerived_derives s).groupKeys, ← hgroups]
    rfl
  have hreacts := wrapped_reacts hwf
  rw [wrapZoneTime_eq, hdeadline]
  generalize unsetDerived s = u at hkeys hreacts
  refine ⟨noLive u, hreacts, fun hnone => ?_, fun hsome => ?_⟩
  · rw [hnone, Option.isSome_none, if_neg Bool.false_ne_true]
  · rw [if_pos (Option.isSome_iff_ne_none.mpr hsome)]
    exact deliverDeadline_noLive hkeys

/-- Uptime and the silence counters at the end of a second (R3, R127). -/
def secondCounted (s : State) : State :=
  { s with
    calendar := { s.calendar with uptime := s.calendar.uptime + 1 }
    terminals := s.terminals.map fun e => (e.1, e.2.second) }

theorem endSecond_eq (s : State) : endSecond s = advanceZoneTime (secondCounted s) := by
  rw [endSecond, State.onTerminals, mapAll_countSilence]
  rfl

theorem secondCounted_wf {s : State} (hwf : Table.wf s.terminals = true) : Table.wf (secondCounted s).terminals = true := by
  rw [Table.wf_iff] at hwf ⊢
  rw [secondCounted, Table.keys, List.map_map]
  exact hwf

/-- Settles O34. -/
theorem secondsEnd : Obligations.SecondsEnd := by
  intro s
  have htick : exec .secondTick s = .next (if s.supply.part = .running then endSecond s else endSecondInBackup s) := rfl
  have hwrap : exec .zoneTimeWrap s
      = .next
          (if s.calendar.zoneTime = 4294967295 then
            (if s.supply.part = .running then endSecond s else endSecondInBackup s)
          else s) := rfl
  refine ⟨fun hrunning hbelow => ?_, fun hbackup hbelow => ?_, fun hbackup hgreatest => ?_, fun hrunning hgreatest htables => ?_⟩
  · rw [htick, hwrap, if_pos hrunning, if_neg hbelow, endSecond_counts hbelow]
    exact ⟨rfl, rfl⟩
  · rw [htick, hwrap, hbackup, if_neg (by decide), if_neg hbelow]
    exact ⟨congrArg _ (if_neg hbelow), rfl⟩
  · rw [htick, hwrap, hbackup, if_neg (by decide), if_pos hgreatest]
    have hleft : endSecondInBackup s = wrapInBackup s := if_pos hgreatest
    rw [hleft]
    exact ⟨rfl, rfl⟩
  · rw [htick, hwrap, if_pos hrunning, if_pos hgreatest]
    obtain ⟨hwf, -, -, -, hgroups⟩ := htables
    have hend : endSecond s = wrapZoneTime (secondCounted s) := (endSecond_eq s).trans (if_pos hgreatest)
    obtain ⟨v, hreacts, hdelivers⟩ := wrapZoneTime_delivers (secondCounted_wf hwf) (s := secondCounted s) hgroups
    have hmap : ((secondCounted s).terminals.map fun e => (e.1, e.2.bounded 0 none))
        = s.terminals.map fun e => (e.1, e.2.second.bounded 0 none) := List.map_map
    rw [hmap] at hreacts
    rw [hend]
    exact ⟨v, _, rfl, rfl, hreacts, hdelivers⟩

/-! ### HOLIDAYS_PUT (R8) -/

/-- The first offending entry of a list after those already passed. -/
theorem badHoliday_decides (passed rest : List Nat) (before : Nat) (hbefore : before = (passed.getLast?).getD 0) :
    Decides
      ((List.range' passed.length rest.length).map fun i =>
        let d := (passed ++ rest).getD i 0
        (32 ≤ i ∨ d < 1 ∨ 49710 < d ∨ (0 < i ∧ d ≤ (passed ++ rest).getD (i - 1) 0), refusedAt .badList (i + 1)))
      ((badHoliday before (passed.length + 1) rest).map (refusedAt .badList)) := by
  induction rest generalizing passed before with
  | nil => exact .nil
  | cons d rest ih =>
    rw [List.length_cons, List.range'_succ, List.map_cons, badHoliday, apply_ite (Option.map _)]
    have hd : (passed ++ d :: rest).getD passed.length 0 = d := by simp
    have hbad : (32 ≤ passed.length ∨ d < 1 ∨ 49710 < d ∨ (0 < passed.length ∧ d ≤ (passed ++ d :: rest).getD (passed.length - 1) 0))
        ↔ (Config.maxHolidays < passed.length + 1 ∨ d < 1 ∨ Config.maxLocalDay < d ∨ d ≤ before) := by
      have hprevious : 0 < passed.length → (passed ++ d :: rest).getD (passed.length - 1) 0 = before := by
        intro hpos
        rw [hbefore, List.getLast?_eq_getElem?, List.getD_eq_getElem?_getD, List.getElem?_append_left (by omega)]
      have hfirst : ¬0 < passed.length → before = 0 := by
        intro hzero
        rw [hbefore, List.length_eq_zero_iff.mp (Nat.eq_zero_of_not_pos hzero)]
        rfl
      rw [Config.maxHolidays, Config.maxLocalDay]
      by_cases hpos : 0 < passed.length
      · rw [hprevious hpos]
        omega
      · rw [hfirst hpos]
        omega
    dsimp only
    rw [hd]
    refine .cons hbad fun _ => ?_
    have hnext := ih (passed ++ [d]) d (by simp)
    rw [List.length_append, List.length_singleton, List.append_assoc, List.singleton_append] at hnext
    exact hnext

theorem holidays_decides (days : List Nat) :
    Decides (holidayChecks days) ((badHoliday 0 1 days).map (refusedAt .badList)) := by
  rw [holidayChecks, List.range_eq_range']
  exact badHoliday_decides [] days 0 rfl

theorem takeHolidaysPut_eq (days : List Nat) (s : State) :
    takeHolidaysPut days s
      = ((badHoliday 0 1 days).map (refusedAt .badList)).elim (putHolidays days s, accepted .empty) fun r => (s, r) := by
  rw [takeHolidaysPut]
  cases badHoliday 0 1 days <;> rfl

/-- The walk in flight reads the new list from here on; how many segments it has found is a free value (log entry 13). -/
theorem holidaysDuringWalk_eq (days : List Nat) (s : State) :
    ∃ found : Nat,
      holidaysDuringWalk days s
          = { s with
              engine :=
                { s.engine with
                  walk := s.engine.walk.map fun w => { w with past := w.past ++ [(found, w.reading)], reading := days } }
              freeIndex := s.freeIndex + if s.engine.walk.isSome then 1 else 0 }
        ∧ ∀ w ∈ s.engine.walk, w.past = [] → 1 ≤ found := by
  cases hw : s.engine.walk with
  | none =>
    have hengine : { s.engine with walk := none } = s.engine := by rw [← hw]
    refine ⟨0, ?_, fun w hmem => by cases hmem⟩
    rw [holidaysDuringWalk, hw]
    dsimp only [Option.map_none]
    rw [hengine]
    rfl
  | some w =>
    refine ⟨Config.walkFindings s.freeIndex + if w.past = [] then 1 else 0, ?_, fun v hv hpast => ?_⟩
    · rw [holidaysDuringWalk, hw]
      rfl
    · obtain rfl : w = v := Option.some.inj hv
      rw [if_pos hpast]
      exact Nat.le_add_left _ _

/-- Settles O33. -/
theorem holidaysPutReplaces : Obligations.HolidaysPutReplaces := by
  intro s tag days hfree
  have harm : exec (.holidaysPut tag days) s = officeRequest 0x03 tag (takeHolidaysPut days) s := rfl
  rw [harm]
  refine ⟨fun r hfails => ?_, fun hpasses htables => ?_⟩
  · exact officeRequest_acted (v := hunting s) tag hfree
      (by rw [takeHolidaysPut_eq, (holidays_decides days).eq_some hfails]; rfl) (.refl _)
  · obtain ⟨found, hwalk, hfound⟩ := holidaysDuringWalk_eq days ((hunting s).onCalendar fun c => { c with holidays := days })
    have hact : takeHolidaysPut days (hunting s) = (putHolidays days (hunting s), accepted .empty) := by
      rw [takeHolidaysPut_eq, (holidays_decides days).eq_none hpasses]
      rfl
    have hreacts := refindAll_reacts
      (s := holidaysDuringWalk days ((hunting s).onCalendar fun c => { c with holidays := days }))
      (by rw [hwalk]; exact htables.1)
    obtain ⟨hexec, hafter⟩ := officeRequest_reacts tag hfree hact hreacts (by rw [hwalk]; exact ⟨rfl, rfl⟩)
    rw [hwalk] at hafter
    exact ⟨found, _, hexec, hafter, hfound⟩

/-! ### PLAN_ASSIGN (R27 to R29) -/

theorem assignRefusal_decides (plan : Nat) (switch : Option Nat) (slots : List Nat) (s : State) :
    Decides (assignChecks plan switch slots s) (assignRefusal plan switch slots s) := by
  have hslots : (slots = [] ∨ (∃ n ∈ slots, n < 1 ∨ 24 < n) ∨ ¬slots.Nodup)
      ↔ (slots = [] ∨ (slots.any fun n => !slotNumber n) = true ∨ ¬slots.Nodup) := by
    simp only [List.any_eq_true, slotNumber_not]
  have heq : assignRefusal plan switch slots s
      = (if (!planNumber plan) = true then some (refused .badPlanSlot)
        else if (readyPlan s.plans plan).isNone = true then some (refused .planNotReady)
        else if slots = [] ∨ (slots.any fun n => !slotNumber n) = true ∨ ¬slots.Nodup then some (refused .badSlotSet)
        else none).or
          (((slots.find? fun n => (terminal s n).isNone).map (refusedAt .slotEmpty)).or
            (if switch.isSome = true ∧ s.calendar.clockSet = false then some (refused .noClock)
            else if ∃ t ∈ switch, t % 60 ≠ 0 then some (refused .badSwitchTime)
            else none)) := by
    unfold assignRefusal
    split
    · rfl
    · split
      · rfl
      · split
        · rfl
        · cases slots.find? fun n => (terminal s n).isNone with
          | some n => rfl
          | none =>
            cases switch with
            | none => simp
            | some t => cases s.calendar.clockSet <;> simp [refused, refusal]
  rw [heq, assignChecks, List.append_assoc]
  refine .append (.cons (planNumber_eq_false plan).symm fun _ => .cons Iff.rfl fun _ => .cons hslots fun _ => .nil) fun _ =>
    .append (decides_map (fun n => Option.isNone_iff_eq_none.symm) slots) fun _ =>
      .cons Iff.rfl fun _ => .cons Iff.rfl fun _ => .nil

/-- The plan fields after an assignment, in the one mode that acceptance decides (R27 to R29). -/
theorem assignFields_eq (plan : Nat) (switch : Option Nat) (s : State) (f : PlanFields) :
    assignFields plan (assignsPending switch s) switch f
      = match switch.filter fun t => s.calendar.zoneTime < t with
        | some t => { f with pending := some (plan, t) }
        | none => { current := some plan, pending := none } := by
  cases switch with
  | none => rfl
  | some t => by_cases hahead : s.calendar.zoneTime < t <;> simp [assignFields, assignsPending, Option.filter, hahead]

theorem assignsPending_eq (switch : Option Nat) (s : State) :
    assignsPending switch s = (switch.filter fun t => s.calendar.zoneTime < t).isSome := by
  cases switch with
  | none => rfl
  | some t => by_cases hahead : s.calendar.zoneTime < t <;> simp [assignsPending, Option.filter, hahead]

theorem segmentNow_congr {s u : State} (hc : u.calendar = s.calendar) (hp : u.plans = s.plans) (f : PlanFields) :
    segmentNow u f = segmentNow s f := by
  simp only [segmentNow, hc, hp]

/-- Plan fields change, and the segment is found by them, alike on both sides. -/
theorem Served.planned (g : PlanFields → PlanFields) (now : Nat) (found : PlanFields → Option Segment) {x y : Terminal}
    (h : Served x y) :
    Served (Terminal.bounded now (found (g x.plans)) { x with plans := g x.plans })
      (Terminal.bounded now (found (g y.plans)) { y with plans := g y.plans }) := by
  have hplans : Neutral fun z : Terminal => { z with plans := g z.plans } :=
    ⟨fun _ _ hbare => congrArg (fun z : Terminal => { z with plans := g z.plans }) hbare, fun _ => rfl, fun _ => rfl, fun _ => rfl⟩
  rw [h.plans]
  have := (h.neutral hplans).bounded now (found (g x.plans))
  rw [h.plans] at this
  exact this

/-- The listed terminals are assigned one after another. -/
theorem assignSlots_reacts {slots : List Nat} (hslots : slots.Nodup) (plan : Nat) (pending : Bool) (switch : Option Nat) (s : State) :
    Reacts
      (onSlots slots
        (fun y =>
          Terminal.bounded s.calendar.zoneTime (segmentNow s (assignFields plan pending switch y.plans))
            { y with plans := assignFields plan pending switch y.plans }) s)
      (slots.foldl (assignSlot plan pending switch) s) := by
  refine onSlots_reacts (f := fun k u => assignSlot plan pending switch u k) hslots
    (fun x y h => h.planned (assignFields plan pending switch) _ (segmentNow s)) fun k u hc hp => ?_
  have h := refind_planned k (assignFields plan pending switch) u
  simp only [hc, segmentNow_congr hc hp] at h
  exact h

/-- Settles O38. -/
theorem planAssignments : Obligations.PlanAssignments := by
  intro s tag plan switch slots hfree
  have harm : exec (.planAssign tag plan switch slots) s = officeRequest 0x08 tag (takePlanAssign plan switch slots) s := rfl
  have hdecides := assignRefusal_decides plan switch slots s
  have hsame : assignRefusal plan switch slots (hunting s) = assignRefusal plan switch slots s := rfl
  rw [harm]
  refine ⟨fun r hfails => ?_, fun hpasses => ?_⟩
  · exact officeRequest_acted (v := hunting s) tag hfree (by rw [takePlanAssign, hsame, hdecides.eq_some hfails]) (.refl _)
  · have hslots : slots.Nodup := by
      obtain ⟨-, -, hset, -⟩ := hpasses
      by_contra h
      exact hset (.inr (.inr h))
    obtain ⟨hexec, hreacts⟩ := officeRequest_reacts tag hfree
      (act := takePlanAssign plan switch slots) (by rw [takePlanAssign, hsame, hdecides.eq_none hpasses])
      (assignSlots_reacts hslots plan (assignsPending switch (hunting s)) switch (hunting s)) (.refl _)
    have hmode : (if assignsPending switch (hunting s) then Code.pending else Code.immediate)
        = if (switch.filter fun t => s.calendar.zoneTime < t).isSome then .pending else .immediate :=
      congrArg (fun b : Bool => if b then Code.pending else Code.immediate) (assignsPending_eq switch s)
    rw [hmode] at hexec
    simp only [assignFields_eq] at hreacts
    exact ⟨_, hexec, hreacts⟩

end Sys2Proof.Machine
end

section
/-!
PROOFS. CLOCK_SET (R5, R6): the switches that a jump of the clock takes slot by slot, the day roll it may take, and the order of its
effects.
-/

namespace Sys2Proof.Machine

open Sys2Proof

/-- Every record changes alike on both sides. -/
theorem Reacts.mapAll {u t : State} (g : Terminal → Terminal) (hg : ∀ x y, Served x y → Served (g x) (g y)) (h : Reacts u t) :
    Reacts (u.onTerminals (Table.mapAll g)) (t.onTerminals (Table.mapAll g)) := by
  have find (s : State) (k : Nat) : terminal (s.onTerminals (Table.mapAll g)) k = (terminal s k).map g := Table.find?_mapAll k g _
  obtain ⟨told, hj, hlen, hcov, hflag, hshown⟩ := h.told
  exact
    { keeps := fun b hb => by
        have := h.keeps b hb
        cases b <;> first | exact this | exact absurd (by decide) hb
      slots := fun k => by rw [find, find, Option.isSome_map, Option.isSome_map, h.slots]
      terminals := fun k x y hx hy => by
        rw [find] at hx hy
        obtain ⟨a, ha, rfl⟩ := Option.map_eq_some_iff.mp hx
        obtain ⟨b, hb, rfl⟩ := Option.map_eq_some_iff.mp hy
        exact hg _ _ (h.terminals k a b ha hb)
      groups := h.groups
      told := ⟨told, hj.trans (tells_congr (u := u) (v := u.onTerminals (Table.mapAll g)) _ told rfl rfl rfl).symm, hlen, hcov, hflag,
        fun hne => (shown_iff _).mpr ((shown_iff t).mp (hshown hne))⟩
      events := h.events
      stands := h.stands
      conditions := h.conditions
      mask := h.mask }

/-! ### Switches (R30) -/

/-- PLAN_SWITCHED is set where a switch was taken. -/
def switchMarked (taken : Bool) (s : State) : State :=
  { s with
    attention := { s.attention with flags := { s.attention.flags with planSwitched := s.attention.flags.planSwitched || taken } } }

theorem onTerminal_unchanged {slot : Nat} {f : Terminal → Terminal} {s : State} (hwf : Table.wf s.terminals = true)
    (hf : ∀ x, terminal s slot = some x → f x = x) : onTerminal slot f s = s := by
  have hid : onTerminal slot id s = s := by
    rw [onTerminal, State.onTerminals, Table.modify]
    simp
  conv => rhs; rw [← hid]
  exact onTerminal_eq hwf hf

/-- One slot's switch-time arrival. -/
theorem takeSwitch_eq {slot : Nat} {s : State} {x : Terminal} (hwf : Table.wf s.terminals = true) (hx : terminal s slot = some x) :
    takeSwitch slot s
      = switchMarked (decide (SwitchDue s.calendar.zoneTime x)) (onTerminal slot (Terminal.switched s.calendar.zoneTime) s) := by
  by_cases hdue : SwitchDue s.calendar.zoneTime x
  · obtain ⟨p, hp, hle⟩ := hdue
    have hsame : onTerminal slot (Terminal.switched s.calendar.zoneTime) s
        = onTerminal slot (fun t => { t with plans := { current := some p.1, pending := none } }) s := by
      refine onTerminal_eq hwf fun y hy => ?_
      obtain rfl : x = y := Option.some.inj (hx.symm.trans hy)
      rw [Terminal.switched, hp]
      exact if_pos hle
    rw [takeSwitch_due hx hp hle, hsame, decide_eq_true ⟨p, hp, hle⟩, switchMarked, Bool.or_true]
    rfl
  · have hsame : onTerminal slot (Terminal.switched s.calendar.zoneTime) s = s := by
      refine onTerminal_unchanged hwf fun y hy => ?_
      obtain rfl : x = y := Option.some.inj (hx.symm.trans hy)
      rw [Terminal.switched]
      split
      · next p switch hp => exact if_neg fun hle => hdue ⟨_, hp, hle⟩
      · rfl
    rw [hsame, decide_eq_false hdue, switchMarked, Bool.or_false, takeSwitch, hx]
    dsimp only
    split
    · next p switch hp => exact if_neg fun hle => hdue ⟨_, hp, hle⟩
    · rfl

/-- A mark of the attention flags: nothing where it is false, and beside the terminal table and the Calendar. -/
structure Marking (mark : Bool → State → State) : Prop where
  none : ∀ s, mark false s = s
  join : ∀ a b s, mark a (mark b s) = mark (b || a) s
  beside : ∀ (a : Bool) (F : Table Terminal → Table Terminal) s, (mark a s).onTerminals F = mark a (s.onTerminals F)
  terminals : ∀ a s, (mark a s).terminals = s.terminals
  calendar : ∀ a s, (mark a s).calendar = s.calendar

/-- An action on a run of slots that changes each slot's record by `g` and marks where `due` says so. -/
theorem foldl_marking {mark : Bool → State → State} (hmark : Marking mark) {f : Nat → State → State} {g : Terminal → Terminal}
    {due : Terminal → Bool} (c : Calendar)
    (hf : ∀ (k : Nat) (u : State) (x : Terminal), u.calendar = c → Table.wf u.terminals = true → terminal u k = some x →
      f k u = mark (due x) (onTerminal k g u))
    (part : Table Terminal) (hnodup : (Table.keys part).Nodup) (s : State) (hc : s.calendar = c) (hwf : Table.wf s.terminals = true)
    (hfind : ∀ e ∈ part, terminal s e.1 = some e.2) :
    (Table.keys part).foldl (fun u k => f k u) s = mark (part.any fun e => due e.2) (onSlots (Table.keys part) g s) := by
  induction part generalizing s with
  | nil =>
    rw [← foldl_onTerminal _ hnodup, List.any_nil, hmark.none]
    rfl
  | cons e rest ih =>
    obtain ⟨hnew, hrest⟩ := List.nodup_cons.mp hnodup
    have hstep := hf e.1 s e.2 hc hwf (hfind e List.mem_cons_self)
    have hlater : ∀ a ∈ rest, terminal (f e.1 s) a.1 = some a.2 := by
      intro a ha
      have hne : e.1 ≠ a.1 := fun heq => hnew (heq ▸ List.mem_map_of_mem (f := Prod.fst) ha)
      rw [hstep, terminal, hmark.terminals]
      exact (Table.find?_modify_ne hne g s.terminals).trans (hfind a (List.mem_cons_of_mem _ ha))
    have hwf' : Table.wf (f e.1 s).terminals = true := by
      rw [hstep, hmark.terminals]
      exact wf_onTerminal e.1 _ hwf
    have hc' : (f e.1 s).calendar = c := by
      rw [hstep, hmark.calendar]
      exact hc
    have honce : onSlots (Table.keys (e :: rest)) g s = onSlots (Table.keys rest) g (onTerminal e.1 g s) := by
      rw [← foldl_onTerminal _ hnodup, ← foldl_onTerminal _ (slots := Table.keys rest) hrest]
      rfl
    rw [honce, List.any_cons, ← hmark.join, onSlots, ← hmark.beside, ← hstep]
    exact ih hrest _ hc' hwf' hlater

theorem forEachSlot_marking {mark : Bool → State → State} (hmark : Marking mark) {f : Nat → State → State} {g : Terminal → Terminal}
    {due : Terminal → Bool} {s : State} (hwf : Table.wf s.terminals = true)
    (hf : ∀ (k : Nat) (u : State) (x : Terminal), u.calendar = s.calendar → Table.wf u.terminals = true → terminal u k = some x →
      f k u = mark (due x) (onTerminal k g u)) :
    forEachSlot f s = mark (s.terminals.any fun e => due e.2) (s.onTerminals (Table.mapAll g)) := by
  rw [forEachSlot, foldl_marking hmark s.calendar hf s.terminals (keys_nodup hwf) s rfl hwf fun e he => Table.find?_of_mem hwf he,
    onSlots_keys]

theorem switchMarked_marking : Marking switchMarked where
  none s := by rw [switchMarked, Bool.or_false]
  join a b s := by simp only [switchMarked, Bool.or_assoc]
  beside _ _ _ := rfl
  terminals _ _ := rfl
  calendar _ _ := rfl

/-- Every due switch is taken. -/
theorem forEachSlot_takeSwitch {s : State} (hwf : Table.wf s.terminals = true) :
    forEachSlot takeSwitch s
      = switchMarked (s.terminals.any fun e => decide (SwitchDue s.calendar.zoneTime e.2))
          (s.onTerminals (Table.mapAll (Terminal.switched s.calendar.zoneTime))) :=
  forEachSlot_marking (due := fun x => decide (SwitchDue s.calendar.zoneTime x)) switchMarked_marking hwf fun k u x hc hw hx => by
    rw [takeSwitch_eq hw hx, hc]

/-! ### The jump (R6) -/

/-- The clock values, the last-rolled date with its day roll, and the switches: what a jump leaves before the segments are found. -/
def jumpRolled (time : Nat) (offset : Int) (s : State) : State :=
  rollAfterSet (forEachSlot takeSwitch (s.onCalendar fun c => { c with zoneTime := time, offset := offset, clockSet := true }))

theorem timed_congr {c d : Calendar} (ht : c.zoneTime = d.zoneTime) (ho : c.offset = d.offset) (hs : c.clockSet = d.clockSet) :
    Terminal.timed c = Terminal.timed d := by
  funext x
  rw [Terminal.timed, Terminal.timed, ht, ho, hs]

theorem dayRoll_eq {s : State} (hwf : Table.wf s.terminals = true) :
    dayRoll s
      = { s with
          calendar :=
            { s.calendar with
              lastRolled := some (today s), holidays := s.calendar.holidays.filter fun d => today s ≤ d }
          permits := s.permits.map fun e => (e.1, { e.2 with consumed := 0 })
          terminals := Table.mapAll (Terminal.timed s.calendar) s.terminals } := by
  rw [dayRoll, timeForAll_eq (by exact hwf)]
  have := timed_congr (c := { s.calendar with
    lastRolled := some (today s), holidays := s.calendar.holidays.filter fun d => today s ≤ d }) (d := s.calendar) rfl rfl rfl
  rw [← this]
  rfl

theorem mapAll_same (t : Table Terminal) : Table.mapAll (fun x => x) t = t := by
  rw [Table.mapAll]
  exact List.map_id _

/-- A day roll is taken after a set: the present local day is past the last-rolled date (R6). -/
def rolls (s : State) : Bool := decide (∃ d ∈ s.calendar.lastRolled, d < today s)

/-- The last-rolled date after a set, with the day roll where one is taken (R6). -/
theorem rollAfterSet_eq {s : State} (hwf : Table.wf s.terminals = true) :
    rollAfterSet s
      = { s with
          calendar :=
            { s.calendar with
              lastRolled := some (max (today s) (s.calendar.lastRolled.getD 0))
              holidays := if rolls s then s.calendar.holidays.filter fun d => today s ≤ d else s.calendar.holidays }
          permits := if rolls s then s.permits.map fun e => (e.1, { e.2 with consumed := 0 }) else s.permits
          terminals := Table.mapAll (fun x => if rolls s then Terminal.timed s.calendar x else x) s.terminals } := by
  rw [rollAfterSet]
  cases hlast : s.calendar.lastRolled with
  | none =>
    have hno : rolls s = false := by
      rw [rolls, hlast]
      exact decide_eq_false (by rintro ⟨d, hd, -⟩; cases hd)
    simp only [hno, Bool.false_eq_true, if_false, mapAll_same, Option.getD_none, Nat.max_zero]
    rfl
  | some d =>
    dsimp only
    by_cases hbefore : d < today s
    · have hyes : rolls s = true := by
        rw [rolls, hlast]
        exact decide_eq_true ⟨d, rfl, hbefore⟩
      simp only [hyes, if_true, Option.getD_some, Nat.max_eq_left (Nat.le_of_lt hbefore)]
      rw [if_pos hbefore, dayRoll_eq hwf]
    · have hno : rolls s = false := by
        rw [rolls, hlast]
        refine decide_eq_false ?_
        rintro ⟨b, hb, hlt⟩
        cases hb
        exact hbefore hlt
      simp only [hno, Bool.false_eq_true, if_false, mapAll_same, Option.getD_some, Nat.max_eq_right (Nat.not_lt.mp hbefore)]
      rw [if_neg hbefore, ← hlast]

/-- The local day that a jump comes to. -/
def jumpDay (time : Nat) (offset : Int) : Nat := (((time : Int) + 60 * offset).tdiv 86400).toNat

/-- A day roll is taken by the jump (R6). -/
def jumpRolls (time : Nat) (offset : Int) (s : State) : Bool := decide (∃ d ∈ s.calendar.lastRolled, d < jumpDay time offset)

/-- The Calendar's values after a jump. -/
def jumpCalendar (time : Nat) (offset : Int) (s : State) : Calendar :=
  { s.calendar with
    zoneTime := time, offset := offset, clockSet := true
    lastRolled := some (max (jumpDay time offset) (s.calendar.lastRolled.getD 0))
    holidays :=
      if jumpRolls time offset s then s.calendar.holidays.filter fun d => jumpDay time offset ≤ d else s.calendar.holidays }

/-- A record before its segment is found in a jump. -/
def jumpPlans (time : Nat) (offset : Int) (s : State) (x : Terminal) : Terminal :=
  if jumpRolls time offset s then Terminal.timed (jumpCalendar time offset s) (x.switched time) else x.switched time

theorem jumpRolled_eq {s : State} (time : Nat) (offset : Int) (hwf : Table.wf s.terminals = true) :
    jumpRolled time offset s
      = { s with
          calendar := jumpCalendar time offset s
          terminals := Table.mapAll (jumpPlans time offset s) s.terminals
          permits := if jumpRolls time offset s then s.permits.map fun e => (e.1, { e.2 with consumed := 0 }) else s.permits
          attention :=
            { s.attention with
              flags :=
                { s.attention.flags with
                  planSwitched := s.attention.flags.planSwitched || s.terminals.any fun e => decide (SwitchDue time e.2) } } } := by
  have hset := forEachSlot_takeSwitch
    (s := s.onCalendar fun c => { c with zoneTime := time, offset := offset, clockSet := true }) hwf
  rw [jumpRolled, hset, rollAfterSet_eq (by exact Table.wf_mapAll _ _ hwf)]
  simp only [switchMarked, State.onTerminals, State.onCalendar, Table.mapAll, List.map_map]
  rfl

/-- A jump but for the deadline it delivers (R6). -/
def jumpSettled (time : Nat) (offset : Int) (s : State) : State :=
  minuteRoll (timeForAll (deriveAll (refindAll (jumpRolled time offset s))))

theorem setClock_eq (time : Nat) (offset : Int) (s : State) : setClock time offset s = deliverIfDue (jumpSettled time offset s) := rfl

theorem jumpPlans_plans (time : Nat) (offset : Int) (s : State) (x : Terminal) :
    (jumpPlans time offset s x).plans = (x.switched time).plans := by
  rw [jumpPlans]
  split
  · rw [Terminal.timed]
    split
    · rfl
    · split <;> rfl
  · rfl

/-- What a jump leaves, as the findings and the TIME notices make it. -/
theorem jumped_eq {s : State} (time : Nat) (offset : Int) (hwf : Table.wf s.terminals = true) :
    (((jumpRolled time offset s).onTerminals (Table.mapAll fun y =>
          y.bounded (jumpRolled time offset s).calendar.zoneTime (segmentNow (jumpRolled time offset s) y.plans))).onTerminals
        (Table.mapAll (Terminal.timed (jumpCalendar time offset s)))).onSales
          (fun q => { q with live := pruneTickets time q.grace q.live })
      = jumped time offset s := by
  have hrolled := jumpRolled_eq time offset hwf
  have hsegment (f : PlanFields) :
      segmentNow (jumpRolled time offset s) f = segmentNow { s with calendar := jumpCalendar time offset s } f :=
    segmentNow_congr (by rw [hrolled]) (by rw [hrolled]) f
  simp only [hsegment]
  rw [hrolled]
  simp only [State.onTerminals, State.onSales, Table.mapAll, List.map_map, Function.comp_def, jumpPlans_plans]
  rfl

/-- The jump's segments, services, covers, TIME notices and minute roll (R6). -/
theorem jumpSettled_reacts {s : State} (time : Nat) (offset : Int) (hwf : Table.wf s.terminals = true) :
    Reacts (jumped time offset s) (jumpSettled time offset s) := by
  have hrolled := jumpRolled_eq time offset hwf
  have hwf1 : Table.wf (jumpRolled time offset s).terminals = true := by
    rw [hrolled]
    exact Table.wf_mapAll _ _ hwf
  have hderives : Derives Placed (jumpRolled time offset s) (deriveAll (refindAll (jumpRolled time offset s))) :=
    (refindAll_derives _).trans (deriveAll_derives _).placed
  have hwf2 : Table.wf (deriveAll (refindAll (jumpRolled time offset s))).terminals = true := by
    rw [Table.wf_iff] at hwf1 ⊢
    rwa [hderives.keys]
  have hcalendar : (deriveAll (refindAll (jumpRolled time offset s))).calendar = jumpCalendar time offset s := by
    rw [hderives.calendar, hrolled]
  have hplaced := (refindAll_reacts hwf1).trans (deriveAll_reacts _)
  have htimed := (hplaced.mapAll (Terminal.timed (jumpCalendar time offset s)) fun x y h => h.timed _).onSales
    fun q => { q with live := pruneTickets time q.grace q.live }
  rw [jumpSettled, timeForAll_eq hwf2, minuteRoll, State.onTerminals_calendar, hcalendar, ← jumped_eq time offset hwf]
  exact htimed

/-- A deadline that is due is delivered, and none else. -/
theorem deliverIfDue_delivers {v : State} (hgroups : Table.keys v.groups = groupNumbers) :
    ((∀ d ∈ v.calendar.deadline, v.calendar.zoneTime < d) → deliverIfDue v = v)
      ∧ ((∃ d ∈ v.calendar.deadline, d ≤ v.calendar.zoneTime) → DeadlineDelivered v (deliverIfDue v)) := by
  refine ⟨fun hlater => if_neg ?_, fun hdue => ?_⟩
  · rw [deadlineDue_iff]
    rintro ⟨d, hd, hle⟩
    exact Nat.not_le.mpr (hlater d hd) hle
  · rw [deliverIfDue, if_pos ((deadlineDue_iff v).mpr hdue)]
    exact deliverDeadline_delivers hgroups

/-- The whole of a CLOCK_SET that is taken (R6): the jump, and last a deadline that is due. -/
theorem setClock_jumps {s : State} (time : Nat) (offset : Int) (hwf : Table.wf s.terminals = true)
    (hgroups : Table.keys s.groups = groupNumbers) :
    ∃ v : State,
      Reacts (jumped time offset s) v
        ∧ ((∀ d ∈ s.calendar.deadline, time < d) → setClock time offset s = v)
        ∧ ((∃ d ∈ s.calendar.deadline, d ≤ time) → DeadlineDelivered v (setClock time offset s)) := by
  have hreacts := jumpSettled_reacts time offset hwf
  rw [setClock_eq]
  generalize jumpSettled time offset s = v at hreacts
  have hkeys : Table.keys v.groups = groupNumbers := hreacts.groups.trans hgroups
  have htime : v.calendar.zoneTime = time := congrArg Calendar.zoneTime hreacts.calendar
  have hdeadline : v.calendar.deadline = s.calendar.deadline := (congrArg Calendar.deadline hreacts.calendar).trans rfl
  have hdelivers := deliverIfDue_delivers hkeys
  rw [hdeadline, htime] at hdelivers
  exact ⟨v, hreacts, hdelivers⟩

theorem DeadlineDelivered.portsOf {u v : State} (s : State) (h : DeadlineDelivered u v) :
    DeadlineDelivered (portsOf s u) (portsOf s v) := by
  unfold DeadlineDelivered at h ⊢
  rw [show (Machine.portsOf s u).cash = u.cash from rfl]
  cases hr : u.cash.round with
  | none =>
    rw [hr] at h
    dsimp only at h ⊢
    rw [h]
    rfl
  | some r =>
    rw [hr] at h
    dsimp only at h ⊢
    rw [← portsOf_roundClosed]
    exact h.portsOf s

theorem DeadlineDelivered.samePorts {u v : State} (h : DeadlineDelivered u v) : SamePorts u v := by
  unfold DeadlineDelivered at h
  cases hr : u.cash.round with
  | none =>
    rw [hr] at h
    dsimp only at h
    rw [h]
    exact .refl u
  | some r =>
    rw [hr] at h
    exact (roundClosed_samePorts r u).trans h.samePorts

/-! ### CLOCK_SET (R5, R175) -/

/-- What a CLOCK_SET is refused with. -/
def clockSetRefusal (src : Source) (time : Nat) (offset : Int) (s : State) : Option Response :=
  if isHandheld src = true ∧ s.calendar.clockSet = true then some (refused .clockHeld)
  else (clockRefusal time offset).map refused

theorem clockSetRefusal_decides (src : Source) (time : Nat) (offset : Int) (s : State) :
    Decides (clockChecks src time offset s) (clockSetRefusal src time offset s) := by
  have hoffset : (offset < -840 ∨ 840 < offset ∨ ¬(15 : Int) ∣ offset) ↔ (offset < -840 ∨ 840 < offset ∨ offset % 15 ≠ 0) := by
    rw [Int.dvd_iff_emod_eq_zero]
  refine .cons Iff.rfl fun _ => ?_
  rw [clockRefusal, apply_ite (Option.map _), apply_ite (Option.map _)]
  exact .cons Iff.rfl fun _ => .cons hoffset fun _ => .nil

theorem rollsAtSet_eq (time : Nat) (offset : Int) (s : State) : rollsAtSet time offset s = jumpRolls time offset s := by
  rw [rollsAtSet, jumpRolls]
  cases s.calendar.lastRolled with
  | none => rfl
  | some d =>
    rw [Option.map_some, Option.getD_some]
    exact decide_eq_decide.mpr ⟨fun h => ⟨d, rfl, h⟩, fun ⟨b, hb, h⟩ => by cases hb; exact h⟩

theorem takeClockSet_eq (src : Source) (time : Nat) (offset : Int) (s : State) :
    actOf src (takeClockSet time offset) (engineerClockSet time offset) (sourceHunts src s)
      = (clockSetRefusal src time offset s).elim
          (setClock time offset (sourceHunts src s),
            accepted (.clockWas s.calendar.zoneTime time (jumpDay time offset) (jumpRolls time offset s)))
          fun r => (sourceHunts src s, r) := by
  have htaken (u : State) (hu : u.calendar = s.calendar) : takeClockSet time offset u
      = ((clockRefusal time offset).map refused).elim
          (setClock time offset u,
            accepted (.clockWas s.calendar.zoneTime time (jumpDay time offset) (jumpRolls time offset s))) fun r => (u, r) := by
    have hrolls : rollsAtSet time offset u = jumpRolls time offset s := by rw [rollsAtSet_eq, jumpRolls, jumpRolls, hu]
    rw [takeClockSet, hrolls, hu]
    cases clockRefusal time offset <;> rfl
  cases src with
  | office tag =>
    have hpass : clockSetRefusal (.office tag) time offset s = (clockRefusal time offset).map refused := if_neg fun h => by cases h.1
    rw [hpass]
    exact htaken (hunting s) rfl
  | handheld identity tag =>
    rw [clockSetRefusal]
    show engineerClockSet time offset (serviceHunting s) = _
    rw [engineerClockSet, show (serviceHunting s).calendar = s.calendar from rfl]
    cases s.calendar.clockSet with
    | true => rfl
    | false => exact htaken (serviceHunting s) rfl

/-- Settles O32. -/
theorem clockSetJumps : Obligations.ClockSetJumps := by
  intro src time offset s hfree
  have harm : exec (.clockSet src time offset) s
      = eitherPort src 0x01 (takeClockSet time offset) (engineerClockSet time offset) s := rfl
  obtain ⟨hrefuses, htakes⟩ := eitherPort_decided (kind := 0x01) hfree (by decide) (clockSetRefusal_decides src time offset s)
    (takeClockSet_eq src time offset s)
  rw [harm]
  refine ⟨hrefuses, fun hpasses htables => ?_⟩
  obtain ⟨hwf, -, -, -, hgroups⟩ := htables
  have hact := htakes hpasses
  have hsame : portsOf s (jumped time offset (sourceHunts src s)) = jumped time offset s := by cases src <;> rfl
  obtain ⟨v, hreacts, hnone, hdue⟩ := setClock_jumps (s := sourceHunts src s) time offset (by cases src <;> exact hwf)
    (by cases src <;> exact hgroups)
  rw [show (sourceHunts src s).calendar = s.calendar by cases src <;> rfl] at hnone hdue
  have hports : SamePorts (sourceHunts src s) v := (show SamePorts (sourceHunts src s) (jumped time offset (sourceHunts src s)) from
    ⟨rfl, rfl⟩).trans hreacts.samePorts
  have hjumped := hreacts.portsOf s
  rw [hsame] at hjumped
  generalize setClock time offset (sourceHunts src s) = u at hact hnone hdue
  have hall : SamePorts (sourceHunts src s) u := by
    by_cases hd : ∃ d ∈ s.calendar.deadline, d ≤ time
    · exact hports.trans (hdue hd).samePorts
    · rw [hnone fun d hmem => Nat.not_le.mp fun hle => hd ⟨d, hmem, hle⟩]
      exact hports
  exact ⟨portsOf s v, portsOf s u, eitherPort_acted hfree (by decide) hact hall, hjumped,
    fun hlater => congrArg (portsOf s) (hnone hlater), fun hd => (hdue hd).portsOf s⟩

end Sys2Proof.Machine
end

section
/-!
PROOFS. TERMINAL_PUT (R163, R164) and TERMINAL_REMOVE (R113).
-/

namespace Sys2Proof.Machine

open Sys2Proof

/-! ### The checks -/

theorem groupNumber_not (g : Nat) : (!groupNumber g) = true ↔ g < 1 ∨ 12 < g := by
  rw [Bool.not_eq_true', groupNumber_eq_false]

theorem badTerminalField_decides (c : TerminalConfig) :
    Decides
      [(c.identity < 1 ∨ 2 ^ 48 ≤ c.identity, refusedAt .badTerminal 1), (c.group < 1 ∨ 12 < c.group, refusedAt .badTerminal 2),
        (c.capacity < 100 ∨ 5000 < c.capacity, refusedAt .badTerminal 3),
        (c.threshold < 10 ∨ 100 < c.threshold, refusedAt .badTerminal 4)]
      ((badTerminalField c).map (refusedAt .badTerminal)) := by
  unfold badTerminalField
  simp only [apply_ite (Option.map (refusedAt .badTerminal))]
  exact .cons Iff.rfl fun _ => .cons (groupNumber_not _).symm fun _ => .cons Iff.rfl fun _ => .cons Iff.rfl fun _ => .nil

/-- What a slot's own record refuses in a TERMINAL_PUT (R163). -/
def recordRefusal (slot : Nat) (c : TerminalConfig) (s : State) : Option Response :=
  if ∃ t ∈ terminal s slot, c.identity ≠ t.config.identity ∧ t.link.state ≠ .absent ∧ t.link.state ≠ .lost then
    some (refused .slotInUse)
  else if ∃ t ∈ terminal s slot, c.capacity < t.cash.tally.total then some (refused .belowTally)
  else none

theorem terminalRefusal_eq (slot : Nat) (c : TerminalConfig) (s : State) :
    terminalRefusal slot c s
      = (if (!slotNumber slot) = true then some (refused .badSlot) else (badTerminalField c).map (refusedAt .badTerminal)).or
          (((identityElsewhere slot c.identity s).map (refusedAt .duplicateIdentity)).or (recordRefusal slot c s)) := by
  unfold terminalRefusal recordRefusal
  by_cases hslot : (!slotNumber slot) = true
  · rw [if_pos hslot, if_pos hslot]
    rfl
  · rw [if_neg hslot, if_neg hslot]
    cases badTerminalField c with
    | some field => rfl
    | none =>
      cases identityElsewhere slot c.identity s with
      | some other => rfl
      | none =>
        cases terminal s slot with
        | none => simp
        | some t => simp [refused, refusal]

theorem terminalRefusal_decides (slot : Nat) (c : TerminalConfig) (s : State) :
    Decides (terminalPutChecks slot c s) (terminalRefusal slot c s) := by
  rw [terminalRefusal_eq, terminalPutChecks, List.append_assoc]
  refine .append (.cons (slotNumber_not slot).symm fun _ => badTerminalField_decides c) fun _ => .append ?_ fun _ =>
    .cons Iff.rfl fun _ => .cons Iff.rfl fun _ => .nil
  rw [identityElsewhere, Option.map_map]
  refine decides_map (answer := fun e : Nat × Terminal => refusedAt .duplicateIdentity e.1) (fun e => ?_) s.terminals
  rw [Bool.and_eq_true, decide_eq_true_eq, decide_eq_true_eq]

/-- What a TERMINAL_REMOVE is refused with on a slot that is configured (R113). -/
def removeRefusal (slot : Nat) (t : Terminal) (s : State) : Option Response :=
  if (!slotNumber slot) = true then some (refused .badSlot)
  else if t.cash.tally ≠ .zero then some { code := .tallyOutstanding, body := .tally t.cash.tally }
  else if inRound slot s = true then some (refused .inRound)
  else if t.quote ≠ .none then some (refused .quoteInProgress)
  else none

theorem inRound_iff (slot : Nat) (s : State) : inRound slot s = true ↔ ∃ r ∈ s.cash.round, slot ∈ r.entries.map (·.slot) := by
  rw [inRound]
  cases s.cash.round with
  | none => simp
  | some r => simp [roundEntry]

theorem removeRefusal_decides (slot : Nat) (t : Terminal) (s : State) :
    Decides (terminalRemoveChecks slot t s) (removeRefusal slot t s) :=
  .cons (slotNumber_not slot).symm fun _ => .cons Iff.rfl fun _ => .cons (inRound_iff slot s).symm fun _ => .cons Iff.rfl fun _ => .nil

theorem takeTerminalRemove_eq {slot : Nat} {s : State} {t : Terminal} (ht : terminal s slot = some t) :
    takeTerminalRemove slot (hunting s)
      = (removeRefusal slot t s).elim
          (removeSlot slot t (hunting s), accepted (.removed t.cash.accepted t.cash.collected t.cash.cardTotal))
          fun r => (hunting s, r) := by
  unfold takeTerminalRemove removeRefusal
  rw [show terminal (hunting s) slot = some t from ht, show inRound slot (hunting s) = inRound slot s from rfl]
  dsimp only
  by_cases hslot : (!slotNumber slot) = true
  · rw [if_pos hslot, if_pos hslot]
    rfl
  · rw [if_neg hslot, if_neg hslot]
    by_cases htally : t.cash.tally ≠ .zero
    · rw [if_pos htally, if_pos htally]
      rfl
    · rw [if_neg htally, if_neg htally]
      by_cases hround : inRound slot s = true
      · rw [if_pos hround, if_pos hround]
        rfl
      · rw [if_neg hround, if_neg hround]
        by_cases hquote : t.quote ≠ .none
        · rw [if_pos hquote, if_pos hquote]
          rfl
        · rw [if_neg hquote, if_neg hquote]
          rfl

/-! ### What a TERMINAL_PUT does -/

/-- BOX_FULL is reported as the tally finds it (R97). -/
theorem evaluateBox_reacts {slot : Nat} {s : State} {x : Terminal} (hx : terminal s slot = some x) :
    Reacts (reportFault slot .boxFull (boxFull x) s) (evaluateBox slot s) := by
  rw [evaluateBox, hx]
  exact reportCondition_reacts slot .boxFull (boxFull x) s

/-- A configured slot's record takes its new settings; under a new identity it is ABSENT (R164). -/
def Terminal.reconfigured (c : TerminalConfig) (identity : Nat) (y : Terminal) : Terminal :=
  let y := { y with config := c }
  if c.identity = identity then y else { y with link := { y.link with state := .absent, level := none, caps := none } }

/-- The settings and the identity of a TERMINAL_PUT, with the covers of the groups it moves between (R164). -/
theorem updateSlot_reacts {slot : Nat} {s : State} {x : Terminal} (c : TerminalConfig) (hx : terminal s slot = some x) :
    Reacts
      (let v := onTerminal slot (Terminal.reconfigured c x.config.identity) s
       if c.capacity = x.config.capacity then v else reportFault slot .boxFull (decide (c.capacity ≤ x.cash.tally.total)) v)
      (updateSlot slot c x s) := by
  have hidentity : Reacts (onTerminal slot (Terminal.reconfigured c x.config.identity) s)
      (if c.identity = x.config.identity then onTerminal slot (fun t => { t with config := c }) s
        else newIdentity slot (onTerminal slot (fun t => { t with config := c }) s)) := by
    by_cases hsame : c.identity = x.config.identity
    · have hsettings : onTerminal slot (Terminal.reconfigured c x.config.identity) s
          = onTerminal slot (fun t => { t with config := c }) s :=
        congrArg (onTerminal slot · s) (funext fun y => if_pos hsame)
      rw [if_pos hsame, hsettings]
      exact .refl _
    · have hfresh : onTerminal slot (Terminal.reconfigured c x.config.identity) s
          = onLink slot (fun l => { l with state := .absent, level := none, caps := none })
              (onTerminal slot (fun t => { t with config := c }) s) := by
        rw [onLink, onTerminal_onTerminal]
        exact congrArg (onTerminal slot · s) (funext fun y => if_neg hsame)
      rw [if_neg hsame, hfresh]
      exact deriveService_reacts slot _
  unfold updateSlot
  dsimp only
  generalize (if c.identity = x.config.identity then onTerminal slot (fun t => { t with config := c }) s
        else newIdentity slot (onTerminal slot (fun t => { t with config := c }) s)) = u at hidentity
  have hgroup : Reacts (onTerminal slot (Terminal.reconfigured c x.config.identity) s)
      (if c.group = x.config.group then u else cover c.group (cover x.config.group u)) := by
    split
    · exact hidentity
    · exact hidentity.trans ((cover_reacts _ _).trans (cover_reacts _ _))
  generalize (if c.group = x.config.group then u else cover c.group (cover x.config.group u)) = w at hgroup
  by_cases hcapacity : c.capacity = x.config.capacity
  · rw [if_pos hcapacity, if_pos hcapacity]
    exact hgroup
  · rw [if_neg hcapacity, if_neg hcapacity]
    obtain ⟨hnone, -⟩ | ⟨a, b, ha, hb, hab⟩ := hgroup.slot_cases slot
    · rw [terminal_onTerminal_self hx] at hnone
      cases hnone
    · have hbox : boxFull b = decide (c.capacity ≤ x.cash.tally.total) := by
        have hbare := congrArg (fun z : Terminal => boxFull z) hab.rest
        rw [terminal_onTerminal_self hx] at ha
        obtain rfl := Option.some.inj ha
        refine hbare.trans ?_
        rw [Terminal.reconfigured]
        split <;> rfl
      rw [← hbox]
      exact (hgroup.reportFault slot .boxFull (boxFull b)).trans (evaluateBox_reacts hb)

/-- Settles O40. -/
theorem terminalTableChanges : Obligations.TerminalTableChanges := by
  intro s tag slot hfree
  refine ⟨fun identity group capacity threshold => ?_, fun habsent r hfails => ?_, fun x hx => ⟨fun r hfails => ?_, fun hpasses => ?_⟩⟩
  · intro c command now
    have harm : exec command s = officeRequest 0x0D tag (takeTerminalPut slot c) s := rfl
    have hdecides := terminalRefusal_decides slot c s
    have hsame : terminalRefusal slot c (hunting s) = terminalRefusal slot c s := rfl
    rw [harm]
    refine ⟨fun r hfails => ?_, fun hpasses habsent => ?_, fun hpasses x hx => ?_⟩
    · exact officeRequest_acted (v := hunting s) tag hfree (by rw [takeTerminalPut, hsame, hdecides.eq_some hfails]) (.refl _)
    · have hact : takeTerminalPut slot c (hunting s) = (configureSlot slot c (hunting s), okWith (.word .configured)) := by
        rw [takeTerminalPut, hsame, hdecides.eq_none hpasses, show terminal (hunting s) slot = none from habsent]
      obtain ⟨hexec, hreacts⟩ := officeRequest_reacts tag hfree hact (cover_reacts c.group _) ⟨rfl, rfl⟩
      exact ⟨_, hexec, hreacts⟩
    · have hact : takeTerminalPut slot c (hunting s) = (updateSlot slot c x (hunting s), okWith (.word .updated)) := by
        rw [takeTerminalPut, hsame, hdecides.eq_none hpasses, show terminal (hunting s) slot = some x from hx]
      obtain ⟨hexec, hreacts⟩ := officeRequest_reacts tag hfree hact (updateSlot_reacts (s := hunting s) c hx) (by
        dsimp only
        split
        · exact ⟨rfl, rfl⟩
        · exact SamePorts.trans ⟨rfl, rfl⟩ (reportFault_samePorts _ _ _ _))
      rw [apply_ite (portsOf s), portsOf_reportFault] at hreacts
      exact ⟨_, hexec, hreacts⟩
  all_goals
    have harm : exec (.terminalRemove tag slot) s = officeRequest 0x0E tag (takeTerminalRemove slot) s := rfl
    rw [harm]
  · have hact : takeTerminalRemove slot (hunting s) = (hunting s, r) := by
      have hrefused := (slotRefusal_decides slot s).eq_some hfails
      rw [slotRefusal, habsent] at hrefused
      rw [takeTerminalRemove, show terminal (hunting s) slot = none from habsent]
      split at hrefused
      · next hslot =>
        rw [if_pos hslot, ← Option.some.inj hrefused]
        rfl
      · next hslot =>
        rw [if_neg hslot, ← Option.some.inj hrefused]
        rfl
    exact officeRequest_acted (v := hunting s) tag hfree hact (.refl _)
  · have hact : takeTerminalRemove slot (hunting s) = (hunting s, r) := by
      rw [takeTerminalRemove_eq hx, (removeRefusal_decides slot x s).eq_some hfails]
      rfl
    exact officeRequest_acted (v := hunting s) tag hfree hact (.refl _)
  · have hact : takeTerminalRemove slot (hunting s)
        = (removeSlot slot x (hunting s), accepted (.removed x.cash.accepted x.cash.collected x.cash.cardTotal)) := by
      rw [takeTerminalRemove_eq hx, (removeRefusal_decides slot x s).eq_none hpasses]
      rfl
    obtain ⟨hexec, hreacts⟩ := officeRequest_reacts tag hfree hact (cover_reacts x.config.group _) ⟨rfl, rfl⟩
    exact ⟨_, hexec, hreacts⟩

end Sys2Proof.Machine
end

section
/-!
PROOFS. The kerb line: how a cycle goes on (R135), misses and jabbers (R137, R145), OFFERs and GRANTs (R140 to R143).
-/

namespace Sys2Proof.Machine

open Sys2Proof

/-! ### The next call (R135) -/

theorem nextCalled_none {after : Nat} {kind : CallKind} {s : State} (hwf : Table.wf s.terminals = true) (h : NoneCalled after kind s) :
    nextCalled after kind s = none := by
  rw [nextCalled, Option.map_eq_none_iff, List.find?_eq_none]
  intro e he hcalled
  rw [Bool.and_eq_true, decide_eq_true_eq] at hcalled
  have := h e.1 e.2 hcalled.1 (Table.find?_of_mem hwf he)
  rw [hcalled.2] at this
  cases this

theorem nextCalled_some {after slot : Nat} {kind : CallKind} {s : State} {t : Terminal} (hwf : Table.wf s.terminals = true)
    (h : CalledNext after kind s slot t) : nextCalled after kind s = some slot := by
  obtain ⟨hafter, ht, hcalls, hbetween⟩ := h
  obtain ⟨before, rest, hsplit⟩ := List.append_of_mem (Table.mem_of_find? ht)
  have hascend : (Table.keys s.terminals).Pairwise (· < ·) := (Table.wf_iff _).mp hwf
  rw [hsplit, Table.keys, List.map_append, List.pairwise_append] at hascend
  have hfound : List.find? (fun e : Nat × Terminal => decide (after < e.1) && kind.calls e.2.link.state) s.terminals = some (slot, t) := by
    rw [List.find?_eq_some_iff_append]
    refine ⟨by rw [Bool.and_eq_true, decide_eq_true_eq]; exact ⟨hafter, hcalls⟩, before, rest, hsplit, fun e he => ?_⟩
    have hlt : e.1 < slot := hascend.2.2 e.1 (List.mem_map_of_mem (f := Prod.fst) he) slot List.mem_cons_self
    rw [Bool.not_eq_true', Bool.and_eq_false_iff]
    by_cases hle : after < e.1
    · refine .inr (hbetween e.1 e.2 hle hlt (Table.find?_of_mem hwf ?_))
      rw [hsplit]
      exact List.mem_append_left _ he
    · exact .inl (decide_eq_false hle)
  rw [nextCalled, hfound]
  rfl

/-- A call to a slot: the head of its queue rides, and the answer window opens (R135, R136, R151). -/
def callSent (slot : Nat) (kind : CallKind) (t : Terminal) (s : State) : State :=
  { s with
    line :=
      { s.line with
        mode := .window slot kind t.link.state (t.link.queue.head?.map (·.body))
        out := [.call slot kind (t.link.queue.head?.map (·.body))], ended := none }
    terminals := Table.modify slot (fun y => { y with link := { y.link with queue := markHead y.link.queue } }) s.terminals }

theorem sendCall_eq {slot : Nat} {s : State} {t : Terminal} (kind : CallKind) (ht : terminal s slot = some t) :
    sendCall slot kind (clearOut s) = callSent slot kind t s := by
  rw [sendCall, show terminal (clearOut s) slot = some t from ht]
  rfl

theorem normalPhase_calls {after slot : Nat} {s : State} {t : Terminal} (hwf : Table.wf s.terminals = true)
    (h : CalledNext after .normal s slot t) : normalPhase after (clearOut s) = callSent slot .normal t s := by
  rw [normalPhase, show nextCalled after .normal (clearOut s) = some slot from nextCalled_some hwf h]
  exact sendCall_eq .normal h.2.1

theorem normalPhase_passes {after : Nat} {s : State} (hwf : Table.wf s.terminals = true) (h : NoneCalled after .normal s) :
    normalPhase after (clearOut s) = slowPhase 0 (clearOut s) := by
  rw [normalPhase, show nextCalled after .normal (clearOut s) = none from nextCalled_none hwf h]

theorem slowPhase_calls {after slot : Nat} {s : State} {t : Terminal} (hwf : Table.wf s.terminals = true)
    (hcycle : s.line.cycle % 16 = 4) (h : CalledNext after .slow s slot t) :
    slowPhase after (clearOut s) = callSent slot .slow t s := by
  rw [slowPhase, if_pos (show (clearOut s).line.cycle % 16 = 4 from hcycle),
    show nextCalled after .slow (clearOut s) = some slot from nextCalled_some hwf h]
  exact sendCall_eq .slow h.2.1

theorem slowPhase_passes {after : Nat} {s : State} (hwf : Table.wf s.terminals = true)
    (h : s.line.cycle % 16 ≠ 4 ∨ NoneCalled after .slow s) : slowPhase after (clearOut s) = seekPhase (clearOut s) := by
  rw [slowPhase]
  split
  · next hcycle =>
    rcases h with hother | hnone
    · exact absurd hcycle hother
    · rw [show nextCalled after .slow (clearOut s) = none from nextCalled_none hwf hnone]
  · rfl

/-- Settles O47. -/
theorem cyclesGoOn : Obligations.CyclesGoOn := by
  intro s hwf call closing
  have hclosing : seekPhase (clearOut s) = closing := by
    by_cases hseek : s.line.cycle % 8 = 0
    · exact (if_pos hseek).trans (if_pos hseek).symm
    · exact (if_neg hseek).trans (if_neg hseek).symm
  refine ⟨fun slot n t => ⟨fun h => normalPhase_calls hwf h, fun hnone hcycle h => ?_, fun hcycle h => slowPhase_calls hwf hcycle h⟩,
    fun slot => ⟨fun hnone hslow => ?_, fun hslow => (slowPhase_passes hwf hslow).trans hclosing⟩,
    fun hrunning => ⟨fun hidle => ?_, fun hbusy => ?_, fun slot kind hquiet => ?_⟩⟩
  · exact (normalPhase_passes hwf hnone).trans (slowPhase_calls hwf hcycle h)
  · exact (normalPhase_passes hwf hnone).trans ((slowPhase_passes hwf hslow).trans hclosing)
  · have harm : exec .cycleStart s
        = .next (if s.line.mode = .idle then startCycle (nextCycle s.line.cycle) s else s) := whileRunning_running hrunning
    rw [harm, if_pos hidle]
    rfl
  · have harm : exec .cycleStart s
        = .next (if s.line.mode = .idle then startCycle (nextCycle s.line.cycle) s else s) := whileRunning_running hrunning
    rw [harm, if_neg hbusy]
  · have harm : exec .lineFallsQuiet s = .next (takeQuiet s) := whileRunning_running hrunning
    rw [harm, takeQuiet, hquiet]

/-! ### Misses and jabbers (R137, R145) -/

theorem Reacts.onLine {u t : State} (f : Line → Line) (h : Reacts u t) : Reacts (u.onLine f) (t.onLine f) := by
  have he : t.line = u.line := h.keeps .line (by decide)
  refine h.rest (fun b hb => ?_) (fun b hb => ?_) fun b hb => ?_
  · cases b <;> first | rfl | exact absurd (by decide) hb
  · cases b <;> first | rfl | exact absurd (by decide) hb
  · have := h.keeps b (by revert hb; cases b <;> decide)
    cases b <;> first | exact this | exact congrArg f he

theorem reportFault_onLine (slot : Nat) (k : FaultKind) (present : Bool) (f : Line → Line) (s : State) :
    reportFault slot k present (s.onLine f) = (reportFault slot k present s).onLine f := by
  have hsame : terminal (s.onLine f) slot = terminal s slot := rfl
  unfold reportFault
  rw [hsame]
  cases terminal s slot with
  | none => rfl
  | some x =>
    dsimp only
    by_cases hrises : present = true ∧ (x.watch.faults.get k).state.present = false
    · rw [if_pos hrises, if_pos hrises]
      rfl
    · rw [if_neg hrises, if_neg hrises]
      rfl

theorem quoteEnded_onLine (slot : Nat) (f : Line → Line) (s : State) :
    quoteEnded slot (s.onLine f) = (quoteEnded slot s).onLine f := by
  have hsame : terminal (s.onLine f) slot = terminal s slot := rfl
  unfold quoteEnded
  rw [hsame]
  cases terminal s slot with
  | none => rfl
  | some x =>
    dsimp only
    cases x.quote <;> rfl

/-- The link fields of a slot that is barred (R145). -/
def Link.barredAt (uptime : Nat) (l : Link) : Link :=
  { l with
    state := .barred, barExpiry := some (uptime + 60)
    lostDeadline := if l.state.called then some (uptime + 60) else l.lostDeadline, queue := [], timeOwed := false }

theorem leave_barred (l : Link) (uptime : Nat) : l.leave uptime .barred = l.barredAt uptime := rfl

theorem leave_lost (l : Link) (uptime : Nat) :
    l.leave uptime .lost
      = { Link.gone uptime l with
          state := .lost, level := l.level, caps := l.caps
          lostDeadline := if l.state.called then some (uptime + 60) else l.lostDeadline } := rfl

/-- The called slot is barred, and the part waits for quiet (R145). -/
theorem jabber_reacts (slot : Nat) (kind : CallKind) (s : State) :
    Reacts
      (reportFault slot .jabber true
        (quoteEnded slot
          (onTerminal slot (fun y => { y with link := y.link.barredAt s.calendar.uptime })
            { s with line := { s.line with mode := .quiet slot kind, out := [], ended := none } })))
      (setLine (.quiet slot kind) [] (barSlot slot (clearOut s))) := by
  have hbarred := ((leaveTo_reacts slot .barred (clearOut s)).reportFault slot .jabber true).trans
    (conditionRises_reacts slot .jabber _)
  have h := hbarred.onLine fun l => { l with mode := .quiet slot kind, out := l.out ++ [] }
  rw [← reportFault_onLine, ← quoteEnded_onLine] at h
  exact h

/-- An answer, whatever request it carries, is an answer taken (R136). -/
theorem exec_carriesAnswer {head : AnswerHead} {c : Instr} {s : State} (hrunning : s.supply.part = .running)
    (h : CarriesAnswer head c) : ∃ request : AnswerRequest, exec c s = .next (takeAnswer head request s) := by
  cases h with
  | answer => exact ⟨.none, whileRunning_running hrunning⟩
  | quote kind amount permit plate => exact ⟨.quote kind amount permit plate, whileRunning_running hrunning⟩
  | confirm quoteId coins card => exact ⟨.confirm quoteId coins card, whileRunning_running hrunning⟩
  | cancel => exact ⟨.cancel, whileRunning_running hrunning⟩
  | accept level => exact ⟨.accept level, whileRunning_running hrunning⟩
  | wakeReq => exact ⟨.wakeReq, whileRunning_running hrunning⟩

theorem takeAnswer_window {head : AnswerHead} {request : AnswerRequest} {s : State} {slot : Nat} {kind : CallKind}
    {calledAs : LinkState} {rode : Option NoticeBody} (hmode : s.line.mode = .window slot kind calledAs rode) :
    takeAnswer head request s = lineGoesOn slot kind (windowAnswer slot calledAs rode head request s) := by
  rw [takeAnswer, hmode]
  rfl

/-- A malformed status word or a wrong slot is a miss (R136; log entry 9). -/
theorem windowAnswer_miss {head : AnswerHead} (request : AnswerRequest) {s : State} {slot : Nat} (calledAs : LinkState)
    (rode : Option NoticeBody) (h : readStatus head.status = none ∨ head.slot ≠ slot) :
    windowAnswer slot calledAs rode head request s = missSlot slot calledAs s := by
  unfold windowAnswer
  rcases h with hnone | hother
  · rw [hnone]
  · cases readStatus head.status with
    | none => rfl
    | some w => exact if_pos hother

/-- A slot that leaves a called state after its miss (R137). -/
theorem missed_reacts {slot : Nat} {new : LinkState} {s : State} {x : Terminal} {g : Link → Link} (hx : terminal s slot = some x)
    (hleave : Link.leave { x.link with misses := x.link.misses + 1, queue := unmark x.link.queue } s.calendar.uptime new = g x.link) :
    Reacts (quoteEnded slot (onTerminal slot (fun y => { y with link := g y.link }) s))
      (leaveTo slot new (onLink slot (fun l => { l with misses := l.misses + 1, queue := unmark l.queue }) s)) := by
  have h := leaveTo_reacts slot new (onLink slot (fun l => { l with misses := l.misses + 1, queue := unmark l.queue }) s)
  refine Reacts.trans ?_ h
  rw [onLink, onTerminal_onTerminal]
  refine quoteEnded_agree fun y hy => ?_
  obtain rfl : x = y := Option.some.inj (hx.symm.trans hy)
  exact congrArg (fun l => { x with link := l }) hleave.symm

/-- Settles O51. -/
theorem missesAndJabbers : Obligations.MissesAndJabbers := by
  refine ⟨fun s slot kind calledAs rode hrunning hmode => ?_, fun s hrunning => ⟨fun hno => ?_, fun hnone => ?_, fun slot kind hended => ?_⟩⟩
  · intro goesOn
    have hmiss : exec .miss s = .next (lineGoesOn slot kind (missSlot slot calledAs s)) := by
      have harm : exec .miss s = .next (takeMiss s) := whileRunning_running hrunning
      rw [harm, takeMiss, hmode]
      rfl
    have hgoes {u : State} (h : missSlot slot calledAs s = u) : goesOn u := by rw [← h]; exact hmiss
    refine ⟨fun head c hc hbad => ?_, fun hnone => hgoes (by rw [missSlot, hnone]), ?_, fun x hx => ⟨fun hleft => hgoes ?_,
      fun hcalled hgranted hfew => hgoes ?_, fun hcalled hgranted hmany => ?_, fun hcalled hgranted => ?_⟩⟩
    · obtain ⟨request, hexec⟩ := exec_carriesAnswer hrunning hc
      rw [hexec, hmiss, takeAnswer_window hmode, windowAnswer_miss request calledAs rode hbad]
    · have harm : exec .jabber s = .next (takeJabber s) := whileRunning_running hrunning
      rw [harm, takeJabber, hmode]
      exact ⟨_, rfl, jabber_reacts slot kind s⟩
    · rw [missSlot, hx]
      dsimp only
      rw [hleft]
      rfl
    · rw [missSlot, hx]
      dsimp only
      rw [if_pos hcalled, if_neg hgranted, if_neg (by omega)]
      rfl
    · refine ⟨leaveTo slot .lost (onLink slot (fun l => { l with misses := l.misses + 1, queue := unmark l.queue }) s), hgoes ?_, ?_⟩
      · rw [missSlot, hx]
        dsimp only
        rw [if_pos hcalled, if_neg hgranted, if_pos (by omega)]
      · refine missed_reacts (g := fun l =>
          { Link.gone s.calendar.uptime l with state := .lost, level := l.level, caps := l.caps }) hx ?_
        rw [leave_lost, if_pos hcalled]
        rfl
    · refine ⟨leaveTo slot .absent (onLink slot (fun l => { l with misses := l.misses + 1, queue := unmark l.queue }) s), hgoes ?_, ?_⟩
      · rw [missSlot, hx]
        dsimp only
        rw [if_pos hcalled, if_pos hgranted]
      · refine missed_reacts (g := Link.gone s.calendar.uptime) hx ?_
        rw [leave_absent, if_pos hcalled]
        rfl
  · have harm : exec .jabber s = .next (takeJabber s) := whileRunning_running hrunning
    rw [harm, takeJabber]
    split
    · next hmode => exact absurd hmode (hno _ _ _ _)
    · rfl
  all_goals
    have harm : exec .jabberLate s = .next (takeLateJabber s) := whileRunning_running hrunning
  · rw [harm, takeLateJabber, hnone]
  · rw [harm, takeLateJabber, hended]
    have hback : takeBack s
        = match s.line.mode with
          | .window next _ _ _ =>
            onTerminal next
              (fun y => { y with link := { y.link with queue := y.link.queue.map fun n => { n with rode := false } } }) s
          | _ => s := by
      rw [takeBack]
      cases s.line.mode <;> rfl
    have h := jabber_reacts slot kind (takeBack s)
    rw [hback] at h
    exact ⟨_, rfl, h⟩

/-! ### OFFERs and GRANTs (R140 to R143) -/

theorem offerValid_iff (form : OfferForm) :
    offerValid form = true ↔ ∀ (caps : Byte) (level : Nat), form = .full caps level → 1 ≤ level ∧ level ≤ 15 := by
  cases form with
  | legacy => exact ⟨fun _ _ _ h => OfferForm.noConfusion h, fun _ => rfl⟩
  | full caps level =>
    rw [offerValid, Bool.and_eq_true, decide_eq_true_eq, decide_eq_true_eq]
    refine ⟨fun h caps' level' heq => ?_, fun h => h caps level rfl⟩
    cases heq
    exact h

/-- The level and the capabilities that a GRANT gives for this form of OFFER (R142). -/
theorem grantTerms (form : OfferForm) :
    ((offerTerms form).1, chosenLevel form)
      = match form with
        | .legacy => (⟨true, false, false, false, false⟩, 1)
        | .full caps level =>
          let set : Caps := ⟨caps.getLsbD 0, caps.getLsbD 1, caps.getLsbD 2, caps.getLsbD 3, caps.getLsbD 4⟩
          (set, if set.permitEntry = true ∧ set.plateEntry = true then min level 3 else min level 2) := by
  cases form with
  | legacy => rfl
  | full caps level =>
    have hcaps : capsOf caps = ⟨caps.getLsbD 0, caps.getLsbD 1, caps.getLsbD 2, caps.getLsbD 3, caps.getLsbD 4⟩ := rfl
    rw [chosenLevel, offerTerms, hcaps]
    dsimp only
    congr 1
    by_cases hboth : caps.getLsbD 2 = true ∧ caps.getLsbD 3 = true
    · rw [if_neg fun h => h.2 hboth, if_pos hboth]
    · rw [if_neg hboth]
      by_cases hhigh : 3 ≤ level
      · rw [if_pos ⟨hhigh, hboth⟩]
        omega
      · rw [if_neg fun h => hhigh h.1]
        omega

theorem quoteDropped_onTerminal (slot : Nat) (q : QuoteSlot) (k : Nat) (f : Terminal → Terminal) (s : State) :
    quoteDropped slot q (onTerminal k f s) = onTerminal k f (quoteDropped slot q s) := by
  cases q <;> rfl

theorem quoteDropped_calendar (slot : Nat) (q : QuoteSlot) (s : State) : (quoteDropped slot q s).calendar = s.calendar := by
  cases q <;> rfl

theorem considered_inactive {now : Nat} {x : Terminal} (h : x.link.state ≠ .active) : x.considered now = x := by
  rw [Terminal.considered, if_neg fun hall => h hall.1]

theorem quoteClosed_inactive {now : Nat} {q : QuoteSlot} {y : Terminal} (h : y.link.state ≠ .active) :
    y.quoteClosed now q = { y.without NoticeBody.isResult with quote := if q = .none then y.quote else .none } := by
  rw [Terminal.quoteClosed]
  split
  · rfl
  · exact considered_inactive h

/-- The last reported values are absent (R121). -/
def Terminal.unreported (y : Terminal) : Terminal := { y with watch := { y.watch with lastReports := none, lastPower := none } }

theorem Neutral.unreported : Neutral Terminal.unreported :=
  ⟨fun _ _ hbare => congrArg Terminal.unreported hbare, fun _ => rfl, fun _ => rfl, fun _ => rfl⟩

/-- A slot's link fields at a GRANT, with the last reported values absent (R121, R143). -/
def Terminal.granted (form : OfferForm) (y : Terminal) : Terminal :=
  { y with link := Link.granted form, watch := { y.watch with lastReports := none, lastPower := none } }

/-- A GRANT sent to a slot (R141, R143). -/
theorem grantSlot_reacts {slot : Nat} {s : State} {x : Terminal} (form : OfferForm) (hx : terminal s slot = some x) :
    Reacts (reportFault slot .linkLost false (quoteEnded slot (onTerminal slot (Terminal.granted form) s)))
      (grantSlot slot form s) := by
  have hsplit : Reacts (quoteEnded slot (onTerminal slot (Terminal.granted form) s))
      (onTerminal slot Terminal.unreported (quoteEnded slot (onTerminal slot (fun y => { y with link := Link.granted form }) s))) := by
    rw [quoteEnded_some (terminal_onTerminal_self hx), quoteEnded_some (terminal_onTerminal_self hx), quoteDropped_onTerminal,
      quoteDropped_onTerminal, onTerminal_onTerminal, onTerminal_onTerminal, onTerminal_onTerminal]
    refine .agree fun y _ => ?_
    have hstate : LinkState.granted ≠ .active := by decide
    rw [quoteClosed_inactive (y := Terminal.granted form y) hstate,
      quoteClosed_inactive (y := { y with link := Link.granted form }) hstate]
    rfl
  have hended := reacts_onBoth slot Terminal.unreported (fun _ _ => Served.neutral .unreported)
    (endQuote_reacts slot (onTerminal slot (fun y => { y with link := Link.granted form }) s))
  exact ((hsplit.trans hended).reportFault slot .linkLost false).trans
    ((conditionEnds_reacts slot .linkLost _).trans (deriveService_reacts slot _))

/-- The slot that holds the identity offered, where one slot alone does. -/
theorem slotOfIdentity_held {identity : Nat} {s : State} {e : Nat × Terminal} (he : e ∈ s.terminals)
    (hidentity : e.2.config.identity = identity) (hone : ∀ y ∈ s.terminals, y.2.config.identity = identity → y = e) :
    slotOfIdentity identity s = some e := by
  rw [slotOfIdentity]
  cases hfound : List.find? (fun e : Nat × Terminal => decide (e.2.config.identity = identity)) s.terminals with
  | none => exact absurd hidentity (by simpa using List.find?_eq_none.mp hfound e he)
  | some y => rw [hone y (List.mem_of_find?_eq_some hfound) (by simpa using List.find?_some hfound)]

theorem slotOfIdentity_unknown {identity : Nat} {s : State} (h : ∀ e ∈ s.terminals, e.2.config.identity ≠ identity) :
    slotOfIdentity identity s = none :=
  List.find?_eq_none.mpr fun e he => by simpa using h e he

/-- Settles O52. -/
theorem offersEarnGrants : Obligations.OffersEarnGrants := by
  intro s number taken offered earned hrunning hmode
  refine ⟨fun identity form => ?_, fun hbefore => ?_, fun hlast => ?_, ?_, fun o => ⟨fun hnone => ?_, fun x hx => ⟨fun hother => ?_,
    fun hidentity hbarred => ?_⟩⟩⟩
  · intro withMode valid
    have harm : exec (.offer identity form) s = .next (takeOffer identity form s) := whileRunning_running hrunning
    have hvalid : offerValid form = true ↔ valid := offerValid_iff form
    rw [harm, takeOffer, hmode]
    dsimp only
    have hskips : (!offerValid form || taken || offered.contains identity) = true ↔ ¬valid ∨ taken = true ∨ identity ∈ offered := by
      rw [← hvalid]
      cases offerValid form <;> simp
    refine ⟨fun hskip => by rw [if_pos (hskips.mpr hskip)], fun hgood hfirst hnew => ?_⟩
    have hheard : ¬(!offerValid form || taken || offered.contains identity) = true := by
      rw [hskips, hfirst]
      rintro (h | h | h)
      · exact h hgood
      · cases h
      · exact hnew h
    rw [if_neg hheard]
    refine ⟨fun hunknown => ?_, fun e he hheld hone => ?_⟩
    · rw [slotOfIdentity_unknown hunknown]
      rfl
    · rw [slotOfIdentity_held he hheld hone]
      rfl
  · have harm : exec .replyWindowEnd s = .next (takeWindowEnd s) := whileRunning_running hrunning
    rw [harm, takeWindowEnd, hmode]
    dsimp only
    rw [endReplyWindow, if_pos hbefore]
    rfl
  · have harm : exec .replyWindowEnd s = .next (takeWindowEnd s) := whileRunning_running hrunning
    rw [harm, takeWindowEnd, hmode]
    dsimp only
    rw [endReplyWindow, if_neg (Nat.not_lt.mpr hlast), setLine]
    simp only [List.append_nil]
    rfl
  · have harm : exec .jabber s = .next (takeJabber s) := whileRunning_running hrunning
    rw [harm, takeJabber, hmode]
  · rw [sendGrant, hnone]
  · rw [sendGrant, hx]
    exact if_pos (by rcases hother with h | h; exacts [.inl h, .inr h])
  · intro terms
    have hterms : terms = ((offerTerms o.form).1, chosenLevel o.form) := (grantTerms o.form).symm
    rw [hterms, sendGrant, hx]
    dsimp only
    rw [if_neg (by rintro (h | h); exacts [h hidentity, hbarred h])]
    exact grantSlot_reacts (s := s.onLine fun l =>
      { l with
        out := l.out ++
          [.grant o.identity o.slot (chosenLevel o.form) s.calendar.zoneTime s.calendar.offset s.calendar.clockSet] }) o.form hx

end Sys2Proof.Machine
end

section
/-!
PROOFS. Answers by the link state of the called slot (R136, R144, R147, R149, R153).
-/

namespace Sys2Proof.Machine

open Sys2Proof

/-! ### A status word leaves the calendar -/

theorem quoteEnded_calendar (slot : Nat) (s : State) : (quoteEnded slot s).calendar = s.calendar := by
  unfold quoteEnded
  split
  · rfl
  · dsimp only
    split <;> rfl

theorem endQuote_calendar (slot : Nat) (s : State) : (endQuote slot s).calendar = s.calendar :=
  (endQuote_reacts slot s).calendar.trans (quoteEnded_calendar slot s)

theorem takeReport_calendar (slot : Nat) (k : ReportKind) (report : Bool) (s : State) :
    (takeReport slot k report s).calendar = s.calendar := by
  unfold takeReport
  split
  · rfl
  · split
    · exact (reportCondition_derives slot _ report _).calendar
    · rfl

theorem takeReports_calendar (slot : Nat) (r : Reports) (s : State) : (takeReports slot r s).calendar = s.calendar := by
  unfold takeReports
  dsimp only
  rw [onWatch, onTerminal, State.onTerminals_calendar, takeReport_calendar, takeReport_calendar, takeReport_calendar,
    takeReport_calendar]

theorem filterPower_calendar (slot : Nat) (c : PowerClass) (s : State) : (filterPower slot c s).calendar = s.calendar := by
  unfold filterPower
  split
  · rfl
  · dsimp only
    split
    · exact (reportCondition_derives slot _ _ _).calendar
    · rfl

theorem criticalRun_calendar (slot : Nat) (c : PowerClass) (s : State) : (criticalRun slot c s).calendar = s.calendar := by
  unfold criticalRun
  split
  · rfl
  · split
    · exact (conditionRises_derives slot _ _).calendar
    · split
      · split
        · exact (conditionEnds_derives slot _ _).calendar
        · rfl
      · rfl

theorem collectorOpening_calendar (slot key : Nat) (s : State) : (collectorOpening slot key s).calendar = s.calendar := by
  unfold collectorOpening
  split
  · rfl
  · split
    · exact (raiseEventFault_derives slot _ s).calendar
    · split
      · exact (raiseEventFault_derives slot _ s).calendar
      · split
        · exact (raiseEventFault_derives slot _ s).calendar
        · split
          · exact (conditionEnds_derives slot _ _).calendar
          · rfl

theorem openDoor_calendar (slot : Nat) (key : DoorKey) (s : State) : (openDoor slot key s).calendar = s.calendar := by
  have hbefore : (endQuote slot (withdrawSleep slot (onWatch slot (fun w => { w with door := .opened key }) s))).calendar
      = s.calendar := endQuote_calendar slot _
  unfold openDoor
  dsimp only
  rw [(deriveService_derives slot _).calendar]
  cases key with
  | collector n => exact (collectorOpening_calendar slot n _).trans hbefore
  | none => exact (conditionRises_derives slot _ _).calendar.trans hbefore
  | engineer => exact hbefore

theorem closeDoor_calendar (slot : Nat) (s : State) : (closeDoor slot s).calendar = s.calendar :=
  ((considerSleep_derives slot _).calendar.trans (deriveService_derives slot _).calendar).trans
    (conditionEnds_derives slot .doorForced _).calendar

theorem takeDoor_calendar (slot : Nat) (reported : Door) (s : State) : (takeDoor slot reported s).calendar = s.calendar := by
  unfold takeDoor
  split
  · rfl
  · split
    · exact openDoor_calendar slot _ s
    · exact closeDoor_calendar slot s
    · rfl

theorem takeStatus_calendar (slot : Nat) (w : StatusWord) (s : State) : (takeStatus slot w s).calendar = s.calendar := by
  rw [takeStatus, takeDoor_calendar, criticalRun_calendar, filterPower_calendar, takeReports_calendar]

/-! ### The answer of a called slot -/

/-- A command that carries an answer, with its request (R136). -/
theorem exec_carried {head : AnswerHead} {c : Instr} {s : State} (hrunning : s.supply.part = .running) (h : CarriesAnswer head c) :
    ∃ request : AnswerRequest, exec c s = .next (takeAnswer head request s) ∧ ∀ level, request = .accept level → c = .accept head level := by
  cases h with
  | answer => exact ⟨.none, whileRunning_running hrunning, fun _ h => by cases h⟩
  | quote kind amount permit plate => exact ⟨.quote kind amount permit plate, whileRunning_running hrunning, fun _ h => by cases h⟩
  | confirm quoteId coins card => exact ⟨.confirm quoteId coins card, whileRunning_running hrunning, fun _ h => by cases h⟩
  | cancel => exact ⟨.cancel, whileRunning_running hrunning, fun _ h => by cases h⟩
  | accept level => exact ⟨.accept level, whileRunning_running hrunning, fun _ h => by cases h; rfl⟩
  | wakeReq => exact ⟨.wakeReq, whileRunning_running hrunning, fun _ h => by cases h⟩

theorem called_iff (l : LinkState) : l.called = true ↔ l = .granted ∨ l = .active ∨ l = .sleeping := by
  cases l <;> simp [LinkState.called]

/-- An answer of a slot that has left the called states since its call is discarded whole. -/
theorem windowAnswer_left {head : AnswerHead} (request : AnswerRequest) {s : State} {slot : Nat} (calledAs : LinkState)
    (rode : Option NoticeBody) {w : StatusWord} (ha : Answers head slot w)
    (hleft : ∀ x ∈ terminal s slot, x.link.state ≠ .granted ∧ x.link.state ≠ .active ∧ x.link.state ≠ .sleeping) :
    windowAnswer slot calledAs rode head request s = s := by
  obtain ⟨hslot, hword⟩ := ha
  rw [windowAnswer, hword]
  dsimp only
  rw [if_neg fun h => h hslot]
  cases hx : terminal s slot with
  | none => rfl
  | some x =>
    obtain ⟨hgranted, hactive, hsleeping⟩ := hleft x hx
    refine if_neg fun hcalled => ?_
    rcases (called_iff _).mp hcalled with h | h | h
    · exact hgranted h
    · exact hactive h
    · exact hsleeping h

/-- The answer of an ACTIVE or SLEEPING slot to a call that carried no RESET: the link change, the status word, the request. -/
theorem validAnswer_enrolled {slot : Nat} {x : Terminal} {rode : Option NoticeBody} (asleep : Bool) (w : StatusWord)
    (request : AnswerRequest) (s : State) (hgranted : x.link.state ≠ .granted) (hreset : rode ≠ some .reset) :
    validAnswer slot x rode asleep w request s
      = handRequest slot request (takeStatus slot w (answerLink slot x rode asleep w request (gotAnswer slot s))) := by
  have henrols : enrols x request = false := by
    cases request with
    | accept level =>
      rw [enrols, Bool.and_eq_false_iff]
      exact .inl (decide_eq_false hgranted)
    | _ => rfl
  have hgone : ¬(x.link.state = .granted ∨ rode = some .reset) := not_or.mpr ⟨hgranted, hreset⟩
  simp only [validAnswer, henrols, Bool.false_eq_true, if_false, hgone]
  rfl

/-- The answer of a GRANTED slot without its ACCEPT, and of a call that carried RESET: the slot is ABSENT, and the status word is taken. -/
theorem validAnswer_leaves {slot : Nat} {x : Terminal} {rode : Option NoticeBody} (asleep : Bool) (w : StatusWord)
    {request : AnswerRequest} (s : State) (henrols : enrols x request = false)
    (h : x.link.state = .granted ∨ (x.link.state = .active ∨ x.link.state = .sleeping) ∧ rode = some .reset) :
    validAnswer slot x rode asleep w request s = takeStatus slot w (leaveTo slot .absent (gotAnswer slot s)) := by
  have hgone : x.link.state = .granted ∨ rode = some .reset := h.imp_right And.right
  have hlink : answerLink slot x rode asleep w request (gotAnswer slot s) = leaveTo slot .absent (gotAnswer slot s) := by
    rcases h with hgranted | ⟨hactive | hsleeping, hreset⟩
    · simp [answerLink, hgranted, henrols]
    · simp [answerLink, hactive, hreset]
    · simp [answerLink, hsleeping, hreset]
  simp only [validAnswer, henrols, Bool.false_eq_true, if_false, hgone, if_true]
  exact congrArg (takeStatus slot w) hlink

/-- The answer of a GRANTED slot with its ACCEPT (R144; log entry 45). -/
theorem validAnswer_enrols {slot : Nat} {x : Terminal} (rode : Option NoticeBody) (asleep : Bool) (w : StatusWord) {level : Nat}
    (s : State) (hgranted : x.link.state = .granted) (hlevel : x.link.level = some level) :
    validAnswer slot x rode asleep w (.accept level) s
      = acceptSlot slot x.link.timeOwed
          (takeStatus slot w (onLink slot (fun l => { l with state := .active, timeOwed := false }) (gotAnswer slot s))) := by
  have henrols : enrols x (.accept level) = true := by simp [enrols, hgranted, hlevel]
  have hlink : answerLink slot x rode asleep w (.accept level) (gotAnswer slot s)
      = onLink slot (fun l => { l with state := .active, timeOwed := false }) (gotAnswer slot s) := by
    simp [answerLink, hgranted, henrols]
  simp only [validAnswer, henrols, if_true, hgranted, true_or]
  exact congrArg (fun u => acceptSlot slot x.link.timeOwed (takeStatus slot w u)) hlink

theorem fallAsleep_reacts (slot : Nat) (s : State) :
    Reacts
      (onTerminal slot
        (fun y =>
          { y with
            link := { y.link with state := .sleeping, misses := 0, queue := y.link.queue.filter fun n => n.body ≠ .sleep } }) s)
      (fallAsleep slot s) := by
  have h := deriveService_reacts slot
    (onLink slot (fun l => { l with state := .sleeping, misses := 0, queue := withdraw NoticeBody.isSleep l.queue }) s)
  simp only [withdraw_sleep] at h
  unfold fallAsleep
  simp only [withdraw_sleep]
  exact h

/-- A slot that wakes is considered for sleep (R146, R149). -/
theorem wakeSlot_reacts (slot : Nat) (s : State) :
    Reacts
      (onTerminal slot (Terminal.considered s.calendar.zoneTime)
        (onTerminal slot
          (fun y => { y with link := { y.link with state := .active, queue := y.link.queue.filter fun n => n.body ≠ .wake } }) s))
      (wakeSlot slot s) := by
  have h := (considerSleep_reacts slot
    (onLink slot (fun l => { l with state := .active, queue := withdraw NoticeBody.isWake l.queue }) s)).trans
      (deriveService_reacts slot _)
  simp only [withdraw_wake] at h
  unfold wakeSlot
  simp only [withdraw_wake]
  exact h

/-- Settles O48. -/
theorem answersAreTaken : Obligations.AnswersAreTaken := by
  constructor
  · intro s slot kind calledAs rode head w c hrunning hmode ha hc hleft
    obtain ⟨request, hexec, -⟩ := exec_carried hrunning hc
    rw [hexec, takeAnswer_window hmode, windowAnswer_left request calledAs rode ha hleft]
  intro s slot kind rode x head w hwindow ha got linked goesOn handsOn
  obtain ⟨hrunning, ⟨calledAs, hmode⟩, hx⟩ := hwindow
  have hgoes {c : Instr} {request : AnswerRequest} {u : State} (hcalled : x.link.state.called = true)
      (hexec : exec c s = .next (takeAnswer head request s)) (hu : validAnswer slot x rode head.asleep w request s = u) :
      goesOn c u := by
    rw [takeAnswer_valid hmode ha hx hcalled, hu] at hexec
    exact hexec
  have hrun {request : AnswerRequest} : whileRunning (takeAnswer head request) s = .next (takeAnswer head request s) :=
    whileRunning_running hrunning
  have hhands {u : State} (hcalled : x.link.state.called = true) (hgranted : x.link.state ≠ .granted) (hreset : rode ≠ some .reset)
      (hlink : ∀ request : AnswerRequest, request ≠ .none → answerLink slot x rode head.asleep w request got = u) : handsOn u := by
    have hone {request : AnswerRequest} (hsome : request ≠ .none) :
        validAnswer slot x rode head.asleep w request s = handRequest slot request (takeStatus slot w u) := by
      rw [validAnswer_enrolled _ _ _ _ hgranted hreset, hlink request hsome]
    exact ⟨fun k amount permit plate => hgoes hcalled hrun (hone (request := .quote k amount permit plate) (by simp)),
      fun quoteId coins card => hgoes hcalled hrun (hone (request := .confirm quoteId coins card) (by simp)),
      hgoes hcalled hrun (hone (request := .cancel) (by simp)), hgoes hcalled hrun (hone (request := .wakeReq) (by simp)),
      fun level => hgoes hcalled hrun (hone (request := .accept level) (by simp))⟩
  refine ⟨fun hactive hreset => ?_, fun hsleeping hreset => ?_, fun hgranted level hlevel => ?_, fun c hc hleaves => ?_⟩
  · have hcalled : x.link.state.called = true := by rw [hactive]; rfl
    have hgranted : x.link.state ≠ .granted := by rw [hactive]; decide
    have hplain := validAnswer_enrolled (slot := slot) (x := x) (rode := rode) head.asleep w .none s hgranted hreset
    refine ⟨fun hstays => hgoes hcalled hrun ?_, fun hsleep hclosed => ⟨fallAsleep slot got, hgoes hcalled hrun ?_,
      fallAsleep_reacts slot got⟩, hhands hcalled hgranted hreset fun request hsome => ?_⟩
    · have hlink : answerLink slot x rode head.asleep w .none got = got := by
        have hno : ¬(rode = some .sleep ∧ AnswerRequest.none = .none ∧ w.door = .closed) := by
          rintro ⟨hsleep, -, hclosed⟩
          rcases hstays with h | h
          · exact h hsleep
          · exact h hclosed
        rw [answerLink, hactive]
        exact (if_neg hreset).trans (if_neg hno)
      rw [hplain, hlink]
      rfl
    · have hlink : answerLink slot x rode head.asleep w .none got = fallAsleep slot got := by
        rw [answerLink, hactive]
        exact (if_neg hreset).trans (if_pos ⟨hsleep, rfl, hclosed⟩)
      rw [hplain, hlink]
      rfl
    · rw [answerLink, hactive]
      exact (if_neg hreset).trans (if_neg fun h => hsome h.2.1)
  · have hcalled : x.link.state.called = true := by rw [hsleeping]; rfl
    have hgranted : x.link.state ≠ .granted := by rw [hsleeping]; decide
    have hplain := validAnswer_enrolled (slot := slot) (x := x) (rode := rode) head.asleep w .none s hgranted hreset
    refine ⟨fun hwake hasleep => hgoes hcalled hrun ?_, fun hwake => hgoes hcalled hrun ?_,
      hhands hcalled hgranted hreset fun request hsome => ?_, wakeSlot_reacts slot got⟩
    · have hlink : answerLink slot x rode head.asleep w .none got = got := by
        rw [answerLink, hsleeping]
        exact (if_neg hreset).trans (if_neg (by simp [wakes, hwake, hasleep]))
      rw [hplain, hlink]
      rfl
    · have hlink : answerLink slot x rode head.asleep w .none got = wakeSlot slot got := by
        rw [answerLink, hsleeping]
        refine (if_neg hreset).trans (if_pos ?_)
        rcases hwake with h | h <;> simp [wakes, h]
      rw [hplain, hlink]
      rfl
    · rw [answerLink, hsleeping]
      exact (if_neg hreset).trans (if_pos (by simp [wakes, hsome]))
  · have hcalled : x.link.state.called = true := by rw [hgranted]; rfl
    refine ⟨_, hgoes hcalled hrun (validAnswer_enrols rode head.asleep w s hgranted hlevel), ?_⟩
    have h := acceptSlot_reacts slot x.link.timeOwed
      (takeStatus slot w (onLink slot (fun l => { l with state := .active, timeOwed := false }) got))
    rw [takeStatus_calendar] at h
    exact h
  · obtain ⟨request, hexec, haccept⟩ := exec_carried hrunning hc
    have hcalled : x.link.state.called = true := by
      rw [called_iff]
      rcases hleaves with ⟨h, -⟩ | ⟨h | h, -⟩
      exacts [.inl h, .inr (.inl h), .inr (.inr h)]
    have henrols : enrols x request = false := by
      cases request with
      | accept level =>
        rw [enrols, Bool.and_eq_false_iff, decide_eq_false_iff_not, decide_eq_false_iff_not]
        rcases hleaves with ⟨-, hother⟩ | ⟨h | h, -⟩
        · exact .inr fun hlevel => hother level hlevel (haccept level rfl)
        · exact .inl (by rw [h]; decide)
        · exact .inl (by rw [h]; decide)
      | _ => rfl
    refine ⟨_, hgoes hcalled hexec (validAnswer_leaves _ w s henrols (hleaves.imp_left And.left)), ?_⟩
    refine Reacts.trans (quoteEnded_agree fun y hy => ?_) (leaveTo_reacts slot .absent got)
    have hsame : y.link.state = x.link.state := by
      obtain rfl := Option.some.inj ((terminal_onTerminal_self hx).symm.trans hy)
      rfl
    rw [leave_absent, hsame, if_pos hcalled]
    rfl

end Sys2Proof.Machine
end

section
/-!
PROOFS. What the Fault Monitor makes of a status word (R121 to R123): its filters as functions of the watch fields, and the door.
-/

namespace Sys2Proof.Machine

open Sys2Proof

/-! ### The watch fields of one slot -/

/-- FAULT is set where a fault has entered ACTIVE. -/
def marked (rose : Bool) (s : State) : State := if rose then faultSet s else s

/-- A slot's watch fields change, and FAULT is set where a fault has entered ACTIVE. -/
def watched (f : Watch → Watch) (rose : Watch → Bool) (slot : Nat) (s : State) : State :=
  match terminal s slot with
  | none => s
  | some x => marked (rose x.watch) (onWatch slot f s)

theorem watched_some {f : Watch → Watch} {rose : Watch → Bool} {slot : Nat} {s : State} {x : Terminal} (hx : terminal s slot = some x) :
    watched f rose slot s = marked (rose x.watch) (onWatch slot f s) := by
  rw [watched, hx]

theorem terminal_marked (rose : Bool) (s : State) (slot : Nat) : terminal (marked rose s) slot = terminal s slot := by
  cases rose <;> rfl

theorem onWatch_marked (slot : Nat) (f : Watch → Watch) (rose : Bool) (s : State) :
    onWatch slot f (marked rose s) = marked rose (onWatch slot f s) := by
  cases rose <;> rfl

theorem marked_marked (a b : Bool) (s : State) : marked a (marked b s) = marked (b || a) s := by
  cases a <;> cases b <;> rfl

theorem marked_calendar (rose : Bool) (s : State) : (marked rose s).calendar = s.calendar := by
  cases rose <;> rfl

theorem watched_calendar (f : Watch → Watch) (rose : Watch → Bool) (slot : Nat) (s : State) :
    (watched f rose slot s).calendar = s.calendar := by
  rw [watched]
  split
  · rfl
  · rw [marked_calendar]
    rfl

theorem terminal_onWatch {slot : Nat} {f : Watch → Watch} {s : State} {x : Terminal} (hx : terminal s slot = some x) :
    terminal (onWatch slot f s) slot = some { x with watch := f x.watch } := terminal_onTerminal_self hx

theorem watched_watched (f g : Watch → Watch) (r q : Watch → Bool) (slot : Nat) (s : State) :
    watched g q slot (watched f r slot s) = watched (fun w => g (f w)) (fun w => r w || q (f w)) slot s := by
  cases hx : terminal s slot with
  | none =>
    have hnone : watched f r slot s = s := by rw [watched, hx]
    rw [hnone, watched, watched, hx]
  | some x =>
    have hnext : terminal (watched f r slot s) slot = some { x with watch := f x.watch } := by
      rw [watched_some hx, terminal_marked]
      exact terminal_onTerminal_self hx
    rw [watched_some hnext, watched_some hx, watched_some hx, onWatch_marked, marked_marked]
    exact congrArg (marked _) (onTerminal_onTerminal slot _ _ s)

/-- A change of the watch fields that neither reads nor moves the service state. -/
structure Blind (f : Watch → Watch) (rose : Watch → Bool) : Prop where
  service : ∀ (w : Watch) (v : ServiceState), f { w with service := v } = { f w with service := v }
  kept : ∀ w : Watch, (f w).service = w.service
  rose : ∀ (w : Watch) (v : ServiceState), rose { w with service := v } = rose w

theorem Blind.comp {f g : Watch → Watch} {r q : Watch → Bool} (hf : Blind f r) (hg : Blind g q) :
    Blind (fun w => g (f w)) fun w => r w || q (f w) where
  service w v := by rw [hf.service, hg.service]
  kept w := by rw [hg.kept, hf.kept]
  rose w v := by rw [hf.rose, hf.service, hg.rose]

theorem Blind.neutral {f : Watch → Watch} {rose : Watch → Bool} (hf : Blind f rose) :
    Neutral fun z : Terminal => { z with watch := f z.watch } where
  bare x y h := by
    have hbare (z : Terminal) : ({ z with watch := f z.watch } : Terminal).bare = { z.bare with watch := f z.bare.watch } :=
      congrArg (fun w => ({ z.bare with watch := w } : Terminal)) (hf.service z.watch .outOfService).symm
    rw [hbare, hbare, h]
  queue _ := rfl
  state _ := rfl
  service x := hf.kept x.watch

theorem Served.watch {x y : Terminal} (h : Served x y) : { y.watch with service := x.watch.service } = x.watch := by
  have := congrArg (fun z : Terminal => { z.watch with service := x.watch.service }) h.rest
  exact this

theorem Blind.served {f : Watch → Watch} {rose : Watch → Bool} (hf : Blind f rose) {x y : Terminal} (h : Served x y) :
    rose y.watch = rose x.watch := by
  have := hf.rose y.watch x.watch.service
  rw [h.watch] at this
  exact this.symm

theorem Reacts.marked {u t : State} (rose : Bool) (h : Reacts u t) : Reacts (marked rose u) (marked rose t) := by
  cases rose with
  | false => exact h
  | true => exact h.raise .fault

theorem Reacts.watched {f : Watch → Watch} {rose : Watch → Bool} (hf : Blind f rose) (slot : Nat) {u t : State} (h : Reacts u t) :
    Reacts (watched f rose slot u) (watched f rose slot t) := by
  rcases h.slot_cases slot with ⟨hx, hy⟩ | ⟨x, y, hx, hy, hxy⟩
  · simp only [Machine.watched, hx, hy]
    exact h
  · rw [watched_some hx, watched_some hy, hf.served hxy]
    exact (reacts_onBoth slot _ (fun _ _ => Served.neutral hf.neutral) h).marked _

/-- An action that changes one slot's watch fields by `f` at the present zone time, sets FAULT where `rose` says so, and derives afresh. -/
structure Watches (slot : Nat) (f : Nat → Watch → Watch) (rose : Nat → Watch → Bool) (act : State → State) : Prop where
  blind : ∀ now, Blind (f now) (rose now)
  reacts : ∀ s, Reacts (watched (f s.calendar.zoneTime) (rose s.calendar.zoneTime) slot s) (act s)

theorem Watches.comp {slot : Nat} {f g : Nat → Watch → Watch} {r q : Nat → Watch → Bool} {first next : State → State}
    (hf : Watches slot f r first) (hg : Watches slot g q next) :
    Watches slot (fun now w => g now (f now w)) (fun now w => r now w || q now (f now w)) fun s => next (first s) where
  blind now := (hf.blind now).comp (hg.blind now)
  reacts s := by
    have h := ((hf.reacts s).watched (hg.blind s.calendar.zoneTime) slot).trans
      ((congrArg (fun now => Reacts (watched (g now) (q now) slot (first s)) (next (first s)))
        (congrArg Calendar.zoneTime ((hf.reacts s).calendar.trans (watched_calendar _ _ _ _)))).mp (hg.reacts (first s)))
    rw [watched_watched] at h
    exact h

/-! ### The filters as functions -/

theorem FaultTable.get_set (f : FaultTable) (r : FaultRecord) (k j : FaultKind) :
    (f.set r k).get j = if j = k then r else f.get j := by
  cases k <;> cases j <;> rfl

theorem Reports.get_set (f : Reports) (v : Bool) (k j : ReportKind) : (f.set v k).get j = if j = k then v else f.get j := by
  cases k <;> cases j <;> rfl

/-- A fault's condition is reported in the watch fields (R116). -/
def Watch.reported (k : FaultKind) (present : Bool) (now : Nat) (w : Watch) : Watch :=
  { w with faults := w.faults.set ((w.faults.get k).reported present now) k }

/-- A report of this condition makes the fault enter ACTIVE. -/
def Watch.rises (k : FaultKind) (present : Bool) (w : Watch) : Bool := present && !w.faults.present k

theorem reportFault_watched (slot : Nat) (k : FaultKind) (present : Bool) (s : State) :
    reportFault slot k present s = watched (Watch.reported k present s.calendar.zoneTime) (Watch.rises k present) slot s := by
  rw [reportFault, watched]
  cases terminal s slot with
  | none => rfl
  | some x =>
    dsimp only
    rw [marked, Watch.rises]
    refine if_congr ?_ rfl rfl
    rw [Bool.and_eq_true, Bool.not_eq_true']
    exact Iff.rfl

/-- A condition of a slot is reported after its watch fields have changed. -/
theorem reportCondition_after {slot : Nat} {k : FaultKind} {present : Bool} {s : State} {x : Terminal} {g : Watch → Watch}
    (hx : terminal s slot = some x) :
    Reacts
      (marked ((g x.watch).rises k present) (onWatch slot (fun w => (g w).reported k present s.calendar.zoneTime) s))
      (reportCondition slot k present (onWatch slot g s)) := by
  have h := reportCondition_reacts slot k present (onWatch slot g s)
  rw [reportFault_watched, watched_some (terminal_onWatch hx)] at h
  have hmerge : onWatch slot (Watch.reported k present s.calendar.zoneTime) (onWatch slot g s)
      = onWatch slot (fun w => (g w).reported k present s.calendar.zoneTime) s := onTerminal_onTerminal slot _ _ s
  rw [← hmerge]
  exact h

/-- Two changes of a slot's watch fields that agree on the fields found. -/
theorem onWatch_agree {slot : Nat} {f g : Watch → Watch} {s : State} {x : Terminal} (hx : terminal s slot = some x)
    (h : f x.watch = g x.watch) : Reacts (onWatch slot f s) (onWatch slot g s) := by
  refine .agree fun y hy => ?_
  obtain rfl : x = y := Option.some.inj (hx.symm.trans hy)
  rw [h]

/-- A change of the watch fields that leaves those found. -/
theorem onWatch_left {slot : Nat} {f : Watch → Watch} {s : State} {x : Terminal} (hx : terminal s slot = some x)
    (h : f x.watch = x.watch) : Reacts (onWatch slot f s) s :=
  .trans (.agree (g := id) fun y hy => by
    obtain rfl : x = y := Option.some.inj (hx.symm.trans hy)
    rw [h]
    rfl) (.lookups (fun b hb => by cases b <;> first | rfl | exact absurd (by decide) hb) fun k => onTerminal_id slot s k)

/-- A report stands in two words and is not the filtered value (R121). -/
def Watch.takes (k : ReportKind) (report : Bool) (w : Watch) : Bool :=
  decide (w.lastReports.map (·.get k) = some report ∧ report ≠ w.filtered.get k)

/-- Step 1 of R121 for one report. -/
def Watch.reportTaken (k : ReportKind) (report : Bool) (now : Nat) (w : Watch) : Watch :=
  if w.takes k report then Watch.reported k.fault report now { w with filtered := w.filtered.set report k } else w

def Watch.reportRises (k : ReportKind) (report : Bool) (w : Watch) : Bool := w.takes k report && w.rises k.fault report

theorem takeReport_watches (slot : Nat) (k : ReportKind) (report : Bool) :
    Watches slot (Watch.reportTaken k report) (fun _ => Watch.reportRises k report) (takeReport slot k report) where
  blind now := by
    refine ⟨fun w v => ?_, fun w => ?_, fun w v => rfl⟩
    · rw [Watch.reportTaken, Watch.reportTaken, show Watch.takes k report { w with service := v } = w.takes k report from rfl]
      split <;> rfl
    · rw [Watch.reportTaken]
      split <;> rfl
  reacts s := by
    cases hx : terminal s slot with
    | none =>
      rw [watched, takeReport, hx]
      exact .refl s
    | some x =>
      rw [watched_some hx, takeReport, hx]
      dsimp only
      by_cases htakes : x.watch.lastReports.map (·.get k) = some report ∧ report ≠ x.watch.filtered.get k
      · have hyes : x.watch.takes k report = true := decide_eq_true htakes
        have hrose : x.watch.reportRises k report = Watch.rises k.fault report { x.watch with filtered := x.watch.filtered.set report k } := by
          rw [Watch.reportRises, hyes]
          rfl
        rw [if_pos htakes, hrose]
        refine Reacts.trans ((onWatch_agree hx ?_).marked _) (reportCondition_after (g := fun w =>
          { w with filtered := w.filtered.set report k }) hx)
        rw [Watch.reportTaken, if_pos hyes]
      · have hno : x.watch.takes k report = false := decide_eq_false htakes
        have hrose : x.watch.reportRises k report = false := by
          rw [Watch.reportRises, hno]
          rfl
        rw [if_neg htakes, hrose]
        refine onWatch_left hx ?_
        rw [Watch.reportTaken, hno]
        rfl

/-- The filter of the power class (R122). -/
def Watch.powerTaken (c : PowerClass) (now : Nat) (w : Watch) : Watch :=
  if w.lastPower = some c ∧ c ≠ w.power then
    Watch.reported .powerLow (decide (c = .low)) now { w with lastPower := some c, power := c }
  else { w with lastPower := some c }

def Watch.powerRises (c : PowerClass) (w : Watch) : Bool :=
  decide (w.lastPower = some c ∧ c ≠ w.power) && w.rises .powerLow (decide (c = .low))

theorem filterPower_watches (slot : Nat) (c : PowerClass) :
    Watches slot (Watch.powerTaken c) (fun _ => Watch.powerRises c) (filterPower slot c) where
  blind now := by
    refine ⟨fun w v => ?_, fun w => ?_, fun w v => rfl⟩
    · rw [Watch.powerTaken, Watch.powerTaken]
      by_cases htakes : w.lastPower = some c ∧ c ≠ w.power
      · rw [if_pos htakes, if_pos htakes]
        rfl
      · rw [if_neg htakes, if_neg htakes]
    · rw [Watch.powerTaken]
      split <;> rfl
  reacts s := by
    cases hx : terminal s slot with
    | none =>
      rw [watched, filterPower, hx]
      exact .refl s
    | some x =>
      rw [watched_some hx, filterPower, hx]
      dsimp only
      by_cases htakes : x.watch.lastPower = some c ∧ c ≠ x.watch.power
      · have hmerge : onWatch slot (fun w => { w with power := c }) (onWatch slot (fun w => { w with lastPower := some c }) s)
            = onWatch slot (fun w => { w with lastPower := some c, power := c }) s := onTerminal_onTerminal slot _ _ s
        have hrose : x.watch.powerRises c
            = Watch.rises .powerLow (decide (c = .low)) { x.watch with lastPower := some c, power := c } := by
          rw [Watch.powerRises, decide_eq_true htakes]
          rfl
        rw [if_pos htakes, hmerge, hrose]
        refine Reacts.trans ((onWatch_agree hx ?_).marked _) (reportCondition_after (g := fun w =>
          { w with lastPower := some c, power := c }) hx)
        rw [Watch.powerTaken, if_pos htakes]
      · have hrose : x.watch.powerRises c = false := by
          rw [Watch.powerRises, decide_eq_false htakes]
          rfl
        rw [if_neg htakes, hrose]
        refine onWatch_agree hx ?_
        rw [Watch.powerTaken, if_neg htakes]

/-- POWER_CRITICAL's hysteresis (R122). -/
def Watch.criticalTaken (c : PowerClass) (now : Nat) (w : Watch) : Watch :=
  if c = .critical then Watch.reported .powerCritical true now { w with clearRun := 0 }
  else if w.faults.present .powerCritical = true then
    if 10 ≤ w.clearRun + 1 then Watch.reported .powerCritical false now { w with clearRun := 0 }
    else { w with clearRun := w.clearRun + 1 }
  else w

def Watch.criticalRises (c : PowerClass) (w : Watch) : Bool := decide (c = .critical) && w.rises .powerCritical true

theorem criticalRun_watches (slot : Nat) (c : PowerClass) :
    Watches slot (Watch.criticalTaken c) (fun _ => Watch.criticalRises c) (criticalRun slot c) where
  blind now := by
    refine ⟨fun w v => ?_, fun w => ?_, fun w v => rfl⟩
    · rw [Watch.criticalTaken, Watch.criticalTaken]
      by_cases hcritical : c = .critical
      · rw [if_pos hcritical, if_pos hcritical]
        rfl
      · rw [if_neg hcritical, if_neg hcritical]
        by_cases hpresent : w.faults.present .powerCritical = true
        · rw [if_pos hpresent, if_pos hpresent]
          by_cases hlast : 10 ≤ w.clearRun + 1
          · rw [if_pos hlast, if_pos hlast]
            rfl
          · rw [if_neg hlast, if_neg hlast]
        · rw [if_neg hpresent, if_neg hpresent]
    · rw [Watch.criticalTaken]
      split
      · rfl
      · split
        · split <;> rfl
        · rfl
  reacts s := by
    cases hx : terminal s slot with
    | none =>
      rw [watched, criticalRun, hx]
      exact .refl s
    | some x =>
      rw [watched_some hx, criticalRun, hx]
      dsimp only
      by_cases hcritical : c = .critical
      · have hrose : x.watch.criticalRises c = Watch.rises .powerCritical true { x.watch with clearRun := 0 } := by
          rw [Watch.criticalRises, decide_eq_true hcritical]
          rfl
        rw [if_pos hcritical, hrose]
        refine Reacts.trans ((onWatch_agree hx ?_).marked _) (reportCondition_after (present := true) (g := fun w =>
          { w with clearRun := 0 }) hx)
        rw [Watch.criticalTaken, if_pos hcritical]
      · have hrose : x.watch.criticalRises c = false := by
          rw [Watch.criticalRises, decide_eq_false hcritical]
          rfl
        rw [if_neg hcritical, hrose]
        by_cases hpresent : x.watch.faults.present .powerCritical = true
        · rw [if_pos hpresent]
          by_cases hlast : 10 ≤ x.watch.clearRun + 1
          · rw [if_pos (show Config.clearRunMax ≤ x.watch.clearRun + 1 from hlast)]
            have h : Reacts
                (onWatch slot (fun w => Watch.reported .powerCritical false s.calendar.zoneTime { w with clearRun := 0 }) s)
                (conditionEnds slot .powerCritical (onWatch slot (fun w => { w with clearRun := 0 }) s)) :=
              reportCondition_after (present := false) (g := fun w => { w with clearRun := 0 }) hx
            refine Reacts.trans (onWatch_agree hx ?_) h
            rw [Watch.criticalTaken, if_neg hcritical, if_pos hpresent, if_pos hlast]
          · rw [if_neg (show ¬Config.clearRunMax ≤ x.watch.clearRun + 1 from hlast)]
            refine onWatch_agree hx ?_
            rw [Watch.criticalTaken, if_neg hcritical, if_pos hpresent, if_neg hlast]
        · rw [if_neg hpresent]
          refine onWatch_left hx ?_
          rw [Watch.criticalTaken, if_neg hcritical, if_neg hpresent]

/-- The last reported values of a status word (R121). -/
def Watch.reportsNoted (r : Reports) (w : Watch) : Watch := { w with lastReports := some r }

theorem reportsNoted_watches (slot : Nat) (r : Reports) :
    Watches slot (fun _ => Watch.reportsNoted r) (fun _ _ => false) (onWatch slot (Watch.reportsNoted r)) where
  blind _ := ⟨fun _ _ => rfl, fun _ => rfl, fun _ _ => rfl⟩
  reacts s := by
    cases hx : terminal s slot with
    | none =>
      rw [watched, hx, onWatch]
      refine .lookups (fun b hb => by cases b <;> first | rfl | exact absurd (by decide) hb) fun k => ?_
      rw [onTerminal_congr (g := id) (by simp [hx]), onTerminal_id]
    | some x =>
      rw [watched_some hx]
      exact .refl _

/-- The four reports of a status word (R121). -/
def Watch.reportsTaken (r : Reports) (now : Nat) (w : Watch) : Watch :=
  Watch.reportsNoted r
    (Watch.reportTaken .cardFault (r.get .cardFault) now (Watch.reportTaken .coinJam (r.get .coinJam) now
      (Watch.reportTaken .paperOut (r.get .paperOut) now (Watch.reportTaken .paperLow (r.get .paperLow) now w))))

/-- What the Fault Monitor makes of a status word but for its door. -/
def Watch.heard (word : StatusWord) (now : Nat) (w : Watch) : Watch :=
  Watch.criticalTaken word.power now (Watch.powerTaken word.power now (Watch.reportsTaken word.reports now w))

/-- A status word but for its door. -/
def takeWord (slot : Nat) (word : StatusWord) (s : State) : State :=
  criticalRun slot word.power (filterPower slot word.power (takeReports slot word.reports s))

theorem takeStatus_eq (slot : Nat) (word : StatusWord) (s : State) :
    takeStatus slot word s = takeDoor slot word.door (takeWord slot word s) := rfl

/-- The faults of a status word that enter ACTIVE. -/
def Watch.heardRises (word : StatusWord) (now : Nat) (w : Watch) : Bool :=
  let r := word.reports
  let a := Watch.reportTaken .paperLow (r.get .paperLow) now w
  let b := Watch.reportTaken .paperOut (r.get .paperOut) now a
  let c := Watch.reportTaken .coinJam (r.get .coinJam) now b
  let d := Watch.reportsTaken r now w
  w.reportRises .paperLow (r.get .paperLow) || a.reportRises .paperOut (r.get .paperOut)
    || b.reportRises .coinJam (r.get .coinJam) || c.reportRises .cardFault (r.get .cardFault) || false
    || d.powerRises word.power || (Watch.powerTaken word.power now d).criticalRises word.power

theorem takeWord_watches (slot : Nat) (word : StatusWord) :
    Watches slot (Watch.heard word) (Watch.heardRises word) (takeWord slot word) :=
  (((((takeReport_watches slot .paperLow (word.reports.get .paperLow)).comp
    (takeReport_watches slot .paperOut (word.reports.get .paperOut))).comp
    (takeReport_watches slot .coinJam (word.reports.get .coinJam))).comp
    (takeReport_watches slot .cardFault (word.reports.get .cardFault))).comp
    (reportsNoted_watches slot word.reports)).comp (filterPower_watches slot word.power) |>.comp
    (criticalRun_watches slot word.power)

/-! ### The fields after a status word -/

section fields

variable (k : ReportKind) (report : Bool) (c : PowerClass) (r : Reports) (now : Nat) (w : Watch)

theorem reportTaken_rest :
    w.reportTaken k report now
      = { w with faults := (w.reportTaken k report now).faults, filtered := (w.reportTaken k report now).filtered } := by
  rw [Watch.reportTaken]
  split <;> rfl

theorem reportTaken_filtered (j : ReportKind) :
    (w.reportTaken k report now).filtered.get j = if w.takes k report = true ∧ j = k then report else w.filtered.get j := by
  rw [Watch.reportTaken]
  cases w.takes k report
  · simp
  · simp [Watch.reported, Reports.get_set]

theorem reportTaken_faults (j : FaultKind) :
    (w.reportTaken k report now).faults.get j
      = if w.takes k report = true ∧ j = k.fault then (w.faults.get j).reported report now else w.faults.get j := by
  rw [Watch.reportTaken]
  cases w.takes k report
  · simp
  · by_cases hj : j = k.fault
    · subst hj
      simp [Watch.reported, FaultTable.get_set]
    · simp [Watch.reported, FaultTable.get_set, hj]

theorem takes_reportTaken {j : ReportKind} (h : j ≠ k) (other : Bool) :
    (w.reportTaken k report now).takes j other = w.takes j other := by
  have hlast : (w.reportTaken k report now).lastReports = w.lastReports := by rw [reportTaken_rest]
  rw [Watch.takes, Watch.takes, hlast, reportTaken_filtered, if_neg fun hboth => h hboth.2]

theorem reportsTaken_rest :
    w.reportsTaken r now
      = { w with
          faults := (w.reportsTaken r now).faults, filtered := (w.reportsTaken r now).filtered, lastReports := some r } := by
  rw [Watch.reportsTaken, Watch.reportsNoted, reportTaken_rest, reportTaken_rest .coinJam, reportTaken_rest .paperOut,
    reportTaken_rest .paperLow]

/-- A report that stands in two words is the filtered value (R121). -/
theorem reportsTaken_filtered (j : ReportKind) :
    (w.reportsTaken r now).filtered.get j = if w.takes j (r.get j) = true then r.get j else w.filtered.get j := by
  rw [Watch.reportsTaken, Watch.reportsNoted]
  cases j <;> simp [reportTaken_filtered, takes_reportTaken]

/-- A filtered value that moves moves its fault (R121). -/
theorem reportsTaken_faults (j : ReportKind) :
    (w.reportsTaken r now).faults.get j.fault
      = if w.takes j (r.get j) = true then (w.faults.get j.fault).reported (r.get j) now else w.faults.get j.fault := by
  rw [Watch.reportsTaken, Watch.reportsNoted]
  cases j <;> simp [reportTaken_faults, takes_reportTaken, ReportKind.fault]

theorem reportsTaken_others {j : FaultKind} (h : ∀ k : ReportKind, j ≠ k.fault) :
    (w.reportsTaken r now).faults.get j = w.faults.get j := by
  rw [Watch.reportsTaken, Watch.reportsNoted]
  simp only [reportTaken_faults, h, and_false, if_false]

theorem powerTaken_faults (j : FaultKind) :
    (w.powerTaken c now).faults.get j
      = if (w.lastPower = some c ∧ c ≠ w.power) ∧ j = .powerLow then (w.faults.get j).reported (decide (c = .low)) now
        else w.faults.get j := by
  rw [Watch.powerTaken]
  by_cases htakes : w.lastPower = some c ∧ c ≠ w.power
  · by_cases hj : j = .powerLow
    · subst hj
      simp [htakes, Watch.reported, FaultTable.get_set]
    · simp [htakes, Watch.reported, FaultTable.get_set, hj]
  · rw [if_neg htakes, if_neg fun h => htakes h.1]

theorem powerTaken_rest :
    w.powerTaken c now
      = { w with
          faults := (w.powerTaken c now).faults, lastPower := some c
          power := if w.lastPower = some c then c else w.power } := by
  rw [Watch.powerTaken]
  by_cases hlast : w.lastPower = some c
  · by_cases hpower : c ≠ w.power
    · simp [hlast, hpower, Watch.reported]
    · rw [not_not] at hpower
      simp [hlast, ← hpower]
  · simp [hlast]

theorem criticalTaken_faults (j : FaultKind) (h : j ≠ .powerCritical) : (w.criticalTaken c now).faults.get j = w.faults.get j := by
  rw [Watch.criticalTaken]
  split
  · simp [Watch.reported, FaultTable.get_set, h]
  · split
    · split
      · simp [Watch.reported, FaultTable.get_set, h]
      · rfl
    · rfl

theorem criticalTaken_rest :
    w.criticalTaken c now
      = { w with faults := (w.criticalTaken c now).faults, clearRun := (w.criticalTaken c now).clearRun } := by
  rw [Watch.criticalTaken]
  split
  · rfl
  · split
    · split <;> rfl
    · rfl

end fields

/-- A record whose condition is reported has the condition so. -/
theorem reported_present (present : Bool) (now : Nat) (r : FaultRecord) : (r.reported present now).state.present = present := by
  rw [FaultRecord.reported]
  split
  · next h => exact h
  · cases present with
    | true => rfl
    | false => cases r.state <;> rfl

/-! ### What a status word leaves of the watch fields -/

section heard

variable (word : StatusWord) (now : Nat) (w : Watch)

theorem fault_ne_powerLow (j : ReportKind) : j.fault ≠ .powerLow := by cases j <;> decide

theorem fault_ne_powerCritical (j : ReportKind) : j.fault ≠ .powerCritical := by cases j <;> decide

theorem fault_injective {j k : ReportKind} (h : j ≠ k) : j.fault ≠ k.fault := by
  cases j <;> cases k <;> first | exact absurd rfl h | decide

theorem heard_filtered (j : ReportKind) :
    (w.heard word now).filtered.get j = if w.takes j (word.reports.get j) = true then word.reports.get j else w.filtered.get j := by
  rw [← reportsTaken_filtered _ now, Watch.heard, criticalTaken_rest, powerTaken_rest]

theorem heard_report (j : ReportKind) :
    (w.heard word now).faults.get j.fault
      = if w.takes j (word.reports.get j) = true then (w.faults.get j.fault).reported (word.reports.get j) now
        else w.faults.get j.fault := by
  rw [← reportsTaken_faults, Watch.heard, criticalTaken_faults _ _ _ _ (fault_ne_powerCritical j), powerTaken_faults,
    if_neg fun h => fault_ne_powerLow j h.2]

theorem heard_powerLow :
    (w.heard word now).faults.get .powerLow
      = if w.lastPower = some word.power ∧ word.power ≠ w.power then
          (w.faults.get .powerLow).reported (decide (word.power = .low)) now
        else w.faults.get .powerLow := by
  have hothers : (w.reportsTaken word.reports now).faults.get .powerLow = w.faults.get .powerLow :=
    reportsTaken_others _ _ _ fun k => (fault_ne_powerLow k).symm
  rw [Watch.heard, criticalTaken_faults _ _ _ _ (by decide), powerTaken_faults, hothers, reportsTaken_rest]
  refine if_congr ?_ rfl rfl
  exact and_iff_left rfl

theorem heard_left {j : FaultKind} (hreport : ∀ k : ReportKind, j ≠ k.fault) (hlow : j ≠ .powerLow) (hcritical : j ≠ .powerCritical) :
    (w.heard word now).faults.get j = w.faults.get j := by
  rw [Watch.heard, criticalTaken_faults _ _ _ _ hcritical, powerTaken_faults, if_neg fun h => hlow h.2,
    reportsTaken_others _ _ _ hreport]

/-- POWER_CRITICAL is moved from what was held before the word. -/
theorem heard_powerCritical :
    (w.heard word now).faults.get .powerCritical = (w.criticalTaken word.power now).faults.get .powerCritical
      ∧ (w.heard word now).clearRun = (w.criticalTaken word.power now).clearRun := by
  have hfaults : (Watch.powerTaken word.power now (w.reportsTaken word.reports now)).faults.get .powerCritical
      = w.faults.get .powerCritical := by
    rw [powerTaken_faults, if_neg fun h => absurd h.2 (by decide),
      reportsTaken_others _ _ _ fun k => (fault_ne_powerCritical k).symm]
  have hrun : (Watch.powerTaken word.power now (w.reportsTaken word.reports now)).clearRun = w.clearRun := by
    rw [powerTaken_rest, reportsTaken_rest]
  rw [Watch.heard]
  generalize Watch.powerTaken word.power now (w.reportsTaken word.reports now) = v at hfaults hrun
  have hpresent : v.faults.present .powerCritical = w.faults.present .powerCritical := by
    rw [FaultTable.present, FaultTable.present, hfaults]
  rw [Watch.criticalTaken, Watch.criticalTaken, hpresent, hrun]
  split
  · simp [Watch.reported, FaultTable.get_set, hfaults]
  · split
    · split
      · simp [Watch.reported, FaultTable.get_set, hfaults]
      · exact ⟨hfaults, rfl⟩
    · exact ⟨hfaults, hrun⟩

theorem heard_rest :
    w.heard word now
      = { w with
          faults := (w.heard word now).faults, filtered := (w.heard word now).filtered
          clearRun := (w.heard word now).clearRun, lastReports := some word.reports, lastPower := some word.power
          power := if w.lastPower = some word.power then word.power else w.power } := by
  rw [Watch.heard, criticalTaken_rest, powerTaken_rest, reportsTaken_rest]

theorem reportRises_reportTaken {j k : ReportKind} (h : j ≠ k) (report other : Bool) :
    (w.reportTaken k report now).reportRises j other = w.reportRises j other := by
  rw [Watch.reportRises, Watch.reportRises, takes_reportTaken _ _ _ _ h, Watch.rises, Watch.rises, FaultTable.present,
    FaultTable.present, reportTaken_faults, if_neg fun hboth => fault_injective h hboth.2]

theorem heardRises_eq :
    w.heardRises word now
      = (w.reportRises .paperLow (word.reports.get .paperLow) || w.reportRises .paperOut (word.reports.get .paperOut)
        || w.reportRises .coinJam (word.reports.get .coinJam) || w.reportRises .cardFault (word.reports.get .cardFault)
        || w.powerRises word.power || w.criticalRises word.power) := by
  have hpower : (w.reportsTaken word.reports now).powerRises word.power = w.powerRises word.power := by
    rw [Watch.powerRises, Watch.powerRises, Watch.rises, Watch.rises, FaultTable.present, FaultTable.present,
      reportsTaken_others _ _ _ fun k => (fault_ne_powerLow k).symm, reportsTaken_rest]
  have hcritical : (Watch.powerTaken word.power now (w.reportsTaken word.reports now)).criticalRises word.power
      = w.criticalRises word.power := by
    rw [Watch.criticalRises, Watch.criticalRises, Watch.rises, Watch.rises, FaultTable.present, FaultTable.present,
      powerTaken_faults, if_neg fun h => absurd h.2 (by decide),
      reportsTaken_others _ _ _ fun k => (fault_ne_powerCritical k).symm]
  simp [Watch.heardRises, hpower, hcritical, reportRises_reportTaken]

/-- The faults that enter ACTIVE are those that are present after the word and were not before it. -/
theorem heardRises_any :
    w.heardRises word now = faultKinds.any fun k => !w.faults.present k && (w.heard word now).faults.present k := by
  have hreport (j : ReportKind) : (!w.faults.present j.fault && (w.heard word now).faults.present j.fault)
      = w.reportRises j (word.reports.get j) := by
    rw [Watch.reportRises, Watch.rises, FaultTable.present, FaultTable.present, heard_report]
    cases w.takes j (word.reports.get j)
    · simp
    · simp [reported_present, Bool.and_comm]
  have hlow : (!w.faults.present .powerLow && (w.heard word now).faults.present .powerLow) = w.powerRises word.power := by
    rw [Watch.powerRises, Watch.rises, FaultTable.present, FaultTable.present, heard_powerLow]
    by_cases htakes : w.lastPower = some word.power ∧ word.power ≠ w.power
    · rw [if_pos htakes, decide_eq_true htakes, reported_present, Bool.true_and, Bool.and_comm]
    · rw [if_neg htakes, decide_eq_false htakes, Bool.not_and_self, Bool.false_and]
  have hcritical : (!w.faults.present .powerCritical && (w.heard word now).faults.present .powerCritical)
      = w.criticalRises word.power := by
    rw [Watch.criticalRises, Watch.rises, FaultTable.present, FaultTable.present, (heard_powerCritical word now w).1,
      Watch.criticalTaken]
    by_cases hc : word.power = .critical
    · simp [hc, Watch.reported, FaultTable.get_set, reported_present]
    · rw [if_neg hc, decide_eq_false hc, Bool.false_and]
      split
      · next hpresent =>
        rw [FaultTable.present] at hpresent
        rw [hpresent]
        rfl
      · exact Bool.not_and_self _
  have hleft {j : FaultKind} (hreport : ∀ k : ReportKind, j ≠ k.fault) (hlow : j ≠ .powerLow) (hcritical : j ≠ .powerCritical) :
      (!w.faults.present j && (w.heard word now).faults.present j) = false := by
    rw [FaultTable.present, FaultTable.present, heard_left word now w hreport hlow hcritical, Bool.not_and_self]
  have hnone (j : FaultKind) (hj : j ∈ [FaultKind.linkLost, .jabber, .boxFull, .doorForced, .doorUnscheduled, .silent, .cashShort]) :
      (!w.faults.present j && (w.heard word now).faults.present j) = false := by
    fin_cases hj <;> exact hleft (fun k => by cases k <;> decide) (by decide) (by decide)
  rw [heardRises_eq, faultKinds, ← hreport .paperLow, ← hreport .paperOut, ← hreport .coinJam, ← hreport .cardFault, ← hlow, ← hcritical]
  simp only [List.any_cons, List.any_nil, hnone _ (by decide : FaultKind.linkLost ∈ _), hnone .jabber (by decide),
    hnone .boxFull (by decide), hnone .doorForced (by decide), hnone .doorUnscheduled (by decide), hnone .silent (by decide),
    hnone .cashShort (by decide), Bool.or_false, Bool.false_or, ReportKind.fault]
  ac_rfl

end heard

/-! ### The door, where it stands as it is -/

theorem takeDoor_same {slot : Nat} {reported : Door} {s : State} {x : Terminal} (hx : terminal s slot = some x)
    (h : reported = .closed ↔ x.watch.door = .closed) : takeDoor slot reported s = s := by
  rw [takeDoor, hx]
  dsimp only
  cases hd : x.watch.door with
  | closed =>
    rw [h.mpr hd]
  | opened key =>
    cases hr : reported with
    | closed =>
      rw [h.mp hr] at hd
      cases hd
    | opened other => rfl

/-- The record of a slot after a status word but for its door. -/
theorem terminal_takeWord {slot : Nat} (word : StatusWord) {s : State} {x : Terminal} (hx : terminal s slot = some x) :
    ∃ y : Terminal, terminal (takeWord slot word s) slot = some y ∧ y.watch.door = x.watch.door := by
  rcases ((takeWord_watches slot word).reacts s).slot_cases slot with ⟨hnone, -⟩ | ⟨a, b, ha, hb, hab⟩
  · rw [watched_some hx, terminal_marked, terminal_onWatch hx] at hnone
    cases hnone
  · rw [watched_some hx, terminal_marked, terminal_onWatch hx] at ha
    obtain rfl := Option.some.inj ha
    refine ⟨b, hb, ?_⟩
    have hdoor := congrArg Watch.door hab.watch
    refine hdoor.trans ?_
    show (x.watch.heard word s.calendar.zoneTime).door = x.watch.door
    rw [heard_rest]

/-- A report that is the filtered value changes nothing. -/
theorem takeReport_held {slot : Nat} {k : ReportKind} {report : Bool} {s : State} {x : Terminal} (hx : terminal s slot = some x)
    (h : report = x.watch.filtered.get k) : takeReport slot k report s = s := by
  rw [takeReport, hx]
  exact if_neg fun htakes => htakes.2 h

/-- A status word that says what is held moves the last reported values alone. -/
theorem takeWord_held {slot : Nat} {word : StatusWord} {s : State} {x : Terminal} (hx : terminal s slot = some x)
    (hreports : word.reports = x.watch.filtered) (hpower : word.power = x.watch.power) (hcritical : word.power ≠ .critical)
    (hpresent : x.watch.faults.present .powerCritical = false) :
    takeWord slot word s
      = onTerminal slot
          (fun y => { y with watch := { y.watch with lastReports := some word.reports, lastPower := some word.power } }) s := by
  have hnoted : takeReports slot word.reports s = onWatch slot (Watch.reportsNoted word.reports) s := by
    have hheld (k : ReportKind) : takeReport slot k (word.reports.get k) s = s := takeReport_held hx (by rw [hreports])
    have hlow : takeReport slot .paperLow word.reports.paperLow s = s := hheld .paperLow
    have hout : takeReport slot .paperOut word.reports.paperOut s = s := hheld .paperOut
    have hjam : takeReport slot .coinJam word.reports.coinJam s = s := hheld .coinJam
    have hcard : takeReport slot .cardFault word.reports.cardFault s = s := hheld .cardFault
    simp only [takeReports, hlow, hout, hjam, hcard]
    rfl
  have hx1 : terminal (onWatch slot (Watch.reportsNoted word.reports) s) slot
      = some { x with watch := x.watch.reportsNoted word.reports } := terminal_onWatch hx
  have hfiltered : filterPower slot word.power (onWatch slot (Watch.reportsNoted word.reports) s)
      = onWatch slot (fun v => { v with lastPower := some word.power }) (onWatch slot (Watch.reportsNoted word.reports) s) := by
    rw [filterPower, hx1]
    exact if_neg fun htakes => htakes.2 hpower
  have hx2 : terminal (onWatch slot (fun v => { v with lastPower := some word.power })
        (onWatch slot (Watch.reportsNoted word.reports) s)) slot
      = some { x with watch := { x.watch.reportsNoted word.reports with lastPower := some word.power } } := terminal_onWatch hx1
  rw [takeWord, hnoted, hfiltered, criticalRun, hx2]
  dsimp only
  rw [if_neg hcritical]
  refine (if_neg ?_).trans (onTerminal_onTerminal slot _ _ s)
  rw [show (x.watch.reportsNoted word.reports).faults = x.watch.faults from rfl, hpresent]
  exact Bool.false_ne_true

/-- Settles O49. -/
theorem statusWordsAreFiltered : Obligations.StatusWordsAreFiltered := by
  intro s slot x w hx now takes
  obtain ⟨after, hafter, hdoor⟩ := terminal_takeWord w hx
  have hsame (d : Door) (h : d = .closed ↔ x.watch.door = .closed) : takeDoor slot d (takeWord slot w s) = takeWord slot w s :=
    takeDoor_same hafter (by rw [hdoor]; exact h)
  refine ⟨?_, fun hreports hpower hcritical hpresent hclosed => ?_, fun hclosed => ⟨x.watch.heard w now, ?_⟩⟩
  · rw [takeStatus_eq, takeStatus_eq]
    exact congrArg (takeDoor slot w.door) (hsame x.watch.door Iff.rfl).symm
  · rw [takeStatus_eq, hsame w.door hclosed, takeWord_held hx hreports hpower hcritical hpresent]
  · have hreacts := (takeWord_watches slot w).reacts s
    rw [watched_some hx, heardRises_any] at hreacts
    have hrest := heard_rest w now x.watch
    have hcriticals := heard_powerCritical w now x.watch
    have hconst : Reacts (onWatch slot (fun _ => x.watch.heard w now) s) (onWatch slot (Watch.heard w now) s) :=
      onWatch_agree hx rfl
    have hall := (hconst.marked _).trans hreacts
    rw [takeStatus_eq, hsame w.door hclosed]
    refine ⟨hall, by rw [hrest], by rw [hrest], by rw [hrest], by rw [hrest],
      by rw [hrest], by rw [hrest], fun k => ?_, by rw [hrest], ?_, fun hcritical => ?_, fun hother hpresent hfew => ?_,
      fun hother hpresent hmany => ?_, fun hother habsent => ?_, fun k hk => ?_⟩
    · have hfiltered := heard_filtered w now x.watch k
      have hfault := heard_report w now x.watch k
      by_cases hboth : takes k ∧ w.reports.get k ≠ x.watch.filtered.get k
      · have hyes : x.watch.takes k (w.reports.get k) = true := decide_eq_true hboth
        rw [if_pos hyes] at hfiltered hfault
        rw [hfiltered, hfault]
        exact ⟨fun _ => rfl, fun h => absurd hboth.1 h, fun h => absurd h hboth.2, fun _ => rfl⟩
      · have hno : ¬x.watch.takes k (w.reports.get k) = true := by
          rw [Watch.takes, decide_eq_false hboth]
          exact Bool.false_ne_true
        rw [if_neg hno] at hfiltered hfault
        rw [hfiltered, hfault]
        exact ⟨fun h => (not_not.mp fun hnew => hboth ⟨h, fun heq => hnew heq.symm⟩), fun _ => rfl, fun _ => rfl,
          fun h => absurd rfl h⟩
    · have hlow := heard_powerLow w now x.watch
      have hpower : (x.watch.heard w now).power = if x.watch.lastPower = some w.power then w.power else x.watch.power := by rw [hrest]
      rw [hpower]
      refine hlow.trans ?_
      by_cases hlast : x.watch.lastPower = some w.power
      · by_cases hnew : w.power ≠ x.watch.power
        · rw [if_pos ⟨hlast, hnew⟩, if_pos hlast, if_neg hnew]
          rfl
        · rw [if_neg fun h => hnew h.2, if_pos hlast, if_pos (not_not.mp hnew)]
          rfl
      · rw [if_neg fun h => hlast h.1, if_neg hlast, if_pos rfl]
        rfl
    all_goals
      obtain ⟨hfault, hrun⟩ := hcriticals
    · rw [Watch.criticalTaken, if_pos hcritical] at hfault hrun
      exact ⟨hrun, hfault⟩
    · rw [Watch.criticalTaken, if_neg hother, if_pos (show x.watch.faults.present .powerCritical = true from hpresent),
        if_neg (by omega)] at hfault hrun
      exact ⟨hrun, hfault⟩
    · rw [Watch.criticalTaken, if_neg hother, if_pos (show x.watch.faults.present .powerCritical = true from hpresent),
        if_pos (by omega)] at hfault hrun
      exact ⟨hrun, hfault⟩
    · rw [Watch.criticalTaken, if_neg hother,
        if_neg (by rw [show x.watch.faults.present .powerCritical = false from habsent]; exact Bool.false_ne_true)] at hfault hrun
      exact ⟨hrun, hfault⟩
    · fin_cases hk <;> exact heard_left w now x.watch (fun j => by cases j <;> decide) (by decide) (by decide)

end Sys2Proof.Machine
end

section
/-!
PROOFS. The door of a status word (R102, R104, R123), and the next collection number (R108).
-/

namespace Sys2Proof.Machine

open Sys2Proof

/-! ### States that look the same slot by slot -/

/-- `t` is `u` but for the shape of its terminal table: slot by slot the two look the same. -/
structure Looks (u t : State) : Prop where
  keeps : Keeps [.terminals] u t
  same : ∀ k, terminal t k = terminal u k

namespace Looks

variable {u t v : State}

theorem reacts (h : Looks u t) : Reacts u t :=
  .lookups (fun b hb => by
    have := h.keeps b hb
    cases b <;> exact this.symm) fun k => (h.same k).symm

theorem refl (u : State) : Looks u u := ⟨fun b _ => by cases b <;> rfl, fun _ => rfl⟩

theorem trans (h : Looks u t) (h' : Looks t v) : Looks u v :=
  ⟨fun b hb => by
    have h1 := h.keeps b hb
    have h2 := h'.keeps b hb
    cases b <;> exact h2.trans h1, fun k => (h'.same k).trans (h.same k)⟩

theorem eq (h : Looks u t) : t = { u with terminals := t.terminals } := by
  obtain ⟨hkeeps, -⟩ := h
  have hone (b : Block) (hb : b ≠ .terminals) : b.same u t := hkeeps b (by simpa using hb)
  have h1 : t.calendar = u.calendar := hone .calendar (by decide)
  have h2 : t.plans = u.plans := hone .plans (by decide)
  have h3 : t.engine = u.engine := hone .engine (by decide)
  have h5 : t.sales = u.sales := hone .sales (by decide)
  have h6 : t.permits = u.permits := hone .permits (by decide)
  have h7 : t.cash = u.cash := hone .cash (by decide)
  have h8 : t.groups = u.groups := hone .groups (by decide)
  have h9 : t.line = u.line := hone .line (by decide)
  have h10 : t.journal = u.journal := hone .journal (by decide)
  have h11 : t.office = u.office := hone .office (by decide)
  have h12 : t.attention = u.attention := hone .attention (by decide)
  have h13 : t.roster = u.roster := hone .roster (by decide)
  have h14 : t.service = u.service := hone .service (by decide)
  have h15 : t.supply = u.supply := hone .supply (by decide)
  have h16 : t.freeIndex = u.freeIndex := hone .freeIndex (by decide)
  have h17 : t.pending = u.pending := hone .pending (by decide)
  obtain ⟨⟩ := t
  simp only at h1 h2 h3 h5 h6 h7 h8 h9 h10 h11 h12 h13 h14 h15 h16 h17
  subst_vars
  rfl

theorem terminals {T : Table Terminal} (hT : ∀ k, Table.find? k T = terminal u k) : Looks u { u with terminals := T } :=
  ⟨fun b hb => by cases b <;> first | rfl | exact absurd (by decide) hb, hT⟩

theorem agree {slot : Nat} {f g : Terminal → Terminal} (h : ∀ x, terminal u slot = some x → f x = g x) :
    Looks (onTerminal slot f u) (onTerminal slot g u) :=
  ⟨fun b hb => by cases b <;> first | rfl | exact absurd (by decide) hb, fun k => (onTerminal_congr h k).symm⟩

theorem onTerminal (slot : Nat) (f : Terminal → Terminal) (h : Looks u t) : Looks (onTerminal slot f u) (onTerminal slot f t) := by
  refine ⟨fun b hb => ?_, fun k => ?_⟩
  · have := h.keeps b hb
    cases b <;> first | exact this | exact absurd (by decide) hb
  · have hk := h.same k
    simp only [terminal, Machine.onTerminal, State.onTerminals_terminals, Table.find?_modify] at hk ⊢
    rw [hk]

end Looks

theorem considerSleep_looks (slot : Nat) (s : State) :
    Looks (onTerminal slot (Terminal.considered s.calendar.zoneTime) s) (considerSleep slot s) := by
  have hid : Looks (onTerminal slot id s) s :=
    ⟨fun b hb => by cases b <;> first | rfl | exact absurd (by decide) hb, fun k => (onTerminal_id slot s k).symm⟩
  rw [considerSleep]
  cases hx : terminal s slot with
  | none => exact (Looks.agree (g := id) (by simp [hx])).trans hid
  | some x =>
    dsimp only
    by_cases hsleep : maySleep s.calendar.zoneTime x = true
    · rw [if_pos hsleep]
      refine Looks.agree fun y hy => ?_
      obtain rfl : x = y := Option.some.inj (hx.symm.trans hy)
      rw [considered_eq, if_pos hsleep]
    · rw [if_neg hsleep]
      refine (Looks.agree (g := id) fun y hy => ?_).trans hid
      obtain rfl : x = y := Option.some.inj (hx.symm.trans hy)
      rw [considered_eq, if_neg hsleep]
      rfl

/-- A quote's end, slot by slot, without what is derived afresh. -/
theorem endQuote_looks (slot : Nat) (s : State) : Looks (quoteEnded slot s) (endQuote slot s) := by
  cases hx : terminal s slot with
  | none =>
    rw [quoteEnded_none hx, endQuote, hx]
    exact .refl s
  | some x =>
    rw [quoteEnded_some hx, endQuote_some hx]
    by_cases hq : x.quote = .none
    · rw [if_pos hq, hq]
      exact .refl _
    · rw [if_neg hq]
      have h := considerSleep_looks slot
        (onTerminal slot (fun y => { y.without NoticeBody.isResult with quote := .none }) (quoteDropped slot x.quote s))
      rw [onTerminal_onTerminal, show (onTerminal slot (fun y => { y.without NoticeBody.isResult with quote := .none })
        (quoteDropped slot x.quote s)).calendar = s.calendar from quoteDropped_calendar slot x.quote s] at h
      refine Looks.trans (Looks.agree fun y _ => ?_) h
      rw [Terminal.quoteClosed, if_neg hq]

theorem terminal_quoteDropped (slot : Nat) (q : QuoteSlot) (s : State) (k : Nat) :
    terminal (quoteDropped slot q s) k = terminal s k := by
  cases q <;> rfl

theorem terminal_quoteEnded {slot : Nat} {s : State} {x : Terminal} (hx : terminal s slot = some x) :
    terminal (quoteEnded slot s) slot = some (x.quoteClosed s.calendar.zoneTime x.quote) := by
  rw [quoteEnded_some hx]
  exact terminal_onTerminal_self ((terminal_quoteDropped slot x.quote s slot).trans hx)

theorem considered_cash (now : Nat) (x : Terminal) : (x.considered now).cash = x.cash := by
  rw [Terminal.considered]
  split <;> rfl

theorem quoteClosed_cash (now : Nat) (q : QuoteSlot) (x : Terminal) : (x.quoteClosed now q).cash = x.cash := by
  rw [Terminal.quoteClosed]
  split
  · rfl
  · exact considered_cash now _

theorem quoteEnded_cash (slot : Nat) (s : State) : (quoteEnded slot s).cash = s.cash := by
  unfold quoteEnded
  split
  · rfl
  · dsimp only
    split <;> rfl

/-! ### The closing of a door (R123) -/

theorem closeDoor_reacts (slot : Nat) (s : State) :
    Reacts
      (onTerminal slot (Terminal.considered s.calendar.zoneTime)
        (reportFault slot .doorForced false
          (onTerminal slot (fun y => { y with watch := { y.watch with door := .closed } }) s)))
      (closeDoor slot s) := by
  have hended := (conditionEnds_reacts slot .doorForced (onWatch slot (fun w => { w with door := .closed }) s)).trans
    (deriveService_reacts slot _)
  have hsleep := considerSleep_reacts slot
    (deriveService slot (conditionEnds slot .doorForced (onWatch slot (fun w => { w with door := .closed }) s)))
  have hnow : (deriveService slot (conditionEnds slot .doorForced (onWatch slot (fun w => { w with door := .closed }) s))).calendar
      = s.calendar :=
    ((deriveService_derives slot _).calendar).trans (conditionEnds_derives slot .doorForced _).calendar
  rw [hnow] at hsleep
  exact (reacts_onBoth slot _ (fun _ _ h => h.considered s.calendar.zoneTime) hended).trans hsleep

/-! ### The opening of a door (R102, R104, R123) -/

/-- A terminal's door opens: a waiting SLEEP is withdrawn and its quote ends. -/
def doorOpened (slot : Nat) (key : DoorKey) (s : State) : State :=
  quoteEnded slot
    (onTerminal slot (Terminal.without NoticeBody.isSleep)
      (onTerminal slot (fun y => { y with watch := { y.watch with door := .opened key } }) s))

theorem openDoor_looks (slot : Nat) (key : DoorKey) (s : State) :
    Looks (doorOpened slot key s)
      (endQuote slot (withdrawSleep slot (onWatch slot (fun w => { w with door := .opened key }) s))) :=
  endQuote_looks slot _

theorem doorOpened_cash (slot : Nat) (key : DoorKey) (s : State) : (doorOpened slot key s).cash = s.cash :=
  quoteEnded_cash slot _

theorem doorOpened_calendar (slot : Nat) (key : DoorKey) (s : State) : (doorOpened slot key s).calendar = s.calendar :=
  quoteEnded_calendar slot _

theorem doorOpened_journal (slot : Nat) (key : DoorKey) (s : State) : (doorOpened slot key s).journal = s.journal := by
  unfold doorOpened quoteEnded
  split
  · rfl
  · dsimp only
    split <;> rfl

/-- An opened door leaves the cash fields of its terminal as they were. -/
theorem terminal_doorOpened {slot : Nat} (key : DoorKey) {s : State} {x : Terminal} (hx : terminal s slot = some x) :
    ∃ y, terminal (doorOpened slot key s) slot = some y ∧ y.cash = x.cash :=
  ⟨_, terminal_quoteEnded (terminal_onTerminal_self (terminal_onTerminal_self hx)), quoteClosed_cash _ _ _⟩

/-- The state as a cut leaves it, but for the terminal's own cash fields (R104). -/
def cutTaken (record : Collection) (r : Round) (u : State) : State :=
  { u with
    cash :=
      { u.cash with
        collections := u.cash.collections ++ [record]
        nextCollection := advanceCollection (u.cash.collections ++ [record]) record.number
        round := some (r.visit record.slot) }
    journal := { u.journal with reservation := u.journal.reservation - 1 } }

/-- A cut, slot by slot (R104). -/
theorem cutTally_looks {u b : State} (slot key : Nat) (y : Terminal) (r : Round) (h : Looks u b) :
    Looks
      (onTerminal slot
        (fun z =>
          { z with
            cash := { z.cash with collected := z.cash.collected.add z.cash.tally, tally := .zero, lastCut := u.calendar.zoneTime } })
        (shown (recorded (.collection (newCollection u slot key y)) (cutTaken (newCollection u slot key y) r u))))
      (cutTally slot key y r b) := by
  obtain ⟨T, rfl, hT⟩ : ∃ T, b = { u with terminals := T } ∧ ∀ k, Table.find? k T = terminal u k :=
    ⟨b.terminals, h.eq, h.same⟩
  have hcut : cutTally slot key y r { u with terminals := T }
      = onTerminal slot (fun z => { z with cash := z.cash.cut u.calendar.zoneTime })
          { shown (recorded (.collection (newCollection u slot key y)) (cutTaken (newCollection u slot key y) r u)) with
            terminals := T } := by
    rw [cutTally, appendReserved, refresh_eq_shown]
    rfl
  rw [hcut]
  exact Looks.onTerminal slot _ (Looks.terminals hT)

/-- A collector's key at a door: what its opening reacts to (R102). -/
theorem collectorOpening_unscheduled {slot key : Nat} {s : State} {x : Terminal} (hx : terminal s slot = some x)
    (h : ∀ r ∈ s.cash.round, slot ∉ r.entries.map (·.slot) ∨ key ≠ r.key) :
    collectorOpening slot key s = raiseEventFault slot .doorUnscheduled s := by
  rw [collectorOpening, hx]
  dsimp only
  cases hround : s.cash.round with
  | none => rfl
  | some r =>
    dsimp only
    cases hentry : roundEntry r slot with
    | none => rfl
    | some e =>
      have hmem : slot ∈ r.entries.map (·.slot) :=
        List.mem_map.mpr ⟨e, List.mem_of_find?_eq_some hentry, of_decide_eq_true (List.find?_some (p := fun e : RoundEntry => decide (e.slot = slot)) hentry)⟩
      exact if_pos ((h r hround).resolve_left fun hn => hn hmem)

theorem collectorOpening_scheduled {slot key : Nat} {s : State} {x : Terminal} {r : Round} {e : RoundEntry}
    (hx : terminal s slot = some x) (hround : s.cash.round = some r) (hkey : key = r.key)
    (hentry : (r.entries.find? fun y => y.slot = slot) = some e) :
    collectorOpening slot key s = if e.state = .pending then cut slot key x r s else s := by
  have hentry' : roundEntry r slot = some e := hentry
  rw [collectorOpening, hx]
  simp only [hround, hentry', hkey, ne_eq, not_true_eq_false, if_false]

theorem takeDoor_opens {slot : Nat} {s : State} {x : Terminal} {reported : Door} {key : DoorKey}
    (hx : terminal s slot = some x) (hclosed : x.watch.door = .closed) (hrep : reported = .opened key) :
    takeDoor slot reported s = openDoor slot key s := by
  rw [takeDoor, hx]
  simp only [hclosed, hrep]

/-- A collector's key at a door: the openings that no open round expects, the ones that cut, and the rest (R102, R104). -/
theorem collectorDoor_reacts {slot : Nat} {s : State} {x : Terminal} (hx : terminal s slot = some x) (key : Nat) :
    let u := doorOpened slot (.collector key) s
    ((∀ r ∈ s.cash.round, slot ∉ r.entries.map (·.slot) ∨ key ≠ r.key) →
        Reacts (raiseFault slot .doorUnscheduled u) (openDoor slot (.collector key) s))
      ∧ ∀ (r : Round) (e : RoundEntry), s.cash.round = some r → key = r.key →
          (r.entries.find? fun y => y.slot = slot) = some e →
            (e.state ≠ .pending → Reacts u (openDoor slot (.collector key) s))
              ∧ (e.state = .pending →
                Reacts
                  (reportFault slot .boxFull false
                    (onTerminal slot
                      (fun z =>
                        { z with
                          cash :=
                            { z.cash with
                              collected := z.cash.collected.add z.cash.tally, tally := .zero,
                              lastCut := s.calendar.zoneTime } })
                      (shown (recorded (.collection (newCollection s slot key x)) (cutTaken (newCollection s slot key x) r u)))))
                  (openDoor slot (.collector key) s)) := by
  have hlooks := openDoor_looks slot (.collector key) s
  obtain ⟨y, hy, hycash⟩ := terminal_doorOpened (.collector key) hx
  have hcash := doorOpened_cash slot (.collector key) s
  have hcal := doorOpened_calendar slot (.collector key) s
  have hopen : openDoor slot (.collector key) s
      = deriveService slot (collectorOpening slot key
          (endQuote slot (withdrawSleep slot (onWatch slot (fun w => { w with door := .opened (.collector key) }) s)))) := rfl
  rw [hopen]
  generalize endQuote slot (withdrawSleep slot (onWatch slot (fun w => { w with door := .opened (.collector key) }) s)) = b
    at hlooks
  generalize doorOpened slot (.collector key) s = u at hlooks hy hcash hcal
  have hb : terminal b slot = some y := (hlooks.same slot).trans hy
  have hround : b.cash.round = s.cash.round := by rw [hlooks.keeps .cash (by decide), hcash]
  have hrecord : newCollection u slot key y = newCollection s slot key x := by
    rw [newCollection, newCollection, hcash, hcal, hycash]
  refine ⟨fun hout => ?_, fun r e hr hkey hentry => ⟨fun hdone => ?_, fun hpending => ?_⟩⟩
  · rw [collectorOpening_unscheduled hb (hround ▸ hout)]
    exact ((hlooks.reacts.raiseFault slot .doorUnscheduled).trans (raiseEventFault_reacts slot .doorUnscheduled b)).trans
      (deriveService_reacts slot _)
  · rw [collectorOpening_scheduled hb (hround.trans hr) hkey hentry, if_neg hdone]
    exact hlooks.reacts.trans (deriveService_reacts slot _)
  · rw [collectorOpening_scheduled hb (hround.trans hr) hkey hentry, if_pos hpending, cut]
    have hcut := cutTally_looks slot key y r hlooks
    rw [hrecord, hcal] at hcut
    exact ((hcut.reacts.reportFault slot .boxFull false).trans (conditionEnds_reacts slot .boxFull _)).trans
      (deriveService_reacts slot _)

/-! ### The next collection number (R108) -/

theorem passOver_spec (held : List Nat) (fuel n : Nat) :
    ∃ k ≤ fuel, passOver held fuel n = nextCounter^[k] n ∧ (k < fuel → nextCounter^[k] n ∉ held)
      ∧ ∀ j < k, nextCounter^[j] n ∈ held := by
  induction fuel generalizing n with
  | zero => exact ⟨0, le_rfl, rfl, fun h => absurd h (lt_irrefl 0), fun j hj => absurd hj (Nat.not_lt_zero j)⟩
  | succ fuel ih =>
    rw [passOver]
    by_cases hheld : held.contains n = true
    · obtain ⟨k, hk, hpass, hfree, hbefore⟩ := ih (nextCounter n)
      rw [if_pos hheld]
      refine ⟨k + 1, by omega, hpass, fun h => hfree (by omega), fun j hj => ?_⟩
      cases j with
      | zero => exact List.contains_iff_mem.mp hheld
      | succ j => exact hbefore j (by omega)
    · rw [if_neg hheld]
      exact ⟨0, by omega, rfl, fun _ hn => hheld (List.contains_iff_mem.mpr hn), fun j hj => absurd hj (Nat.not_lt_zero j)⟩

/-- The counter runs through 1 to 65 535. -/
theorem iterate_nextCounter {m : Nat} (h1 : 1 ≤ m) (h2 : m ≤ 65535) (j : Nat) :
    nextCounter^[j] m = (m - 1 + j) % 65535 + 1 := by
  induction j with
  | zero => rw [Function.iterate_zero, id]; omega
  | succ j ih =>
    rw [Function.iterate_succ_apply', ih, nextCounter]
    split <;> omega

/-- A list that holds a run of counter values is at least as long as the run. -/
theorem run_le_length {held : List Nat} {m k : Nat} (h1 : 1 ≤ m) (h2 : m ≤ 65535) (hk : k ≤ 65535)
    (h : ∀ j < k, nextCounter^[j] m ∈ held) : k ≤ held.length := by
  have hinj : Set.InjOn (fun j => nextCounter^[j] m) (Finset.range k) := by
    intro i hi j hj hij
    simp only [Finset.coe_range, Set.mem_Iio] at hi hj
    simp only [iterate_nextCounter h1 h2] at hij
    omega
  calc k = ((Finset.range k).image fun j => nextCounter^[j] m).card := by
        rw [Finset.card_image_of_injOn hinj, Finset.card_range]
    _ ≤ held.toFinset.card := by
        refine Finset.card_le_card fun v hv => ?_
        obtain ⟨j, hj, rfl⟩ := Finset.mem_image.mp hv
        exact List.mem_toFinset.mpr (h j (Finset.mem_range.mp hj))
    _ ≤ held.length := List.toFinset_card_le held

/-- The counter goes on to the first number that no record holds. -/
theorem advanceCollection_spec {records : List Collection} (n : Nat) (hlen : records.length ≤ 65) :
    ∃ k, advanceCollection records n = nextCounter^[k + 1] n ∧ nextCounter^[k + 1] n ∉ records.map (·.number)
      ∧ ∀ j < k, nextCounter^[j + 1] n ∈ records.map (·.number) := by
  obtain ⟨k, hk, hpass, hfree, hbefore⟩ := passOver_spec (records.map (·.number)) (Config.maxCollections + 1) (nextCounter n)
  refine ⟨k, hpass, fun hheld => ?_, hbefore⟩
  have hfuel : Config.maxCollections + 1 = 65 := rfl
  have hlast : k = 65 := by
    by_contra hne
    exact hfree (by omega) hheld
  have hm : 1 ≤ nextCounter n ∧ nextCounter n ≤ 65535 := by
    rw [nextCounter]
    split <;> omega
  have hrun : 66 ≤ (records.map (·.number)).length := by
    refine run_le_length hm.1 hm.2 (by omega) fun j hj => ?_
    rcases Nat.lt_or_ge j k with hlt | hge
    · exact hbefore j hlt
    · obtain rfl : j = k := by omega
      exact hheld
  rw [List.length_map] at hrun
  omega

/-- Settles O50. -/
theorem doorsAreTaken : Obligations.DoorsAreTaken := by
  unfold Obligations.DoorsAreTaken
  refine ⟨fun s slot x reported hx => ?_, fun records n hlen => advanceCollection_spec n hlen⟩
  dsimp only
  refine ⟨fun hsame => ?_, fun key hopen hrep => ?_, fun hclosed hrep => ?_, fun hclosed hrep => ?_, fun key hclosed hrep => ?_⟩
  · rw [takeDoor, hx]
    dsimp only
    cases hdoor : x.watch.door <;> cases reported <;> simp_all
  · rw [takeDoor, hx]
    simp only [hopen, hrep]
    exact closeDoor_reacts slot s
  · rw [takeDoor_opens hx hclosed hrep]
    exact (openDoor_looks slot _ s).reacts.trans (deriveService_reacts slot _)
  · rw [takeDoor_opens hx hclosed hrep]
    exact (((openDoor_looks slot _ s).reacts.reportFault slot .doorForced true).trans
      (conditionRises_reacts slot .doorForced _)).trans (deriveService_reacts slot _)
  · rw [takeDoor_opens hx hclosed hrep]
    have h := collectorDoor_reacts hx key
    dsimp only [cutTaken] at h
    rw [doorOpened_cash, doorOpened_journal] at h
    exact h

end Sys2Proof.Machine
end

section
/-!
PROOFS. Quotes: a QUOTE's checks and its acceptance (R35, R56, R57, R85), and a walk's completion (R37, R58 to R61, R88).
-/

namespace Sys2Proof.Machine

open Sys2Proof

/-! ### The checks of a QUOTE (R56, R85) -/

/-- A check that does not fail, ahead of the others. -/
theorem Decides.skip {α : Type} {p : Prop} {b : α} {rest : List (Prop × α)} {y : Option α} (hp : ¬p) (h : Decides rest y) :
    Decides ((p, b) :: rest) y := by
  cases y with
  | none => exact ⟨hp, h⟩
  | some a => exact .inr ⟨hp, h⟩

/-- What a QUOTE asks for, where its kind is one of the two. -/
def askedFor (kind amount : Nat) : Ask := if kind = 1 then .byAmount amount else .byDuration amount

theorem withinDates_false (p : Permit) (day : Nat) : withinDates p day = false ↔ day < p.firstDay ∨ p.lastDay < day := by
  rw [withinDates, Bool.and_eq_false_iff, decide_eq_false_iff_not, decide_eq_false_iff_not, Nat.not_le, Nat.not_le]

theorem plateAdmits_false (p : Permit) (plate : Option Plate) :
    plateAdmits p plate = false ↔ p.plate ≠ none ∧ p.plate ≠ plate := by
  rw [plateAdmits, Bool.or_eq_false_iff, decide_eq_false_iff_not, decide_eq_false_iff_not]

/-- The checks of a QUOTE's permit decide its refusal. -/
theorem permitChecks_decided {s : State} {number : Nat} (slot group : Nat) (plate : Plate) (h : number ≠ 0) :
    Decides
      [(number ≠ 0 ∧ Table.find? number s.permits = none, .permitUnknown),
        (number ≠ 0 ∧ ∃ p ∈ Table.find? number s.permits, p.suspended = true ∨ today s < p.firstDay ∨ p.lastDay < today s,
          .permitNotValid),
        (number ≠ 0 ∧ ∃ p ∈ Table.find? number s.permits, group ∉ p.zones, .permitNotInZone),
        (number ≠ 0 ∧ ∃ p ∈ Table.find? number s.permits, p.plate ≠ none ∧ p.plate ≠ plateOf plate, .permitPlate),
        (number ≠ 0 ∧ ∃ p ∈ Table.find? number s.permits, ∃ h ∈ p.hold, h.owner ≠ slot, .permitBusy)]
      (permitChecks s number slot group (plateOf plate)).getLeft? := by
  rw [permitChecks]
  cases hp : Table.find? number s.permits with
  | none => exact .inl ⟨⟨h, rfl⟩, rfl⟩
  | some p =>
    have hsome {P : Permit → Prop} : (number ≠ 0 ∧ ∃ x ∈ some p, P x) ↔ P p := by simp [h]
    simp only [apply_ite Sum.getLeft?, Sum.getLeft?_inl, Sum.getLeft?_inr]
    refine .skip (by simp) (.cons (hsome.trans ?_) fun _ => .cons (hsome.trans ?_) fun _ => .cons (hsome.trans ?_) fun _ =>
      .cons (hsome.trans ?_) fun _ => .nil)
    · rw [Bool.or_eq_true, Bool.not_eq_true', withinDates_false]
    · simp
    · rw [Bool.not_eq_true', plateAdmits_false]
    · cases p.hold <;> simp

theorem askOf_eq (kind amount : Nat) :
    askOf kind amount
      = if kind ≠ 1 ∧ kind ≠ 2 then none
        else if kind = 2 ∧ (amount < 1 ∨ 1440 < amount) then none
        else some (askedFor kind amount) := by
  by_cases h1 : kind = 1
  · subst h1
    rfl
  by_cases h2 : kind = 2
  · subst h2
    by_cases hrange : amount < 1 ∨ 1440 < amount
    · have hout : ¬(1 ≤ amount ∧ amount ≤ 1440) := by omega
      rw [if_neg (fun h => h.2 rfl), if_pos ⟨rfl, hrange⟩]
      exact if_neg hout
    · have hin : 1 ≤ amount ∧ amount ≤ 1440 := by omega
      rw [if_neg (fun h => h.2 rfl), if_neg (fun h => hrange h.2)]
      exact if_pos hin
  · rw [if_pos ⟨h1, h2⟩]
    unfold askOf
    split <;> simp_all

/-- The permit part of a QUOTE's checks. -/
def permitPart (s : State) (slot group permit : Nat) (plate : Plate) (ask : Ask) : Code ⊕ (Ask × Option (Nat × PermitKind)) :=
  if permit = 0 then .inr (ask, none)
  else (permitChecks s permit slot group (plateOf plate)).map id fun k => (ask, some (permit, k))

/-- The checks of a QUOTE, one after the other. -/
theorem quoteChecks_eq (s : State) (slot : Nat) (t : Terminal) (kind amount permit : Nat) (plate : Plate) :
    quoteChecks s slot t kind amount permit plate
      = if s.calendar.clockSet = false then .inl .noClock
        else if freeSpace s ≤ 32 then .inl .salesHalted
        else if t.watch.service = .outOfService then .inl .outOfService
        else if kind ≠ 1 ∧ kind ≠ 2 then .inl .badQuote
        else if kind = 2 ∧ (amount < 1 ∨ 1440 < amount) then .inl .badQuote
        else if plateGood plate = false then .inl .badQuote
        else if (kind = 2 ∧ t.link.level.getD 0 < 2) ∨ ((permit ≠ 0 ∨ plate ≠ []) ∧ t.link.level.getD 0 < 3) then .inl .notAtLevel
        else if t.plans.current = none then .inl .noPlan
        else if kind = 1 ∧ amount = 0 ∧ permit = 0 then .inl .noTender
        else permitPart s slot t.config.group permit plate (askedFor kind amount) := by
  have hhalted : (salesHalted s = true) = (freeSpace s ≤ 32) := decide_eq_true_eq
  have hpart (ask : Ask) :
      (match permitOf permit with
        | none => (.inr (ask, none) : Code ⊕ (Ask × Option (Nat × PermitKind)))
        | some number =>
          match permitChecks s number slot t.config.group (plateOf plate) with
          | .inl code => .inl code
          | .inr k => .inr (ask, some (number, k)))
        = permitPart s slot t.config.group permit plate ask := by
    rw [permitPart, permitOf]
    split <;> rename_i hn
    · by_cases h0 : permit = 0 <;> simp_all
    · by_cases h0 : permit = 0
      · simp [h0] at hn
      · obtain rfl : permit = _ := by simpa [h0] using hn
        rw [if_neg h0]
        cases permitChecks s permit slot t.config.group (plateOf plate) <;> rfl
  have hnamed : (permitOf permit).isSome = true ↔ permit ≠ 0 := by
    rw [permitOf]
    split <;> simp_all
  have hplate : (!plate.isEmpty) = true ↔ plate ≠ [] := by simp
  rw [quoteChecks]
  simp only [hhalted, askOf_eq, Bool.not_eq_true', Bool.or_eq_true, Bool.and_eq_true, decide_eq_true_eq, hnamed, hplate]
  refine if_congr Iff.rfl rfl (if_congr Iff.rfl rfl (if_congr Iff.rfl rfl ?_))
  by_cases hkind : kind ≠ 1 ∧ kind ≠ 2
  · simp only [if_pos hkind]
  by_cases hrange : kind = 2 ∧ (amount < 1 ∨ 1440 < amount)
  · simp only [if_neg hkind, if_pos hrange]
  simp only [if_neg hkind, if_neg hrange]
  have hask : kind = 1 ∨ kind = 2 := by omega
  refine if_congr Iff.rfl rfl (if_congr ?_ rfl (if_congr Iff.rfl rfl (if_congr ?_ rfl (hpart _))))
  · rw [and_comm (a := t.link.level.getD 0 < 2), and_comm (a := t.link.level.getD 0 < 3)]
  · rw [askedFor, permitOf]
    rcases hask with rfl | rfl <;> simp

/-- The checks of a QUOTE decide its refusal. -/
theorem quoteChecks_decided (s : State) (slot : Nat) (t : Terminal) (kind amount permit : Nat) (plate : Plate) :
    Decides (quoteTable slot t kind amount permit plate s) (quoteChecks s slot t kind amount permit plate).getLeft? := by
  rw [quoteChecks_eq]
  simp only [apply_ite Sum.getLeft?, Sum.getLeft?_inl]
  refine .cons Iff.rfl fun _ => .cons Iff.rfl fun _ => .cons Iff.rfl fun _ => .cons Iff.rfl fun _ => .cons Iff.rfl fun _ =>
    .cons Iff.rfl fun _ => .cons Iff.rfl fun _ => .cons Iff.rfl fun _ => .cons Iff.rfl fun _ => ?_
  by_cases h0 : permit = 0
  · rw [permitPart, if_pos h0]
    simp only [h0, ne_eq, not_true_eq_false, false_and]
    exact .skip id (.skip id (.skip id (.skip id (.skip id .nil))))
  · have h := permitChecks_decided (s := s) slot t.config.group plate h0
    rw [permitPart, if_neg h0]
    cases hc : permitChecks s permit slot t.config.group (plateOf plate) with
    | inl code =>
      rw [hc] at h
      exact h
    | inr k =>
      rw [hc] at h
      exact h

theorem permitChecks_kind {s : State} {number slot group : Nat} {plate : Option Plate} {k : PermitKind}
    (h : permitChecks s number slot group plate = .inr k) : (Table.find? number s.permits).map (·.kind) = some k := by
  rw [permitChecks] at h
  cases hp : Table.find? number s.permits with
  | none => rw [hp] at h; cases h
  | some p =>
    rw [hp] at h
    dsimp only at h
    split_ifs at h
    exact congrArg some (Sum.inr.inj h)

/-- What the checks of a QUOTE hand over where none fails: what it asks for, and its permit with its kind. -/
theorem quoteChecks_passed {s : State} {slot : Nat} {t : Terminal} {kind amount permit : Nat} {plate : Plate}
    {r : Ask × Option (Nat × PermitKind)} (h : quoteChecks s slot t kind amount permit plate = .inr r) :
    r = (askedFor kind amount,
      (Table.find? permit s.permits).bind fun p => if permit = 0 then none else some (permit, p.kind)) := by
  rw [quoteChecks_eq] at h
  split_ifs at h
  rw [permitPart] at h
  by_cases h0 : permit = 0
  · rw [if_pos h0] at h
    obtain rfl := Sum.inr.inj h
    simp [h0]
  · rw [if_neg h0] at h
    cases hc : permitChecks s permit slot t.config.group (plateOf plate) with
    | inl code => rw [hc] at h; cases h
    | inr k =>
      rw [hc] at h
      obtain rfl := Sum.inr.inj h
      obtain ⟨p, hp, rfl⟩ := Option.map_eq_some_iff.mp (permitChecks_kind hc)
      simp [hp, h0]

/-! ### A walk begins (R37, R40) -/

theorem beginWalk_idle {u : State} (hwalk : u.engine.walk = none) (hqueue : u.engine.queue = []) : beginWalk u = u := by
  rw [beginWalk, hwalk, hqueue]

theorem beginWalk_busy {u : State} {f : Walk} (hwalk : u.engine.walk = some f) : beginWalk u = u := by
  rw [beginWalk, hwalk]

theorem beginWalk_head {u : State} {e : QueueEntry} {rest : List QueueEntry} {x : Terminal} (hwalk : u.engine.walk = none)
    (hqueue : u.engine.queue = e :: rest) (hx : terminal u e.slot = some x) :
    beginWalk u
      = { onTerminal e.slot (fun y => { y with quote := .walking e.quoteId }) u with
          engine :=
            { queue := rest
              walk :=
                some
                  { entry := e, current := x.plans.current, pending := x.plans.pending, offset := u.calendar.offset,
                    a0 := (e.permit.map fun p => allowanceTaken u.permits p.1).getD 0, discard := false,
                    reading := u.calendar.holidays, past := [] } } } := by
  rw [beginWalk, hwalk, hqueue]
  dsimp only
  rw [hx]
  rfl

/-! ### A QUOTE is accepted (R35, R57) -/

/-- The permits as the acceptance of a QUOTE leaves them, given the quote that stood. -/
def permitsFreed (slot : Nat) (q : QuoteSlot) (permits : Table Permit) : Table Permit :=
  match q with
  | .opened q => released slot q permits
  | _ => permits

/-- The walk in flight as the acceptance of a QUOTE leaves it, given the quote that stood. -/
def walkKept (slot : Nat) (q : QuoteSlot) (f : Walk) : Walk :=
  match q with
  | .walking _ => if f.entry.slot = slot then { f with discard := true } else f
  | _ => f

theorem supersede_eq (slot : Nat) (q : QuoteSlot) (s : State) :
    supersede slot q s
      = { s with
          permits := permitsFreed slot q s.permits
          engine := { s.engine with walk := s.engine.walk.map (walkKept slot q) } } := by
  have hid : s.engine.walk.map (fun f => f) = s.engine.walk := Option.map_id'
  cases q with
  | none | queued _ =>
    show s = { s with engine := { s.engine with walk := s.engine.walk.map fun f => f } }
    rw [hid]
  | walking _ => rfl
  | opened q =>
    rw [supersede, releaseQuote_eq]
    show s.onPermits (released slot q)
      = { s.onPermits (released slot q) with engine := { s.engine with walk := s.engine.walk.map fun f => f } }
    rw [hid]
    rfl

/-- A slot's record once a QUOTE with this id is accepted. -/
def Terminal.quoting (id : Nat) (q : QuoteSlot) (y : Terminal) : Terminal :=
  { y with
    quote := q
    nextQuoteId := if 255 ≤ id then 1 else id + 1
    closed := none
    link := { y.link with queue := y.link.queue.filter fun n => !n.body.isResult && !n.body.isSleep } }

/-- The walk queue's entry of an accepted QUOTE. -/
def entryOf (slot : Nat) (t : Terminal) (ask : Ask) (permit : Option (Nat × PermitKind)) (plate : Option Plate) (s : State) :
    QueueEntry :=
  { slot := slot, quoteId := t.nextQuoteId, start := s.calendar.zoneTime / 60 * 60, ask := ask, permit := permit, plate := plate }

/-- An accepted QUOTE, before its walk may begin. -/
def quotePlaced (slot : Nat) (t : Terminal) (e : QueueEntry) (s : State) : State :=
  { onTerminal slot (Terminal.quoting t.nextQuoteId (.queued t.nextQuoteId)) s with
    permits := permitsFreed slot t.quote s.permits
    engine := { queue := placeEntry e s.engine.queue, walk := s.engine.walk.map (walkKept slot t.quote) } }

theorem acceptQuote_eq {slot : Nat} {t : Terminal} {s : State} (hwf : Table.wf s.terminals = true) (ht : terminal s slot = some t)
    (ask : Ask) (permit : Option (Nat × PermitKind)) (plate : Option Plate) :
    acceptQuote slot t ask permit plate s = beginWalk (quotePlaced slot t (entryOf slot t ask permit plate s) s) := by
  have hmerge : onTerminal slot
        (fun t => { t with quote := .queued t.nextQuoteId, nextQuoteId := nextQuoteId t.nextQuoteId, closed := none })
        (withdrawSleep slot (withdrawResult slot s))
      = onTerminal slot (Terminal.quoting t.nextQuoteId (.queued t.nextQuoteId)) s := by
    refine (congrArg _ (onTerminal_onTerminal slot _ _ s)).trans ((onTerminal_onTerminal slot _ _ s).trans (onTerminal_eq hwf ?_))
    intro y hy
    obtain rfl : t = y := Option.some.inj (ht.symm.trans hy)
    simp only [Terminal.quoting, withdraw, List.filter_filter, nextQuoteId]
    congr 4
    exact funext fun n => Bool.and_comm _ _
  rw [acceptQuote, supersede_eq, quotePlaced, ← hmerge]
  rfl

theorem placeEntry_eq (e : QueueEntry) (q : List QueueEntry) :
    placeEntry e q
      = if e.slot ∈ q.map (·.slot) then q.map fun y => if y.slot = e.slot then e else y else q ++ [e] := by
  rw [placeEntry]
  refine if_congr ?_ rfl rfl
  simp [List.any_eq_true]

theorem queueResult_eq (slot : Nat) (body : NoticeBody) (s : State) :
    queueResult slot body s = onTerminal slot (Terminal.told NoticeBody.isResult body) s := by
  rw [queueResult, onQueue, onLink]
  simp only [joinQueue_eq]
  rfl

theorem terminal_quotePlaced {slot : Nat} {t : Terminal} (e : QueueEntry) {s : State} (ht : terminal s slot = some t) :
    terminal (quotePlaced slot t e s) slot = some (t.quoting t.nextQuoteId (.queued t.nextQuoteId)) :=
  terminal_onTerminal_self ht

/-- An accepted QUOTE begins its walk where none is in flight. -/
theorem quotePlaced_begins {slot : Nat} {t : Terminal} {e : QueueEntry} {s : State} {ask : Ask}
    {permit : Option (Nat × PermitKind)} {plate : Option Plate} (ht : terminal s slot = some t)
    (he : e = entryOf slot t ask permit plate s) (hwalk : s.engine.walk = none) (hqueue : s.engine.queue = []) :
    beginWalk (quotePlaced slot t e s)
      = { onTerminal slot (Terminal.quoting t.nextQuoteId (.walking t.nextQuoteId)) s with
          permits := permitsFreed slot t.quote s.permits
          engine :=
            { queue := []
              walk :=
                some
                  { entry := e, current := t.plans.current, pending := t.plans.pending, offset := s.calendar.offset,
                    a0 := (e.permit.map fun p => allowanceTaken (permitsFreed slot t.quote s.permits) p.1).getD 0, discard := false,
                    reading := s.calendar.holidays, past := [] } } } := by
  obtain rfl : slot = e.slot := congrArg QueueEntry.slot he.symm
  have hid : e.quoteId = t.nextQuoteId := congrArg QueueEntry.quoteId he
  have hnone : (quotePlaced e.slot t e s).engine.walk = none := by rw [quotePlaced, hwalk]; rfl
  have hhead : (quotePlaced e.slot t e s).engine.queue = e :: [] := by rw [quotePlaced, hqueue]; rfl
  have hmerge : onTerminal e.slot (fun y => { y with quote := .walking e.quoteId })
        (onTerminal e.slot (Terminal.quoting t.nextQuoteId (.queued t.nextQuoteId)) s)
      = onTerminal e.slot (Terminal.quoting t.nextQuoteId (.walking t.nextQuoteId)) s := by
    rw [hid]
    exact onTerminal_onTerminal e.slot _ _ s
  rw [beginWalk_head hnone hhead (terminal_quotePlaced e ht), ← hmerge]
  rfl

/-- An accepted QUOTE waits where a walk is in flight. -/
theorem quotePlaced_waits {slot : Nat} {t : Terminal} {e : QueueEntry} {s : State} {f : Walk} {ask : Ask}
    {permit : Option (Nat × PermitKind)} {plate : Option Plate} (he : e = entryOf slot t ask permit plate s)
    (hwalk : s.engine.walk = some f) :
    beginWalk (quotePlaced slot t e s)
      = { onTerminal slot (Terminal.quoting t.nextQuoteId (.queued t.nextQuoteId)) s with
          permits := permitsFreed slot t.quote s.permits
          engine :=
            { walk := some (walkKept slot t.quote f)
              queue :=
                if slot ∈ s.engine.queue.map (·.slot) then s.engine.queue.map fun y => if y.slot = slot then e else y
                else s.engine.queue ++ [e] } } := by
  obtain rfl : slot = e.slot := congrArg QueueEntry.slot he.symm
  have hsome : (quotePlaced e.slot t e s).engine.walk = some (walkKept e.slot t.quote f) := by rw [quotePlaced, hwalk]; rfl
  rw [beginWalk_busy hsome, quotePlaced, placeEntry_eq, hwalk]
  rfl

/-- Settles O55. -/
theorem quotesAreTaken : Obligations.QuotesAreTaken := by
  intro s slot rode x call head w kind amount permit plate h z hw ha hh
  have harm : exec (.quote head kind amount permit plate) s
      = .next (lineGoesOn slot call (takeQuote slot kind amount permit plate h)) := by
    have hexec : exec (.quote head kind amount permit plate) s = whileRunning (takeAnswer head (.quote kind amount permit plate)) s :=
      rfl
    rw [hexec, whileRunning_running hw.1, takeAnswer_handsOn hw ha hh ⟨by simp, by simp⟩]
    rfl
  have hz : terminal h slot = some z := hh.2.2.1
  have hdecided := quoteChecks_decided h slot z kind amount permit plate
  refine ⟨fun code hcode => ?_, fun hnone hidle => ?_⟩
  · have hchecks := hdecided.eq_some hcode
    rw [Sum.getLeft?_eq_some_iff] at hchecks
    rw [harm, takeQuote, hz]
    simp only [hchecks]
    rw [queueResult_eq]
  · have hchecks := hdecided.eq_none hnone
    obtain ⟨r, hr⟩ := Sum.isRight_iff.mp (Sum.getLeft?_eq_none_iff.mp hchecks)
    have htake : takeQuote slot kind amount permit plate h
        = beginWalk (quotePlaced slot z (entryOf slot z (askedFor kind amount)
            ((Table.find? permit h.permits).bind fun p => if permit = 0 then none else some (permit, p.kind)) (plateOf plate) h) h) := by
      rw [takeQuote, hz]
      simp only [hr, quoteChecks_passed hr]
      exact acceptQuote_eq hh.wf hz _ _ _
    rw [harm, htake]
    refine ⟨fun hwalk => ?_, fun f hwalk => ?_⟩
    · rw [quotePlaced_begins hz rfl hwalk (hidle hwalk)]
      rfl
    · rw [quotePlaced_waits rfl hwalk]
      rfl

end Sys2Proof.Machine
end

section
/-!
PROOFS. A walk's completion (R37, R38, R58 to R61, R86, R88).
-/

namespace Sys2Proof.Machine

open Sys2Proof

/-! ### The checks of a result (R59, R60) -/

/-- What refuses a walk's result, with the first step's cost that the refusal tells. -/
def resultRefusal (e : QueueEntry) (group : Nat) (r : WalkResult) (s : State) : Option (Code × Nat) :=
  match r.outcome with
  | .noTender => some (.noTender, 0)
  | .noSale => some (.noSale, 0)
  | .belowMinimum => some (.belowMinimum, r.tried)
  | _ => e.permit.bind fun p => (recheck s p.1 group r.used e.plate).map fun code => (code, 0)

theorem keepResult_eq (e : QueueEntry) (group : Nat) (r : WalkResult) (s : State) :
    keepResult e group r s
      = (resultRefusal e group r s).elim (openQuote e r s) fun c => refuseResult e.slot e.quoteId c.2 c.1 s := by
  rw [keepResult, resultRefusal]
  cases r.outcome with
  | noTender | noSale | belowMinimum => rfl
  | ok | clamped =>
    dsimp only
    cases e.permit with
    | none => rfl
    | some p =>
      dsimp only [Option.bind_some]
      cases recheck s p.1 group r.used e.plate <;> rfl

theorem recheck_decided (s : State) (number group used : Nat) (plate : Option Plate) :
    Decides
      [(Table.find? number s.permits = none, (Code.permitChanged, 0)),
        ((∃ p ∈ Table.find? number s.permits, p.suspended = true ∨ today s < p.firstDay ∨ p.lastDay < today s), (.permitChanged, 0)),
        ((∃ p ∈ Table.find? number s.permits, group ∉ p.zones ∨ (p.plate ≠ none ∧ p.plate ≠ plate)), (.permitChanged, 0)),
        ((∃ p ∈ Table.find? number s.permits, p.hold ≠ none), (.permitBusy, 0)),
        ((∃ p ∈ Table.find? number s.permits, p.allowance - p.consumed < used), (.permitChanged, 0))]
      ((recheck s number group used plate).map fun code => (code, 0)) := by
  rw [recheck]
  cases hp : Table.find? number s.permits with
  | none => exact .inl ⟨rfl, rfl⟩
  | some p =>
    have hsome {P : Permit → Prop} : (∃ x ∈ some p, P x) ↔ P p := by simp
    simp only [apply_ite (Option.map fun code : Code => (code, 0)), Option.map_some, Option.map_none]
    refine .skip (by simp) (.cons (hsome.trans ?_) fun _ => .cons (hsome.trans ?_) fun _ => .cons (hsome.trans ?_) fun hhold =>
      .cons (hsome.trans ?_) fun _ => .nil)
    · rw [Bool.or_eq_true, Bool.not_eq_true', withinDates_false]
    · rw [Bool.or_eq_true, Bool.not_eq_true', Bool.not_eq_true', plateAdmits_false]
      simp
    · rw [Option.isSome_iff_ne_none]
    · have hfree : p.hold = none := by simpa using hhold
      rw [remaining, heldMinutes, hfree]
      rfl

theorem resultRefusal_decided (e : QueueEntry) (group : Nat) (r : WalkResult) (s : State) :
    Decides (resultChecks e group r s) (resultRefusal e group r s) := by
  rw [resultChecks, resultRefusal]
  have hlast : Decides
      (e.permit.toList.flatMap fun n =>
        let record := Table.find? n.1 s.permits
        [(record = none, (Code.permitChanged, 0)),
          ((∃ p ∈ record, p.suspended = true ∨ today s < p.firstDay ∨ p.lastDay < today s), (.permitChanged, 0)),
          ((∃ p ∈ record, group ∉ p.zones ∨ (p.plate ≠ none ∧ p.plate ≠ e.plate)), (.permitChanged, 0)),
          ((∃ p ∈ record, p.hold ≠ none), (.permitBusy, 0)),
          ((∃ p ∈ record, p.allowance - p.consumed < r.used), (.permitChanged, 0))])
      (e.permit.bind fun p => (recheck s p.1 group r.used e.plate).map fun code => (code, 0)) := by
    cases e.permit with
    | none => exact .nil
    | some p => exact recheck_decided s p.1 group r.used e.plate
  cases houtcome : r.outcome with
  | noTender => exact .inl ⟨rfl, rfl⟩
  | noSale => exact .inr ⟨by simp, .inl ⟨rfl, rfl⟩⟩
  | belowMinimum => exact .inr ⟨by simp, .inr ⟨by simp, .inl ⟨rfl, rfl⟩⟩⟩
  | ok | clamped => exact .skip (by simp) (.skip (by simp) (.skip (by simp) hlast))

/-! ### What a kept result does (R59 to R61, R88) -/

theorem refuseResult_reacts (slot quoteId firstStep : Nat) (code : Code) (s : State) :
    Reacts
      (onTerminal slot
        (fun y =>
          Terminal.considered s.calendar.zoneTime
            (Terminal.told NoticeBody.isResult (.quoteResult { quoteId := quoteId, code := code, firstStep := firstStep })
              { y with quote := .none })) s)
      (refuseResult slot quoteId firstStep code s) := by
  rw [refuseResult, queueResult_eq, setQuote, onTerminal_onTerminal]
  exact considerSleep_after slot _ s

/-- The holds as an opened quote leaves them: one where it uses allowance (R88). -/
def held (e : QueueEntry) (r : WalkResult) (permits : Table Permit) : Table Permit :=
  match e.permit with
  | some (number, _) =>
    if 0 < r.used then
      Table.modify number (fun p => { p with hold := some { owner := e.slot, quoteId := e.quoteId, minutes := r.used } }) permits
    else permits
  | none => permits

/-- A result that no check refuses is OK or CLAMPED. -/
theorem code_of_kept {e : QueueEntry} {group : Nat} {r : WalkResult} {s : State} (h : NoneFails (resultChecks e group r s)) :
    r.outcome.code = if r.outcome = .clamped then .clamped else .ok := by
  obtain ⟨htender, hsale, hminimum, -⟩ := h
  cases houtcome : r.outcome with
  | ok | clamped => rfl
  | noTender => exact absurd houtcome htender
  | noSale => exact absurd houtcome hsale
  | belowMinimum => exact absurd houtcome hminimum

/-- A quote opens with its hold, and its terms are told (R61, R88). -/
theorem openQuote_eq {e : QueueEntry} {group : Nat} {r : WalkResult} {s : State} (h : NoneFails (resultChecks e group r s)) :
    openQuote e r s
      = onTerminal e.slot
          (fun y =>
            Terminal.told NoticeBody.isResult
              (.quoteResult
                { quoteId := e.quoteId, code := if r.outcome = .clamped then .clamped else .ok, start := e.start,
                  expiry := r.expiry, cost := r.cost, unspent := (unspentOf e.ask r.cost).getD 0, minutes := r.minutes,
                  allowance := r.used, validity := 120 })
              { y with quote := .opened (quoteOf e r s.calendar.uptime) })
          (s.onPermits (held e r)) := by
  have hopen : openQuote e r s
      = queueResult e.slot
          (.quoteResult
            { quoteId := e.quoteId, code := r.outcome.code, start := e.start, expiry := r.expiry, cost := r.cost,
              unspent := (unspentOf e.ask r.cost).getD 0, minutes := r.minutes, allowance := r.used, validity := 120 })
          (setQuote e.slot (.opened (quoteOf e r s.calendar.uptime)) (s.onPermits (held e r))) := by
    unfold openQuote held
    cases e.permit with
    | none => rfl
    | some p =>
      dsimp only
      split <;> rfl
  rw [hopen, queueResult_eq, setQuote, onTerminal_onTerminal, code_of_kept h]

/-- Settles O56. -/
theorem walksComplete : Obligations.WalksComplete := by
  refine ⟨fun u hwalk hqueue => beginWalk_idle hwalk hqueue, fun u e rest x hwalk hqueue hx => beginWalk_head hwalk hqueue hx,
    fun s hrunning => ?_⟩
  have harm : exec .walkCompletion s = .next (s.engine.walk.elim s fun w => completeWalk w s) := by
    rw [exec, execWalkCompletion, whileRunning_running hrunning]
    cases s.engine.walk <;> rfl
  refine ⟨fun hwalk => ?_, fun v hwalk => ?_⟩
  · rw [harm, hwalk]
    rfl
  rw [harm, hwalk]
  refine ⟨fun hdiscard => ?_, fun x hkept hx => ?_⟩
  · rw [Option.elim, completeWalk, hdiscard]
    rfl
  have hhanded : completeWalk v s
      = beginWalk ((keepResult v.entry x.config.group (WalkInput.run { plans := s.plans, walk := v }) s).onEngine
          fun e => { e with walk := none }) := by
    rw [completeWalk, hkept, hx]
    rfl
  rw [Option.elim, hhanded, keepResult_eq]
  generalize WalkInput.run { plans := s.plans, walk := v } = r
  have hdecided := resultRefusal_decided v.entry x.config.group r s
  refine ⟨fun code step hcode => ?_, fun hnone => ?_⟩
  · rw [hdecided.eq_some hcode]
    exact ⟨_, rfl, refuseResult_reacts _ _ _ _ s⟩
  · rw [hdecided.eq_none hnone, Option.elim, openQuote_eq hnone]
    rfl

end Sys2Proof.Machine
end

section
/-!
PROOFS. CONFIRM: its checks and refusals (R66, R67), and the sale (R69, R70, R72, R89, R96, R97, R128).
-/

namespace Sys2Proof.Machine

open Sys2Proof

/-! ### The checks of a CONFIRM (R66, R67) -/

theorem tenderFits_false (q : OpenQuote) (value : Nat) :
    tenderFits q value = false
      ↔ (∃ a, q.ask = .byAmount a ∧ value ≠ a) ∨ ∃ d, q.ask = .byDuration d ∧ (value < q.cost ∨ 65535 < value) := by
  have hmax : Config.maxPence = 65535 := rfl
  rw [tenderFits]
  cases q.ask with
  | byAmount a => simp
  | byDuration d => simp [hmax, imp_iff_not_or]

theorem methodsUsable_false (t : Terminal) (coins : Six) (card : Nat) :
    methodsUsable t coins card = false ↔ (coins ≠ .zero ∧ ¬CashUsable t) ∨ (card ≠ 0 ∧ ¬CardUsable t) := by
  rw [methodsUsable, cashUsable_eq, cardUsable_eq, Bool.and_eq_false_iff, Bool.or_eq_false_iff, Bool.or_eq_false_iff]
  simp only [decide_eq_false_iff_not, ne_eq]

theorem ownsHold_false (p : Permit) (slot quoteId : Nat) :
    ownsHold p slot quoteId = false ↔ ∀ h ∈ p.hold, h.owner ≠ slot ∨ h.quoteId ≠ quoteId := by
  rw [ownsHold]
  cases p.hold with
  | none => simp
  | some h =>
    simp
    omega

theorem permitStands_false (s : State) (number used slot quoteId : Nat) :
    permitStands s number used slot quoteId = false
      ↔ Table.find? number s.permits = none
        ∨ (0 < used ∧ ∃ r ∈ Table.find? number s.permits, ∀ h ∈ r.hold, h.owner ≠ slot ∨ h.quoteId ≠ quoteId) := by
  rw [permitStands]
  cases Table.find? number s.permits with
  | none => simp
  | some p => simp [ownsHold_false, Nat.pos_iff_ne_zero]

theorem confirmChecks_decided (s : State) (slot : Nat) (t : Terminal) (q : OpenQuote) (quoteId : Nat) (coins : Six) (card : Nat) :
    Decides (confirmTable slot t q quoteId coins card s) (confirmChecks s slot t q quoteId coins card) := by
  have hhalted : salesHalted s = true ↔ freeSpace s ≤ 32 := decide_eq_true_iff
  refine .cons Iff.rfl fun _ => .cons Iff.rfl fun _ => .cons hhalted.symm fun _ => .cons Iff.rfl fun _ =>
    .cons ?_ fun _ => .cons ?_ fun _ => ?_
  · rw [Bool.not_eq_true', tenderFits_false]
    rfl
  · rw [Bool.not_eq_true', methodsUsable_false]
  · cases q.permit with
    | none => exact .skip (by simp) .nil
    | some p =>
      dsimp only
      have hrevoked := permitStands_false s p.1 p.2 slot q.quoteId
      cases hstands : permitStands s p.1 p.2 slot q.quoteId with
      | true =>
        refine .skip (fun hfails => ?_) .nil
        obtain ⟨_, hmem, hfails⟩ := hfails
        obtain rfl := Option.some.inj hmem
        exact Bool.false_ne_true (((hstands ▸ hrevoked).mpr hfails).symm)
      | false => exact .inl ⟨⟨p, rfl, hrevoked.mp hstands⟩, rfl⟩

/-! ### What a CONFIRM hands back (R66) -/

theorem refuseSale_eq (slot quoteId : Nat) (code : Code) (s : State) :
    refuseSale slot quoteId code s
      = onTerminal slot (Terminal.told NoticeBody.isResult (.saleResult { quoteId := quoteId, code := code })) s :=
  queueResult_eq slot _ s

/-- In a table in order, a quote past its validity ends as the statements say. -/
theorem expireQuote_eq {slot : Nat} {s : State} (q : OpenQuote) (hwf : Table.wf s.terminals = true) :
    expireQuote slot q s
      = onTerminal slot
          (fun y =>
            Terminal.considered s.calendar.zoneTime
              (Terminal.without (NoticeBody.isResultOf q.quoteId) { y with quote := .none, closed := some (.expired q.quoteId) }))
          { s with permits := released slot q s.permits } := by
  rw [expireQuote_merged, considerSleep_eq (wf_onTerminal slot _ (s := s.onPermits (released slot q)) hwf)]
  exact onTerminal_onTerminal slot _ _ (s.onPermits (released slot q))

/-- A CONFIRM is handed on. -/
theorem exec_confirm {s h : State} {slot : Nat} {rode : Option NoticeBody} {x z : Terminal} {call : CallKind} {head : AnswerHead}
    {w : StatusWord} (quoteId : Nat) (coins : Six) (card : Nat) (hw : InWindow slot call rode x s) (ha : Answers head slot w)
    (hh : HandsOn slot rode x w s h z) :
    exec (.confirm head quoteId coins card) s = .next (lineGoesOn slot call (takeConfirm slot quoteId coins card h)) := by
  have hexec : exec (.confirm head quoteId coins card) s = whileRunning (takeAnswer head (.confirm quoteId coins card)) s := rfl
  rw [hexec, whileRunning_running hw.1, takeAnswer_handsOn hw ha hh ⟨by simp, by simp⟩]
  rfl

/-- A CONFIRM on an OPEN slot, by what its checks decide. -/
theorem takeConfirm_opened {slot quoteId card : Nat} {coins : Six} {s : State} {z : Terminal} {q : OpenQuote}
    (hz : terminal s slot = some z) (hq : z.quote = .opened q) :
    takeConfirm slot quoteId coins card s
      = (confirmChecks s slot z q quoteId coins card).elim (sell slot z q coins card s) fun code =>
          refuseSale slot quoteId code (if code = .quoteExpired then expireQuote slot q s else s) := by
  rw [takeConfirm, hz]
  simp only [hq]
  cases hc : confirmChecks s slot z q quoteId coins card with
  | none => rfl
  | some code => cases code <;> rfl

/-- A CONFIRM on a slot with no quote is answered from the closed quote record. -/
theorem confirmClosed_unknown {slot quoteId : Nat} {closed : Option ClosedQuote} {s : State}
    (hsold : ∀ ticket start expiry cost unspent, closed ≠ some (.sold quoteId ticket start expiry cost unspent))
    (hexpired : closed ≠ some (.expired quoteId)) :
    confirmClosed slot quoteId closed s = refuseSale slot quoteId .quoteUnknown s := by
  cases closed with
  | none => rfl
  | some c =>
    cases c with
    | sold i ticket start expiry cost unspent => exact if_neg fun hi : i = quoteId => hsold ticket start expiry cost unspent (hi ▸ rfl)
    | expired i =>
      have hne : i ≠ quoteId := fun hi => hexpired (hi ▸ rfl)
      rw [confirmClosed, if_neg hne]

/-- Settles O58. -/
theorem confirmsRefused : Obligations.ConfirmsRefused := by
  intro s slot rode x call head w quoteId coins card h z hw ha hh
  have harm := exec_confirm quoteId coins card hw ha hh
  have hz : terminal h slot = some z := hh.2.2.1
  have hexec {u : State} (hu : takeConfirm slot quoteId coins card h = u) :
      exec (.confirm head quoteId coins card) s = .next (lineGoesOn slot call u) := hu ▸ harm
  refine ⟨fun q code hq hcode => ?_, fun i hq => ?_, fun hq => ?_⟩
  · have htaken := takeConfirm_opened (quoteId := quoteId) (coins := coins) (card := card) hz hq
    rw [(confirmChecks_decided h slot z q quoteId coins card).eq_some hcode, Option.elim, refuseSale_eq] at htaken
    refine ⟨fun hne => hexec ?_, fun he => hexec ?_⟩
    · rw [htaken, if_neg hne]
    · rw [htaken, if_pos he, expireQuote_eq q hh.wf]
  · refine hexec ?_
    rw [takeConfirm, hz, ← refuseSale_eq]
    rcases hq with hq | hq <;> simp only [hq]
  · have hclosed : takeConfirm slot quoteId coins card h = confirmClosed slot quoteId z.closed h := by
      rw [takeConfirm, hz]
      simp only [hq]
    refine ⟨fun ticket start expiry cost unspent hsold => hexec ?_, fun hexpired => hexec ?_, fun hsold hexpired => hexec ?_⟩
    · rw [hclosed, hsold, confirmClosed, if_pos rfl, queueResult_eq]
    · rw [hclosed, hexpired, confirmClosed, if_pos rfl, refuseSale_eq]
    · rw [hclosed, confirmClosed_unknown hsold hexpired, refuseSale_eq]

end Sys2Proof.Machine
end

section
/-!
PROOFS. The sale (R69, R70, R89, R96, R97, R128), and the live ticket table (R72).
-/

namespace Sys2Proof.Machine

open Sys2Proof

/-! ### A fault's report beside other changes -/

/-- A report of a condition commutes with a change of the slot's record that does not meet its faults. -/
theorem reportFault_onTerminal {g : Terminal → Terminal} {k : FaultKind}
    (hg : ∀ (f : FaultRecord → FaultRecord) (x : Terminal), g (x.onFault k f) = (g x).onFault k f)
    (hfaults : ∀ x : Terminal, (g x).watch.faults = x.watch.faults) (slot : Nat) (present : Bool) (s : State) :
    reportFault slot k present (onTerminal slot g s) = onTerminal slot g (reportFault slot k present s) := by
  cases hx : terminal s slot with
  | none =>
    have hnone : reportFault slot k present s = s := by rw [reportFault, hx]
    rw [onTerminal_absent hx, hnone, onTerminal_absent hx]
  | some x =>
    have hswap (f : FaultRecord → FaultRecord) :
        onTerminal slot (Terminal.onFault k f) (onTerminal slot g s) = onTerminal slot g (onTerminal slot (Terminal.onFault k f) s) :=
      (onTerminal_onTerminal slot _ _ s).trans
        ((congrArg (fun c => onTerminal slot c s) (funext fun y => (hg f y).symm)).trans (onTerminal_onTerminal slot _ _ s).symm)
    rw [reportFault, reportFault, hx, terminal_onTerminal_self hx]
    dsimp only
    rw [hfaults, hswap]
    split <;> rfl

theorem reportFault_onPermits (slot : Nat) (k : FaultKind) (present : Bool) (f : Table Permit → Table Permit) (s : State) :
    reportFault slot k present (s.onPermits f) = (reportFault slot k present s).onPermits f := by
  have hx : terminal (s.onPermits f) slot = terminal s slot := rfl
  rw [reportFault, reportFault, hx]
  cases terminal s slot with
  | none => rfl
  | some x =>
    dsimp only
    split <;> rfl

theorem reportFault_calendar (slot : Nat) (k : FaultKind) (present : Bool) (s : State) :
    (reportFault slot k present s).calendar = s.calendar := by
  rw [reportFault]
  cases terminal s slot with
  | none => rfl
  | some x =>
    dsimp only
    split <;> rfl

theorem reportFault_onSales (slot : Nat) (k : FaultKind) (present : Bool) (f : Sales → Sales) (s : State) :
    reportFault slot k present (s.onSales f) = (reportFault slot k present s).onSales f := by
  have hx : terminal (s.onSales f) slot = terminal s slot := rfl
  rw [reportFault, reportFault, hx]
  cases terminal s slot with
  | none => rfl
  | some x =>
    dsimp only
    split <;> rfl

/-! ### A result is told -/

/-- A notice of a sort without SERVICE and RESET joins the queue beside the SERVICE notices. -/
theorem Beside.notified {sort : NoticeBody → Bool} {body : NoticeBody}
    (hsort : ∀ b : NoticeBody, b.isService = true ∨ b = .reset → sort b = false) (hbody : sort body = true) :
    Beside (notified sort body) := by
  have hservice (b : NoticeBody) (hb : sort b = true) : b.isService = false := by
    by_contra hne
    exact Bool.false_ne_true ((hsort b (.inl (by simpa using hne))).symm.trans hb)
  have hkind (n : Notice) :
      (if sort n.body then ({ body := body, rode := false } : Notice) else n).body.isService = n.body.isService := by
    split
    · next h => rw [hservice n.body h, hservice body hbody]
    · rfl
  refine ⟨fun q => ?_, fun q => ?_, notified_reset sort body fun h => ?_⟩
  · unfold Machine.notified
    split
    · rfl
    split
    · simp only [Machine.services, List.filter_map, Function.comp_def, hkind]
      conv => rhs; rw [← List.map_id (q.filter fun n => n.body.isService)]
      refine List.map_congr_left fun n hn => if_neg fun hc => ?_
      simp [hservice n.body hc] at hn
    · simp [Machine.services, List.filter_append, hservice body hbody]
  · have hreset := any_without_service (fun n => decide (n.body = .reset)) (fun n h => by simp_all [NoticeBody.isService]) q
    have hof := any_without_service (fun n => sort n.body) (fun n => hservice n.body) q
    simp only [Machine.notified, hreset, hof]
    split
    · rfl
    split
    · simp only [List.filter_map, Function.comp_def, hkind]
    · simp [List.filter_append, hservice body hbody]
  · exact Bool.false_ne_true ((hsort body (.inr h)).symm.trans hbody)

theorem Served.toldResult {body : NoticeBody} (hbody : body.isResult = true) {x y : Terminal} (h : Served x y) :
    Served (x.told NoticeBody.isResult body) (y.told NoticeBody.isResult body) :=
  h.beside (.notified (not_service_or_reset (fun _ => rfl) rfl) hbody)

/-! ### The live ticket table (R72) -/

theorem earliestExpiry_le {live : List LiveTicket} {o : LiveTicket} (h : o ∈ live) : earliestExpiry live ≤ o.expiry := by
  induction live with
  | nil => cases h
  | cons x rest ih =>
    cases rest with
    | nil =>
      obtain rfl := List.mem_singleton.mp h
      exact le_rfl
    | cons y rest =>
      rcases List.mem_cons.mp h with rfl | h
      · exact Nat.min_le_left _ _
      · exact (Nat.min_le_right _ _).trans (ih h)

theorem earliestExpiry_mem {live : List LiveTicket} (h : live ≠ []) : ∃ o ∈ live, earliestExpiry live = o.expiry := by
  induction live with
  | nil => exact absurd rfl h
  | cons x rest ih =>
    cases rest with
    | nil => exact ⟨x, List.mem_cons_self, rfl⟩
    | cons y rest =>
      obtain ⟨o, ho, he⟩ := ih (List.cons_ne_nil y rest)
      rcases Nat.le_total x.expiry (earliestExpiry (y :: rest)) with hle | hle
      · exact ⟨x, List.mem_cons_self, Nat.min_eq_left hle⟩
      · exact ⟨o, List.mem_cons_of_mem x ho, (Nat.min_eq_right hle).trans he⟩

/-- The entry evicted is the first of the earliest expiry. -/
theorem evict_eq {before after : List LiveTicket} {y : LiveTicket} (hbefore : ∀ o ∈ before, y.expiry < o.expiry)
    (hafter : ∀ o ∈ after, y.expiry ≤ o.expiry) : evict (before ++ y :: after) = before ++ after := by
  have hearliest : earliestExpiry (before ++ y :: after) = y.expiry := by
    refine Nat.le_antisymm (earliestExpiry_le (by simp)) ?_
    obtain ⟨o, ho, he⟩ := earliestExpiry_mem (live := before ++ y :: after) (by simp)
    rw [he]
    rcases List.mem_append.mp ho with ho | ho
    · exact (hbefore o ho).le
    · rcases List.mem_cons.mp ho with rfl | ho
      · exact le_rfl
      · exact hafter o ho
  rw [evict, hearliest, List.eraseP_append_right, List.eraseP_cons_of_pos (by simp)]
  intro o ho
  simpa using (hbefore o ho).ne'

theorem addTicket_spec (ticket : LiveTicket) (live : List LiveTicket) :
    let others := live.filter fun y => y.ticket ≠ ticket.ticket
    (others.length < 2048 → addTicket ticket live = others ++ [ticket])
      ∧ ∀ (before after : List LiveTicket) (y : LiveTicket), 2048 ≤ others.length → others = before ++ y :: after →
          (∀ o ∈ before, y.expiry < o.expiry) → (∀ o ∈ after, y.expiry ≤ o.expiry) →
            addTicket ticket live = before ++ after ++ [ticket] := by
  have hmax : Config.maxLiveTickets = 2048 := rfl
  refine ⟨fun hroom => ?_, fun before after y hfull hsplit hbefore hafter => ?_⟩
  · exact congrArg (· ++ [ticket]) (if_neg (by omega))
  · refine congrArg (· ++ [ticket]) ((if_pos (hmax ▸ hfull)).trans ?_)
    rw [hsplit]
    exact evict_eq hbefore hafter

/-! ### The sale -/

theorem consumeQuoteHold_eq (slot : Nat) (q : OpenQuote) (s : State) :
    consumeQuoteHold slot q s = s.onPermits (consumed slot q) := by
  have howns (p : Permit) : ownsHold p slot q.quoteId = p.hold.any fun h => h.owner == slot && h.quoteId == q.quoteId := by
    rw [ownsHold]
    cases p.hold <;> rfl
  unfold consumeQuoteHold consumed consumeHold
  cases q.permit with
  | none => rfl
  | some p =>
    simp only [howns]
    rfl

/-- A sale's money in the terminal's cash fields (R96). -/
def Terminal.paid (coins : Six) (card : Nat) (y : Terminal) : Terminal := { y with cash := y.cash.sale coins card }

/-- The silence sample in the terminal's watch fields (R128). -/
def Terminal.sampled (y : Terminal) : Terminal :=
  { y with watch := { y.watch with estimate := some (newEstimate y.watch.estimate y.watch.silence), silence := 0 } }

/-- The slot closes its quote as SOLD. -/
def Terminal.closedBy (c : ClosedQuote) (y : Terminal) : Terminal := { y with quote := .none, closed := some c }

theorem Neutral.paid (coins : Six) (card : Nat) : Neutral (Terminal.paid coins card) where
  bare _ _ h := congrArg (Terminal.paid coins card) h
  queue _ := rfl
  state _ := rfl
  service _ := rfl

theorem Neutral.sampled : Neutral Terminal.sampled where
  bare _ _ h := congrArg Terminal.sampled h
  queue _ := rfl
  state _ := rfl
  service _ := rfl

theorem Neutral.closedBy (c : ClosedQuote) : Neutral (Terminal.closedBy c) where
  bare _ _ h := congrArg (Terminal.closedBy c) h
  queue _ := rfl
  state _ := rfl
  service _ := rfl

/-- BOX_FULL is evaluated where the tender held coins (R97). -/
theorem evaluateAfterCoins_reacts {slot : Nat} {u t : State} {x : Terminal} (coins : Six) (h : Reacts u t)
    (hx : terminal u slot = some x) :
    Reacts (if coins = .zero then u else reportFault slot .boxFull (boxFull x) u)
      (if coins = .zero then t else evaluateBox slot t) := by
  split
  · exact h
  · rcases h.slot_cases slot with ⟨hnone, -⟩ | ⟨y, z, hy, hz, hyz⟩
    · cases hx.symm.trans hnone
    · obtain rfl := Option.some.inj (hx.symm.trans hy)
      have hbox : boxFull z = boxFull x := by
        have := congrArg boxFull hyz.rest
        exact this
      exact (h.reportFault slot .boxFull (boxFull x)).trans (hbox ▸ evaluateBox_reacts hz)

/-- The silence sample is taken, and SILENT ends (R128). -/
theorem silenceSample_reacts {u t : State} (slot : Nat) (h : Reacts u t) :
    Reacts (reportFault slot .silent false (onTerminal slot Terminal.sampled u)) (silenceSample slot t) :=
  ((reacts_onBoth slot _ (fun _ _ => Served.neutral .sampled) h).reportFault slot .silent false).trans
    (conditionEnds_reacts slot .silent _)

/-- The ticket number is taken. -/
def ticketTaken (s : State) : State := s.onSales fun x => { x with nextTicket := nextTicket x.nextTicket }

/-- The SALE record. -/
def saleRecord (slot : Nat) (q : OpenQuote) (coins : Six) (card : Nat) (s : State) : RecordBody :=
  .sale (saleBody slot s.sales.nextTicket q coins card (tenderValue s coins card))

/-- The live ticket of a sale joins the table. -/
def ticketAdded (slot ticket : Nat) (t : Terminal) (q : OpenQuote) (x : Sales) : Sales :=
  { x with
    live := addTicket
      { ticket := ticket, slot := slot, group := t.config.group, start := q.start, expiry := q.expiry,
        permit := q.permit.map (·.1), plate := q.plate } x.live }

/-- A sale up to its live ticket, in the order of R70. -/
def saleBegun (slot : Nat) (t : Terminal) (q : OpenQuote) (coins : Six) (card : Nat) (s : State) : State :=
  let noted := haltChanged (salesHalted (ticketTaken s)) (append (saleRecord slot q coins card s) (ticketTaken s))
  let paid := onTerminal slot (Terminal.paid coins card) noted
  ((if coins = .zero then paid else evaluateBox slot paid).onPermits (consumed slot q)).onSales (ticketAdded slot s.sales.nextTicket t q)

/-- The journal and the tables as a sale leaves them: its record, the ticket numbers, the consumed hold and the live ticket. -/
def saleNoted (slot : Nat) (t : Terminal) (q : OpenQuote) (coins : Six) (card : Nat) (s : State) : State :=
  ((shown (recorded (saleRecord slot q coins card s) (ticketTaken s))).onPermits (consumed slot q)).onSales
    (ticketAdded slot s.sales.nextTicket t q)

/-- The closed quote record of a sale. -/
def soldAs (q : OpenQuote) (coins : Six) (card : Nat) (s : State) : ClosedQuote :=
  .sold q.quoteId s.sales.nextTicket q.start q.expiry q.cost (saleUnspent q (tenderValue s coins card))

/-- The notice of a sale. -/
def saleTold (q : OpenQuote) (coins : Six) (card : Nat) (s : State) : NoticeBody :=
  .saleResult
    { quoteId := q.quoteId, code := .sold, ticket := s.sales.nextTicket, start := q.start, expiry := q.expiry, cost := q.cost,
      unspent := saleUnspent q (tenderValue s coins card) }

/-- What a sale makes of its slot's record, before its notice. -/
def Terminal.sold (coins : Six) (card : Nat) (c : ClosedQuote) (y : Terminal) : Terminal := ((y.paid coins card).sampled).closedBy c

/-- The state that a sale leaves, before BOX_FULL and SILENT are reported. -/
def saleMade (slot : Nat) (t : Terminal) (q : OpenQuote) (coins : Six) (card : Nat) (s : State) : State :=
  onTerminal slot (Terminal.sold coins card (soldAs q coins card s)) (saleNoted slot t q coins card s)

/-- The reports of a sale commute with what else it makes of its slot's record. -/
theorem saleMade_reported (slot : Nat) (coins : Six) (card : Nat) (c : ClosedQuote) (box : Bool) (f : Table Permit → Table Permit)
    (g : Sales → Sales) (s : State) :
    onTerminal slot (Terminal.closedBy c)
        (reportFault slot .silent false
          (onTerminal slot Terminal.sampled
            (((if coins = .zero then onTerminal slot (Terminal.paid coins card) s
              else reportFault slot .boxFull box (onTerminal slot (Terminal.paid coins card) s)).onPermits f).onSales g)))
      = reportFault slot .silent false
          (if coins = .zero then onTerminal slot (Terminal.sold coins card c) ((s.onPermits f).onSales g)
          else reportFault slot .boxFull box (onTerminal slot (Terminal.sold coins card c) ((s.onPermits f).onSales g))) := by
  have hmerge : onTerminal slot (Terminal.closedBy c)
        (onTerminal slot Terminal.sampled (onTerminal slot (Terminal.paid coins card) ((s.onPermits f).onSales g)))
      = onTerminal slot (Terminal.sold coins card c) ((s.onPermits f).onSales g) :=
    (congrArg _ (onTerminal_onTerminal slot _ _ _)).trans (onTerminal_onTerminal slot _ _ _)
  have hclosed (k : FaultKind) (present : Bool) (u : State) : onTerminal slot (Terminal.closedBy c) (reportFault slot k present u)
      = reportFault slot k present (onTerminal slot (Terminal.closedBy c) u) :=
    (reportFault_onTerminal (g := Terminal.closedBy c) (fun _ _ => rfl) (fun _ => rfl) slot present u).symm
  have hsampled (k : FaultKind) (present : Bool) (u : State) : onTerminal slot Terminal.sampled (reportFault slot k present u)
      = reportFault slot k present (onTerminal slot Terminal.sampled u) :=
    (reportFault_onTerminal (g := Terminal.sampled) (fun _ _ => rfl) (fun _ => rfl) slot present u).symm
  rw [hclosed]
  split
  · rw [← hmerge]
    rfl
  · rw [← reportFault_onPermits, ← reportFault_onSales, hsampled, hclosed, ← hmerge]
    rfl

theorem sell_eq (slot : Nat) (t : Terminal) (q : OpenQuote) (coins : Six) (card : Nat) (s : State) :
    sell slot t q coins card s
      = considerSleep slot
          (onTerminal slot (fun y => (y.closedBy (soldAs q coins card s)).told NoticeBody.isResult (saleTold q coins card s))
            (silenceSample slot (saleBegun slot t q coins card s))) := by
  have hmerge (u : State) : queueResult slot (saleTold q coins card s) (setClosed slot (some (soldAs q coins card s)) (setQuote slot .none u))
      = onTerminal slot (fun y => (y.closedBy (soldAs q coins card s)).told NoticeBody.isResult (saleTold q coins card s)) u := by
    rw [queueResult_eq]
    exact (congrArg _ (onTerminal_onTerminal slot _ _ u)).trans (onTerminal_onTerminal slot _ _ u)
  unfold sell
  simp only [consumeQuoteHold_eq]
  rw [← hmerge]
  rfl

/-- A CONFIRM that is SOLD (R69, R70, R89, R96, R97, R128). -/
theorem sell_reacts {slot : Nat} {t : Terminal} {s : State} (q : OpenQuote) (coins : Six) (card : Nat)
    (ht : terminal s slot = some t) :
    Reacts
      (onTerminal slot
        (fun y => Terminal.considered s.calendar.zoneTime (y.told NoticeBody.isResult (saleTold q coins card s)))
        (reportFault slot .silent false
          (if coins = .zero then saleMade slot t q coins card s
          else reportFault slot .boxFull (boxFull (t.paid coins card)) (saleMade slot t q coins card s))))
      (sell slot t q coins card s) := by
  have hnoted : Reacts (shown (recorded (saleRecord slot q coins card s) (ticketTaken s)))
      (haltChanged (salesHalted (ticketTaken s)) (append (saleRecord slot q coins card s) (ticketTaken s))) := by
    rw [← append_eq]
    exact haltChanged_reacts _ _
  have hpaid := reacts_onBoth slot _ (fun _ _ => Served.neutral (.paid coins card)) hnoted
  have hbox := evaluateAfterCoins_reacts coins hpaid (x := t.paid coins card) (terminal_onTerminal_self ht)
  have hsampled := silenceSample_reacts slot
    ((hbox.onPermits (consumed slot q)).onSales (ticketAdded slot s.sales.nextTicket t q))
  change Reacts _ (silenceSample slot (saleBegun slot t q coins card s)) at hsampled
  rw [sell_eq]
  generalize silenceSample slot (saleBegun slot t q coins card s) = u at hsampled
  have hnow : u.calendar = s.calendar := by
    rw [hsampled.calendar, reportFault_calendar]
    show (if coins = .zero then _ else _ : State).calendar = s.calendar
    split
    · rfl
    · exact reportFault_calendar slot _ _ _
  have htold := reacts_onBoth slot
    (fun y =>
      Terminal.considered s.calendar.zoneTime
        ((y.closedBy (soldAs q coins card s)).told NoticeBody.isResult (saleTold q coins card s)))
    (fun _ _ h => ((h.neutral (.closedBy _)).toldResult rfl).considered _) hsampled
  have hsleep := considerSleep_after slot
    (fun y => (y.closedBy (soldAs q coins card s)).told NoticeBody.isResult (saleTold q coins card s)) u
  rw [hnow] at hsleep
  have hmade := saleMade_reported slot coins card (soldAs q coins card s) (boxFull (t.paid coins card)) (consumed slot q)
    (ticketAdded slot s.sales.nextTicket t q) (shown (recorded (saleRecord slot q coins card s) (ticketTaken s)))
  have hmerge := onTerminal_onTerminal slot
    (fun y => Terminal.considered s.calendar.zoneTime (y.told NoticeBody.isResult (saleTold q coins card s)))
    (Terminal.closedBy (soldAs q coins card s))
  refine Reacts.trans ?_ (htold.trans hsleep)
  rw [saleMade, saleNoted, ← hmade, hmerge]
  exact .refl _

/-- Settles O57. -/
theorem confirmsSell : Obligations.ConfirmsSell := by
  refine ⟨fun s slot rode x call head w quoteId coins card h z q hw ha hh hq hnone => ?_, fun ticket live => addTicket_spec ticket live⟩
  have hz : terminal h slot = some z := hh.2.2.1
  have harm := exec_confirm quoteId coins card hw ha hh
  rw [takeConfirm_opened hz hq, (confirmChecks_decided h slot z q quoteId coins card).eq_none hnone] at harm
  refine ⟨_, harm, ?_⟩
  refine Reacts.trans (reacts_onBoth slot _ (fun _ _ h => (h.toldResult rfl).considered _) (.reportFault slot .silent false ?_))
    (sell_reacts q coins card hz)
  have hmade : Reacts
      (onTerminal slot
        (fun y =>
          { y with
            quote := .none
            closed := some (soldAs q coins card h)
            cash :=
              { y.cash with
                tally := z.cash.tally.add coins, accepted := y.cash.accepted.add coins, cardTotal := y.cash.cardTotal + card }
            watch := { y.watch with silence := 0, estimate := some (newEstimate z.watch.estimate z.watch.silence) } })
        (saleNoted slot z q coins card h))
      (saleMade slot z q coins card h) := by
    refine .agree fun y hy => ?_
    obtain rfl : z = y := Option.some.inj (hz.symm.trans hy)
    rfl
  split
  · exact hmade
  · exact hmade.reportFault slot .boxFull _

end Sys2Proof.Machine
end

section
/-!
PROOFS. The supply's events and the starts (R16, R168, R177 to R181).
-/

namespace Sys2Proof.Machine

open Sys2Proof

/-! ### Steps 1 and 2 of a warm start (R168, R181) -/

/-- The line as a start opens it: the SEEK of cycle 0 is sent, and its first reply window is open. -/
def openingLine : Line := { cycle := 0, lastUnknown := none, mode := .reply 1 false [] [], out := [.seek 0], ended := none }

theorem startAttention_eq (keep : Bool) (s : State) :
    startAttention keep s
      = shown
          { s with
            attention :=
              { mask := Flags.all
                flags :=
                  { (if keep then s.attention.flags else Flags.none) with
                    salesHalted := false, journalHigh := false, counts := false, clock := false, restarted := true } } } := by
  rw [← refresh_eq_shown]
  cases keep <;> rfl

theorem begun_eq (straps : Straps) (keep : Bool) (s : State) :
    begun straps keep s = (startAttention keep (startValues straps s)).onLine fun _ => openingLine := by
  rw [startAttention_eq]
  rfl

/-! ### Step 3: the catch-up (R16) -/

/-- The state after the switches and the day roll of the catch-up. -/
def rolledUp (s : State) : State :=
  if s.calendar.clockSet then
    if dayRollDue (forEachSlot takeSwitch s) then dayRoll (forEachSlot takeSwitch s) else forEachSlot takeSwitch s
  else s

/-- A deadline that the catch-up delivers: one that is due, or with the clock UNSET any. -/
def deadlineTaken (s : State) : State :=
  if s.calendar.clockSet = true ∧ deadlineDue s = true ∨ s.calendar.clockSet = false ∧ s.calendar.deadline.isSome = true then
    closeAtStart s
  else s

theorem timed_absent {c : Calendar} {x : Terminal} (h : x.link.state = .absent) : x.timed c = x := by
  rw [Terminal.timed, h]
  rfl

theorem switched_state (now : Nat) (x : Terminal) : (x.switched now).link = x.link := by
  rw [Terminal.switched]
  split
  · split <;> rfl
  · rfl

/-- With no slot in a called state, a day roll tells no terminal (R10). -/
theorem dayRoll_absent {s : State} (hwf : Table.wf s.terminals = true) (habsent : ∀ e ∈ s.terminals, e.2.link.state = .absent) :
    dayRoll s
      = { s with
          calendar :=
            { s.calendar with lastRolled := some (today s), holidays := s.calendar.holidays.filter fun d => today s ≤ d }
          permits := s.permits.map fun e => (e.1, { e.2 with consumed := 0 }) } := by
  have hidle : Table.mapAll (Terminal.timed s.calendar) s.terminals = s.terminals := by
    rw [Table.mapAll]
    conv => rhs; rw [← List.map_id s.terminals]
    exact List.map_congr_left fun e he => congrArg (Prod.mk e.1) (timed_absent (habsent e he))
  rw [dayRoll_eq hwf, hidle]

/-- With no slot in a called state, the switches and the day roll are those of the statements (R10, R16, R30). -/
theorem rolledUp_eq {s : State} (hwf : Table.wf s.terminals = true) (habsent : ∀ e ∈ s.terminals, e.2.link.state = .absent) :
    rolledUp s = caughtUp s := by
  unfold rolledUp caughtUp
  dsimp only
  by_cases hclock : s.calendar.clockSet = true
  case neg => rw [if_neg hclock, if_pos (by simpa using hclock)]
  case pos =>
    have hset : ¬s.calendar.clockSet = false := by
      rw [hclock]
      decide
    rw [if_pos hclock, if_neg hset, forEachSlot_takeSwitch hwf]
    generalize hmark : s.terminals.any (fun e => decide (SwitchDue s.calendar.zoneTime e.2)) = taken
    have hwf' : Table.wf (switchMarked taken (s.onTerminals (Table.mapAll (Terminal.switched s.calendar.zoneTime)))).terminals = true :=
      Table.wf_mapAll _ _ hwf
    have hidle : ∀ e ∈ (switchMarked taken (s.onTerminals (Table.mapAll (Terminal.switched s.calendar.zoneTime)))).terminals,
        e.2.link.state = .absent := by
      intro e he
      obtain ⟨a, ha, rfl⟩ := List.mem_map.mp he
      exact (congrArg Link.state (switched_state _ a.2)).trans (habsent a ha)
    have hdue : dayRollDue (switchMarked taken (s.onTerminals (Table.mapAll (Terminal.switched s.calendar.zoneTime)))) = true
        ↔ ∃ d ∈ s.calendar.lastRolled, d < today s := by
      rw [dayRollDue_iff]
      exact and_iff_right hclock
    by_cases hrolls : ∃ d ∈ s.calendar.lastRolled, d < today s
    · rw [if_pos (hdue.mpr hrolls), dayRoll_absent hwf' hidle, decide_eq_true hrolls]
      rfl
    · rw [if_neg (mt hdue.mp hrolls), decide_eq_false hrolls]
      rfl

theorem caughtUp_calendar (s : State) :
    (caughtUp s).calendar.clockSet = s.calendar.clockSet ∧ (caughtUp s).calendar.deadline = s.calendar.deadline := by
  unfold caughtUp
  dsimp only
  split
  · exact ⟨rfl, rfl⟩
  · split <;> exact ⟨rfl, rfl⟩

theorem catchUp_eq {s : State} (hwf : Table.wf s.terminals = true) (habsent : ∀ e ∈ s.terminals, e.2.link.state = .absent) :
    catchUp s
      = minuteRoll ((deadlineTaken (caughtUp s)).onTerminals
          (Table.mapAll fun t => { t with segment := segmentNow (deadlineTaken (caughtUp s)) t.plans })) := by
  obtain ⟨hset, hdeadline⟩ := caughtUp_calendar s
  have htaken : (if s.calendar.clockSet then
      let s := forEachSlot takeSwitch s
      let s := if dayRollDue s then dayRoll s else s
      if deadlineDue s then closeAtStart s else s
    else if s.calendar.deadline.isSome then closeAtStart s
    else s) = deadlineTaken (caughtUp s) := by
    rw [deadlineTaken, hset, hdeadline, ← rolledUp_eq hwf habsent]
    cases hclock : s.calendar.clockSet with
    | true => simp [rolledUp, hclock]
    | false => simp [rolledUp, hclock]
  rw [← htaken]
  rfl

/-- The close of a round at a start (R107, R131). -/
theorem closeAtStart_closed {s : State} (r : Round) (hgroups : Table.keys s.groups = groupNumbers) :
    (if freeSpace s = 0 ∧ freeSpace (closeRoundCore r s) ≠ 0 then appendOwed (closeRoundCore r s) else closeRoundCore r s)
      = roundClosed r s := by
  have hkeys : Table.keys (closeRoundCore r s).groups = groupNumbers := by
    rw [closeRoundCore_eq]
    exact hgroups
  have hclosed : roundClosed r s = if freeSpace s = 0 then withOwed (closeRoundCore r s) else closeRoundCore r s := by
    rw [closeRoundCore_eq]
    rfl
  rw [hclosed, appendOwed_eq hkeys]
  by_cases hroom : freeSpace (closeRoundCore r s) = 0
  · rw [if_neg fun h => h.2 hroom, withOwed_full hroom, ite_self]
  · exact if_congr (and_iff_left hroom) rfl rfl

theorem deadlineTaken_eq {s : State} (hgroups : Table.keys s.groups = groupNumbers) : deadlineTaken s = deadlineCaught s := by
  have hdue : (s.calendar.clockSet = true ∧ deadlineDue s = true ∨ s.calendar.clockSet = false ∧ s.calendar.deadline.isSome = true)
      ↔ ∃ d ∈ s.calendar.deadline, s.calendar.clockSet = true → d ≤ s.calendar.zoneTime := by
    rw [deadlineDue_iff]
    cases s.calendar.clockSet <;> cases s.calendar.deadline <;> simp
  rw [deadlineTaken, deadlineCaught]
  refine if_congr hdue ?_ rfl
  rw [closeAtStart]
  cases s.cash.round with
  | none => rfl
  | some r => exact closeAtStart_closed r hgroups

/-! ### Step 4: the starting conditions (R114, R133) -/

theorem wf_startCondition {slot : Nat} {k : FaultKind} {present : Bool} {s : State} (hwf : Table.wf s.terminals = true) :
    Table.wf (startCondition slot k present s).terminals = true := by
  have hset (st : FaultState) : Table.wf (setFault slot k st s).terminals = true := wf_onTerminal slot _ hwf
  rw [startCondition]
  split
  · exact hwf
  · split
    · exact hwf
    · split
      · exact hset _
      · exact hset _

/-- A fault's new record, written slot by slot. -/
theorem setFault_eq {slot : Nat} {k : FaultKind} {st : FaultState} {f : FaultRecord → FaultRecord} {s : State} {x : Terminal}
    (hwf : Table.wf s.terminals = true) (hx : terminal s slot = some x)
    (hf : f (x.watch.faults.get k) = { state := st, changed := s.calendar.zoneTime }) :
    setFault slot k st s = onTerminal slot (Terminal.onFault k f) s := by
  refine onTerminal_eq hwf fun y hy => ?_
  obtain rfl : x = y := Option.some.inj (hx.symm.trans hy)
  rw [Terminal.onFault, hf]

/-- A condition taken at a start is a report of it, without what is derived afresh. -/
theorem startCondition_eq {slot : Nat} {k : FaultKind} {present : Bool} {s : State} (hwf : Table.wf s.terminals = true) :
    startCondition slot k present s = reportFault slot k present s := by
  cases hx : terminal s slot with
  | none => rw [startCondition, reportFault, hx]
  | some x =>
    rw [startCondition, reportFault, hx]
    dsimp only
    by_cases hsame : x.watch.faults.present k = present
    · have hkept : onTerminal slot (Terminal.onFault k (FaultRecord.reported present s.calendar.zoneTime)) s = s := by
        refine onTerminal_unchanged hwf fun y hy => ?_
        obtain rfl : x = y := Option.some.inj (hx.symm.trans hy)
        rw [Terminal.onFault, reported_same hsame, FaultTable.set_get]
      have hnot : ¬(present = true ∧ (x.watch.faults.get k).state.present = false) := by
        rintro ⟨hp, hn⟩
        exact Bool.false_ne_true (hn.symm.trans (hsame.trans hp))
      rw [if_pos hsame, if_neg hnot, hkept]
    · rw [if_neg hsame]
      cases present with
      | true =>
        have hclear : x.watch.faults.present k = false := by simpa using hsame
        rw [if_pos rfl, if_pos ⟨rfl, hclear⟩, setFault_eq hwf hx (reported_rise hclear)]
        rfl
      | false =>
        have hheld : x.watch.faults.present k = true := by simpa using hsame
        rw [if_neg (by decide), if_neg (by simp), setFault_eq hwf hx (reported_fall hheld)]

/-- A slot's watch fields once its starting conditions are taken, given whether its box is full. -/
def Watch.started (full : Bool) (now : Nat) (w : Watch) : Watch :=
  ((w.reported .jabber false now).reported .doorForced false now).reported .boxFull full now

theorem startConditions_eq {slot : Nat} {s : State} {x : Terminal} (hwf : Table.wf s.terminals = true) (hx : terminal s slot = some x) :
    startConditions slot s
      = marked (boxFull x && !x.watch.faults.present .boxFull)
          (onTerminal slot (fun y => { y with watch := y.watch.started (boxFull y) s.calendar.zoneTime }) s) := by
  have hwf1 := wf_startCondition (slot := slot) (k := .jabber) (present := false) hwf
  have hwf2 := wf_startCondition (slot := slot) (k := .doorForced) (present := false) hwf1
  have hagree : onTerminal slot (fun y => { y with watch := y.watch.started (boxFull y) s.calendar.zoneTime }) s
      = onWatch slot (Watch.started (boxFull x) s.calendar.zoneTime) s := by
    refine onTerminal_eq hwf fun y hy => ?_
    obtain rfl : x = y := Option.some.inj (hx.symm.trans hy)
    rfl
  rw [hagree, startConditions, hx]
  dsimp only
  rw [startCondition_eq hwf2, startCondition_eq hwf1, startCondition_eq hwf]
  simp only [reportFault_watched, watched_calendar, watched_watched]
  rw [watched_some hx]
  rfl

theorem marked_eq (rose : Bool) (s : State) :
    marked rose s
      = { s with
          attention := { s.attention with flags := { s.attention.flags with fault := s.attention.flags.fault || rose } } } := by
  cases rose with
  | false => rw [Bool.or_false]; rfl
  | true => rw [Bool.or_true]; rfl

theorem marked_marking : Marking marked where
  none _ := rfl
  join := marked_marked
  beside a F s := by cases a <;> rfl
  terminals a s := by cases a <;> rfl
  calendar := marked_calendar

theorem forEachSlot_startConditions {s : State} (hwf : Table.wf s.terminals = true) :
    forEachSlot startConditions s
      = marked (s.terminals.any fun e => boxFull e.2 && !e.2.watch.faults.present .boxFull)
          (s.onTerminals (Table.mapAll fun y => { y with watch := y.watch.started (boxFull y) s.calendar.zoneTime })) :=
  forEachSlot_marking (due := fun y => boxFull y && !y.watch.faults.present .boxFull) marked_marking hwf fun k u x hc hw hx => by
    rw [startConditions_eq hw hx, hc]

/-- The rest of the catch-up and the starting conditions are those of the statements. -/
theorem settled_eq {s : State} (hwf : Table.wf s.terminals = true) :
    forEachSlot startConditions
        (minuteRoll (s.onTerminals (Table.mapAll fun t => { t with segment := segmentNow s t.plans })))
      = settled s := by
  have hplaced : Table.wf (minuteRoll (s.onTerminals (Table.mapAll fun t =>
      { t with segment := segmentNow s t.plans }))).terminals = true :=
    Table.wf_mapAll (fun t : Terminal => { t with segment := segmentNow s t.plans }) s.terminals hwf
  rw [forEachSlot_startConditions hplaced, marked_eq]
  simp only [minuteRoll, State.onTerminals, State.onSales, Table.mapAll, List.map_map, List.any_map, Function.comp_def]
  rfl

/-! ### A start beside the line -/

theorem caughtUp_onLine (l : Line → Line) (s : State) : caughtUp (s.onLine l) = (caughtUp s).onLine l := by
  unfold caughtUp
  dsimp only
  by_cases hclock : s.calendar.clockSet = false
  · rw [if_pos hclock]
    exact if_pos hclock
  · rw [if_neg hclock]
    refine (if_neg hclock).trans ?_
    by_cases hrolls : decide (∃ d ∈ s.calendar.lastRolled, d < today s) = false
    · rw [if_pos hrolls]
      exact if_pos hrolls
    · rw [if_neg hrolls]
      exact if_neg hrolls

theorem roundClosed_onLine (l : Line → Line) (r : Round) (s : State) : roundClosed r (s.onLine l) = (roundClosed r s).onLine l :=
  roundClosed_around id id id l r s

theorem deadlineCaught_onLine (l : Line → Line) (s : State) : deadlineCaught (s.onLine l) = (deadlineCaught s).onLine l := by
  unfold deadlineCaught
  by_cases hdue : ∃ d ∈ s.calendar.deadline, s.calendar.clockSet = true → d ≤ s.calendar.zoneTime
  · rw [if_pos hdue]
    refine (if_pos hdue).trans ?_
    rw [State.onLine_cash]
    cases s.cash.round with
    | none => rfl
    | some r => exact roundClosed_onLine l r s
  · rw [if_neg hdue]
    exact if_neg hdue

theorem settled_onLine (l : Line → Line) (s : State) : settled (s.onLine l) = (settled s).onLine l := rfl

/-! ### The starts (R179 to R181) -/

theorem caughtUp_groups (s : State) : (caughtUp s).groups = s.groups := by
  unfold caughtUp
  dsimp only
  split
  · rfl
  · split <;> rfl

theorem wf_caughtUp {s : State} (hwf : Table.wf s.terminals = true) : Table.wf (caughtUp s).terminals = true := by
  have hswitched : Table.wf (Table.mapAll (Terminal.switched s.calendar.zoneTime) s.terminals) = true := Table.wf_mapAll _ _ hwf
  unfold caughtUp
  dsimp only
  split
  · exact hwf
  · split
    · exact hswitched
    · exact hswitched

theorem wf_deadlineTaken {s : State} (hwf : Table.wf s.terminals = true) : Table.wf (deadlineTaken s).terminals = true := by
  rw [deadlineTaken]
  split
  · exact (closeAtStart_frames s).wf hwf
  · exact hwf

/-- A warm start, or an office restart (R181). -/
theorem warmStart_started (straps : Straps) (keep : Bool) {s : State} (h : TablesOrdered s) :
    WarmStarted straps keep s (warmStart straps keep s) := by
  obtain ⟨hwf, -, -, -, hgroups⟩ := h
  rw [WarmStarted, begun_eq, warmStart]
  have hwf1 : Table.wf (startAttention keep (startValues straps s)).terminals = true := Table.wf_mapAll Terminal.restarted s.terminals hwf
  have habsent : ∀ e ∈ (startAttention keep (startValues straps s)).terminals, e.2.link.state = .absent := by
    intro e he
    obtain ⟨a, -, rfl⟩ := List.mem_map.mp he
    rfl
  have hgroups1 : Table.keys (startAttention keep (startValues straps s)).groups = groupNumbers := hgroups
  generalize startAttention keep (startValues straps s) = v at hwf1 habsent hgroups1
  have hgroups2 : Table.keys (caughtUp v).groups = groupNumbers := by rw [caughtUp_groups, hgroups1]
  have hwf2 : Table.wf (deadlineCaught (caughtUp v)).terminals = true := by
    rw [← deadlineTaken_eq hgroups2]
    exact wf_deadlineTaken (wf_caughtUp hwf1)
  rw [caughtUp_onLine, deadlineCaught_onLine, settled_onLine, startFaults, catchUp_eq hwf1 habsent, deadlineTaken_eq hgroups2,
    settled_eq hwf2]
  exact (deriveAll_reacts _).onLine fun _ => openingLine

/-- What a cold start leaves, as the statements say it. -/
theorem coldStart_eq (straps : Straps) (keep : Bool) (s : State) :
    coldStart straps keep s
      = { State.cold straps with
          freeIndex := s.freeIndex
          pending := s.pending
          attention :=
            { mask := Flags.all
              flags :=
                if keep then
                  { s.attention.flags with
                    salesHalted := false, journalHigh := false, counts := false, clock := true, restarted := true }
                else { Flags.none with clock := true, restarted := true } } } := by
  have hflags : startFlags keep s.attention.flags (conditions (State.cold straps))
      = if keep then
          { s.attention.flags with
            salesHalted := false, journalHigh := false, counts := false, clock := true, restarted := true }
        else { Flags.none with clock := true, restarted := true } := by
    have hcold : conditions (State.cold straps) = { Flags.none with clock := true } := rfl
    rw [hcold]
    cases keep with
    | false => rfl
    | true => simp [startFlags, Flags.eventsOnly, Flags.set, Flags.or, Flags.none]
  rw [coldStart, hflags]
  rfl

/-- A start takes its kind from the retention-lost latch (R179). -/
theorem startBy_cold (straps : Straps) (keep : Bool) {s : State} (h : s.supply.latch = true) :
    startBy straps keep s = coldStart straps keep s := if_pos h

theorem startBy_warm (straps : Straps) (keep : Bool) {s : State} (h : s.supply.latch = false) :
    startBy straps keep s = warmStart straps keep s := if_neg (by rw [h]; decide)

/-- Settles O60. -/
theorem supplyAndStarts : Obligations.SupplyAndStarts := by
  intro s straps
  dsimp only
  simp only [← coldStart_eq]
  refine ⟨fun hbackup => ?_, fun hrunning => ⟨?_, fun duringStart => ?_⟩, fun hfree tag => ?_,
    fun r hr hrunning hkind hcode htables => ?_, fun hrunning cellBelow duringStart => ⟨?_, rfl⟩, fun hcell => ?_, fun hcell => ?_⟩
  · have harm : exec (.powerUp straps) s = .next (startBy straps s.supply.startAbandoned s) := by
      rw [exec, execPowerUp, if_pos hbackup]
    rw [harm]
    refine ⟨fun hlatch => ?_, fun hlatch htables => ⟨_, rfl, ?_⟩⟩
    · rw [startBy_cold _ _ hlatch]
    · rw [startBy_warm _ _ hlatch]
      exact warmStart_started straps _ htables
  · rw [exec, execPowerUp, if_neg (by rw [hrunning]; decide)]
  · have harm : exec (.resetPin straps duringStart) s = .next (startBy straps duringStart s) := whileRunning_running hrunning
    rw [harm]
    refine ⟨fun hlatch => ?_, fun hlatch htables => ⟨_, rfl, ?_⟩⟩
    · rw [startBy_cold _ _ hlatch]
    · rw [startBy_warm _ _ hlatch]
      exact warmStart_started straps _ htables
  · have harm : exec (.restart tag) s = officeRequest 0x1C tag (answering fun _ => ok) s := rfl
    rw [harm, officeRequest_taken hfree.1 hfree.2]
    rfl
  · have harm : exec .officeResponseSent s = .next (officeRestart s) := by
      rw [exec, execOfficeResponseSent, whileRunning_running hrunning, hr]
      exact congrArg _ (if_pos ⟨hkind, hcode⟩)
    rw [harm]
    exact ⟨_, rfl, warmStart_started _ _ htables⟩
  · exact whileRunning_running hrunning
  · rw [exec, execCellBelowRetention, if_pos hcell]
    rfl
  · rw [exec, execCellBelowRetention, if_neg (by rw [hcell]; decide)]

end Sys2Proof.Machine
end

section
/-!
PROOFS. What an act does to quotes, holds, notice queues and pending-record marks, said once. An act is a chain of few kinds of moves, and
the laws of the engine and the holds (O9), of links and notice queues (O11) and of the marks (O13) are proved of each kind.
-/

namespace Sys2Proof.Machine

open Sys2Proof

/-- The fields that none of these laws reads but through the free space. -/
abbrev quiet : List Block :=
  [.calendar, .plans, .sales, .cash, .journal, .office, .attention, .roster, .service, .freeIndex, .pending]

/-- A slot's record changes and its quote does not; its link state is kept where `steady` says so, and its link and queue stay sound
where `links` asks for it. -/
structure Tame (links steady : Prop) (x y : Terminal) : Prop where
  quote : y.quote = x.quote
  state : steady → y.link.state = x.link.state
  sound : links → SlotSound x → SlotSound y

/-- A slot's quote is over; the rest as `Tame` has it. -/
structure Ends (links steady : Prop) (x y : Terminal) : Prop where
  quote : y.quote = .none
  state : steady → y.link.state = x.link.state
  sound : links → SlotSound x → SlotSound y

/-- An answer window does not open by this change of the line. -/
abbrev NoWindow (l m : Line) : Prop :=
  m.mode = l.mode ∨ ∀ (slot : Nat) (kind : CallKind) (calledAs : LinkState) (rode : Option NoticeBody),
    m.mode ≠ .window slot kind calledAs rode

/-- A chain of moves. -/
inductive Moves (links steady : Prop) (s : State) : State → Prop
  | refl : Moves links steady s s
  | reacts {u t : State} : Moves links steady s u → Reacts u t → Moves links steady s t
  | beside {u t : State} : Moves links steady s u → Keeps quiet u t → (freeSpace u = 0 → freeSpace t = 0) → Moves links steady s t
  | owed {u v : State} : Moves links steady s u → Keeps quiet u v → Moves links steady s (if freeSpace u = 0 then withOwed v else v)
  | slot {u : State} (k : Nat) (f : Terminal → Terminal) :
      Moves links steady s u → (∀ x, terminal u k = some x → Tame links steady x (f x)) → Moves links steady s (onTerminal k f u)
  | slots {u : State} (f : Terminal → Terminal) :
      Moves links steady s u → (∀ x, Tame links steady x (f x)) → Moves links steady s (u.onTerminals (Table.mapAll f))
  | permits {u : State} (f : Permit → Permit) :
      Moves links steady s u → (∀ p, (f p).hold = p.hold) → Moves links steady s (u.onPermits (Table.mapAll f))
  | walk {u : State} (f : Walk → Walk) :
      Moves links steady s u → (∀ w, (f w).entry = w.entry ∧ (f w).discard = w.discard) →
      Moves links steady s (u.onEngine fun e => { e with walk := e.walk.map f })
  | line {u : State} (f : Line → Line) :
      Moves links steady s u → (links → NoWindow u.line (f u.line)) → Moves links steady s (u.onLine f)
  | ended {u : State} {x : Terminal} (k : Nat) (f : Terminal → Terminal) :
      Moves links steady s u → terminal u k = some x → Ends links steady x (f x) →
      Moves links steady s (onTerminal k f (quoteDropped k x.quote u))
  | sold {u : State} {x : Terminal} (k : Nat) (q : OpenQuote) (f : Terminal → Terminal) :
      Moves links steady s u → terminal u k = some x → x.quote = .opened q → Ends links steady x (f x) →
      Moves links steady s (onTerminal k f (u.onPermits (consumed k q)))

namespace Tame

variable {links steady : Prop} {x y z : Terminal}

theorem refl (x : Terminal) : Tame links steady x x := ⟨rfl, fun _ => rfl, fun _ => id⟩

theorem trans (h : Tame links steady x y) (h' : Tame links steady y z) : Tame links steady x z :=
  ⟨h'.quote.trans h.quote, fun hs => (h'.state hs).trans (h.state hs), fun hl hx => h'.sound hl (h.sound hl hx)⟩

/-- Link and quote stand. -/
theorem aside (hquote : y.quote = x.quote) (hlink : y.link = x.link) : Tame links steady x y :=
  ⟨hquote, fun _ => by rw [hlink], fun _ h => by rw [SlotSound, hquote, hlink]; exact h⟩

/-- A change of the queue alone that keeps the slot sound. -/
theorem queue {q : List Notice} (h : SlotSound x → SlotSound { x with link := { x.link with queue := q } }) :
    Tame links steady x { x with link := { x.link with queue := q } } := ⟨rfl, fun _ => rfl, fun _ => h⟩

theorem without (sort : NoticeBody → Bool) (x : Terminal) : Tame links steady x (x.without sort) := queue fun h => h.withdrawn sort

theorem considered (now : Nat) (x : Terminal) : Tame links steady x (x.considered now) :=
  ⟨by rw [considered_eq]; split <;> rfl, fun _ => by rw [considered_eq]; split <;> rfl, fun _ h => h.considered now⟩

end Tame

namespace Moves

variable {links steady : Prop} {s t u : State}

theorem trans (h : Moves links steady s t) (h' : Moves links steady t u) : Moves links steady s u := by
  induction h' with
  | refl => exact h
  | reacts _ hr ih => exact ih.reacts hr
  | beside _ hk hf ih => exact ih.beside hk hf
  | owed _ hk ih => exact ih.owed hk
  | slot k f _ hf ih => exact ih.slot k f hf
  | slots f _ hf ih => exact ih.slots f hf
  | permits f _ hf ih => exact ih.permits f hf
  | walk f _ hf ih => exact ih.walk f hf
  | line f _ hf ih => exact ih.line f hf
  | ended k f _ hx hf ih => exact ih.ended k f hx hf
  | sold k q f _ hx hq hf ih => exact ih.sold k q f hx hq hf

/-- The chain read from its last move. -/
theorem after (h' : Moves links steady t u) (h : Moves links steady s t) : Moves links steady s u := h.trans h'

/-- What keeps every link state is a chain of any kind. -/
theorem free (h : Moves links True s t) : Moves links steady s t := by
  have tame {x y : Terminal} (h : Tame links True x y) : Tame links steady x y := ⟨h.quote, fun _ => h.state trivial, h.sound⟩
  have ends {x y : Terminal} (h : Ends links True x y) : Ends links steady x y := ⟨h.quote, fun _ => h.state trivial, h.sound⟩
  induction h with
  | refl => exact .refl
  | reacts _ hr ih => exact ih.reacts hr
  | beside _ hk hf ih => exact ih.beside hk hf
  | owed _ hk ih => exact ih.owed hk
  | slot k f _ hf ih => exact ih.slot k f fun x hx => tame (hf x hx)
  | slots f _ hf ih => exact ih.slots f fun x => tame (hf x)
  | permits f _ hf ih => exact ih.permits f hf
  | walk f _ hf ih => exact ih.walk f hf
  | line f _ hf ih => exact ih.line f hf
  | ended k f _ hx hf ih => exact ih.ended k f hx (ends hf)
  | sold k q f _ hx hq hf ih => exact ih.sold k q f hx hq (ends hf)

theorem of_reacts (h : Reacts s t) : Moves links steady s t := refl.reacts h

theorem of_keeps (h : Keeps quiet s t) (hfree : freeSpace s = 0 → freeSpace t = 0) : Moves links steady s t := refl.beside h hfree

theorem onTerminal (k : Nat) (f : Terminal → Terminal) (hf : ∀ x, terminal s k = some x → Tame links steady x (f x)) :
    Moves links steady s (onTerminal k f s) := refl.slot k f hf

/-- A change of a slot's record that leaves its link and its quote. -/
theorem onAside (k : Nat) (f : Terminal → Terminal) (hquote : ∀ x, (f x).quote = x.quote) (hlink : ∀ x, (f x).link = x.link)
    (s : State) : Moves links steady s (Machine.onTerminal k f s) := onTerminal k f fun x _ => .aside (hquote x) (hlink x)

theorem onWatch (k : Nat) (f : Watch → Watch) (s : State) : Moves links steady s (onWatch k f s) :=
  onAside k (fun x => { x with watch := f x.watch }) (fun _ => rfl) (fun _ => rfl) s

theorem onQueue (k : Nat) (f : List Notice → List Notice) (s : State)
    (hf : ∀ x, terminal s k = some x → SlotSound x → SlotSound { x with link := { x.link with queue := f x.link.queue } }) :
    Moves links steady s (onQueue k f s) :=
  onTerminal k (fun x => { x with link := { x.link with queue := f x.link.queue } }) fun x hx => .queue (hf x hx)

/-- Every field that `quiet` names but the journal. -/
theorem of_beside (h : Keeps [.calendar, .plans, .sales, .cash, .office, .attention, .roster, .service, .freeIndex, .pending] s t) :
    Moves links steady s t :=
  of_keeps (fun b hb => h b fun hin => hb (by revert hin; cases b <;> decide))
    fun hfree => (freeSpace_congr (h .journal (by decide))).trans hfree

theorem onCalendar (f) (s : State) : Moves links steady s (s.onCalendar f) :=
  of_beside fun b hb => by cases b <;> first | rfl | exact absurd (by decide) hb
theorem onPlans (f) (s : State) : Moves links steady s (s.onPlans f) :=
  of_beside fun b hb => by cases b <;> first | rfl | exact absurd (by decide) hb
theorem onSales (f) (s : State) : Moves links steady s (s.onSales f) :=
  of_beside fun b hb => by cases b <;> first | rfl | exact absurd (by decide) hb
theorem onCash (f) (s : State) : Moves links steady s (s.onCash f) :=
  of_beside fun b hb => by cases b <;> first | rfl | exact absurd (by decide) hb
theorem onAttention (f) (s : State) : Moves links steady s (s.onAttention f) :=
  of_beside fun b hb => by cases b <;> first | rfl | exact absurd (by decide) hb
theorem onRoster (f) (s : State) : Moves links steady s (s.onRoster f) :=
  of_beside fun b hb => by cases b <;> first | rfl | exact absurd (by decide) hb
theorem setFreeIndex (n : Nat) (s : State) : Moves links steady s (s.setFreeIndex n) :=
  of_beside fun b hb => by cases b <;> first | rfl | exact absurd (by decide) hb

theorem raise (f : Flag) (s : State) : Moves links steady s (raise f s) := onAttention _ s
theorem refresh (s : State) : Moves links steady s (refresh s) := onAttention _ s

/-- The journal changes and no space becomes free. -/
theorem onJournal (f : Journal → Journal) (s : State) (h : freeSpace s = 0 → freeSpace (s.onJournal f) = 0) :
    Moves links steady s (s.onJournal f) :=
  of_keeps (fun b hb => by cases b <;> first | rfl | exact absurd (by decide) hb) h

theorem append (body : RecordBody) (s : State) : Moves links steady s (append body s) :=
  .after (refresh _) (onJournal _ s fun h => by
    simp only [freeSpace, used, State.onJournal_journal, List.length_append, List.length_singleton] at h ⊢
    omega)

theorem appendReserved (body : RecordBody) (s : State) : Moves links steady s (appendReserved body s) :=
  .after (refresh _) (onJournal _ s fun h => by
    simp only [freeSpace, used, State.onJournal_journal, List.length_append, List.length_singleton] at h ⊢
    omega)

theorem foldl {β : Type} (f : State → β → State) (hf : ∀ s b, Moves links steady s (f s b)) (l : List β) (s : State) :
    Moves links steady s (l.foldl f s) := by
  induction l generalizing s with
  | nil => exact .refl
  | cons b l ih => exact (hf s b).trans (ih _)

theorem forEach (f : Nat → State → State) (hf : ∀ k s, Moves links steady s (f k s)) (s : State) :
    Moves links steady s (forEachSlot f s) := foldl _ (fun s k => hf k s) _ s

theorem onLine (f : Line → Line) (s : State) (h : links → NoWindow s.line (f s.line)) : Moves links steady s (s.onLine f) :=
  refl.line f h

end Moves

/-! ### The shared operations -/

section
variable {links steady : Prop}

theorem considerSleep_moves (slot : Nat) (s : State) : Moves links steady s (considerSleep slot s) :=
  (Moves.onTerminal slot _ fun x _ => .considered _ x).reacts (considerSleep_reacts slot s)

theorem reportFault_moves (slot : Nat) (k : FaultKind) (present : Bool) (s : State) :
    Moves links steady s (reportFault slot k present s) := by
  unfold reportFault
  split
  · exact .refl
  · have hreported := Moves.onAside (links := links) (steady := steady) slot
      (Terminal.onFault k (FaultRecord.reported present s.calendar.zoneTime)) (fun _ => rfl) (fun _ => rfl) s
    dsimp only
    split
    · exact hreported.trans (.onAttention (fun a => { a with flags := { a.flags with fault := true } }) _)
    · exact hreported

theorem conditionRises_moves (slot : Nat) (k : FaultKind) (s : State) : Moves links steady s (conditionRises slot k s) :=
  (reportFault_moves slot k true s).reacts (conditionRises_reacts slot k s)

theorem conditionEnds_moves (slot : Nat) (k : FaultKind) (s : State) : Moves links steady s (conditionEnds slot k s) :=
  (reportFault_moves slot k false s).reacts (conditionEnds_reacts slot k s)

theorem reportCondition_moves (slot : Nat) (k : FaultKind) (present : Bool) (s : State) :
    Moves links steady s (reportCondition slot k present s) :=
  (reportFault_moves slot k present s).reacts (reportCondition_reacts slot k present s)

theorem raiseEventFault_moves (slot : Nat) (k : FaultKind) (s : State) : Moves links steady s (raiseEventFault slot k s) := by
  unfold raiseEventFault
  split
  · exact .refl
  · exact .after (.raise _ _) (.onWatch slot _ s)

theorem deriveService_moves (slot : Nat) (s : State) : Moves links steady s (deriveService slot s) :=
  .of_reacts (deriveService_reacts slot s)

theorem haltChanged_moves (before : Bool) (s : State) : Moves links steady s (haltChanged before s) :=
  .of_reacts (haltChanged_reacts before s)

/-- A slot's link state. -/
def stateAt (slot : Nat) (s : State) : Option LinkState := (terminal s slot).map (·.link.state)

/-- The slot, where it is configured, is ACTIVE or SLEEPING. -/
abbrev Enrolled (slot : Nat) (s : State) : Prop :=
  ∀ x, terminal s slot = some x → x.link.state = .active ∨ x.link.state = .sleeping

theorem told_tame {sort : NoticeBody → Bool} {c : NoticeSort} {body : NoticeBody} (hsort : sort = c.is) (hbody : body.sort = c)
    (hc : c = .result ∨ c = .service ∨ c = .time) {x : Terminal} (hx : x.link.state = .active ∨ x.link.state = .sleeping) :
    Tame links steady x { x with link := { x.link with queue := joinQueue sort body x.link.queue } } := by
  subst hsort
  exact .queue fun h => h.joined hx hbody hc

theorem queueResult_moves (slot : Nat) (body : NoticeBody) (hbody : body.isResult = true) (s : State) (h : Enrolled slot s) :
    Moves links steady s (queueResult slot body s) :=
  .onTerminal slot (fun x => { x with link := { x.link with queue := joinQueue NoticeBody.isResult body x.link.queue } })
    fun x hx => told_tame isResult_eq (by rw [isResult_eq] at hbody; simpa [NoticeSort.is] using hbody) (.inl rfl) (h x hx)

theorem queueTime_moves (slot : Nat) (s : State) (h : Enrolled slot s) : Moves links steady s (queueTime slot s) :=
  .onTerminal slot (fun x => { x with link := { x.link with queue := joinQueue NoticeBody.isTime _ x.link.queue } })
    fun x hx => told_tame isTime_eq rfl (.inr (.inr rfl)) (h x hx)

theorem enrolled_iff (l : LinkState) : l.enrolled = true ↔ l = .active ∨ l = .sleeping := by cases l <;> decide

theorem timeForAll_moves (s : State) : Moves links steady s (timeForAll s) := by
  refine .forEach _ (fun k s => ?_) s
  split
  · exact .refl
  · next t ht =>
    split
    · next henrolled =>
      refine queueTime_moves k s fun x hx => ?_
      obtain rfl := Option.some.inj (ht.symm.trans hx)
      exact (enrolled_iff _).mp henrolled
    · split
      · exact .onTerminal k (fun x => { x with link := { x.link with timeOwed := true } }) fun x _ =>
          ⟨rfl, fun _ => rfl, fun _ h => h⟩
      · exact .refl

theorem bounded_tame (now : Nat) (found : Option Segment) (x : Terminal) : Tame links steady x (x.bounded now found) := by
  by_cases h : found = x.segment
  · rw [bounded_same h]
    exact .refl x
  · rw [bounded_eq h]
    have hqueue : Tame links steady x
        { x with segment := found, link := { x.link with queue := boundaryQueue now x.link.state found x.link.queue } } :=
      ⟨rfl, fun _ => rfl, fun _ hs => hs.boundary now found⟩
    exact hqueue.trans (.considered now _)

theorem refind_moves (slot : Nat) (s : State) : Moves links steady s (refind slot s) :=
  (Moves.onTerminal slot _ fun x _ => bounded_tame _ _ x).reacts (refind_reacts slot s)

theorem takeSwitch_moves (slot : Nat) (s : State) : Moves links steady s (takeSwitch slot s) := by
  unfold takeSwitch
  split
  · exact .refl
  · split
    · split
      · exact .after (.raise _ _) (.onAside slot _ (by intro; rfl) (by intro; rfl) s)
      · exact .refl
    · exact .refl

end

end Sys2Proof.Machine
end

section
/-!
PROOFS. The moves of each operation.
-/

namespace Sys2Proof.Machine

open Sys2Proof

/-! ### What moves keep -/

theorem terminal_onTerminal (k : Nat) (f : Terminal → Terminal) (s : State) (j : Nat) :
    terminal (onTerminal k f s) j = if k = j then (terminal s j).map f else terminal s j := by
  simp only [terminal, onTerminal, State.onTerminals_terminals, Table.find?_modify]

theorem terminal_mapAll (f : Terminal → Terminal) (s : State) (j : Nat) :
    terminal (s.onTerminals (Table.mapAll f)) j = (terminal s j).map f := by
  simp only [terminal, State.onTerminals_terminals, Table.find?_mapAll]

theorem withOwed_keeps (s : State) : Keeps [.groups, .journal, .attention] s (withOwed s) := by
  intro b hb
  rw [withOwed_eq, afterOwed]
  split
  · cases b <;> rfl
  · rw [foldl_owedRecord]
    cases b <;> first | rfl | exact absurd (by decide) hb

theorem Reacts.stateAt {u t : State} (h : Reacts u t) (k : Nat) : stateAt k t = stateAt k u := by
  unfold Machine.stateAt
  rcases h.slot_cases k with ⟨hu, ht⟩ | ⟨x, y, hx, hy, hxy⟩
  · rw [hu, ht]
  · rw [hx, hy, Option.map_some, Option.map_some, hxy.state]

theorem stateAt_congr {u t : State} (h : t.terminals = u.terminals) (k : Nat) : stateAt k t = stateAt k u := by
  rw [stateAt, stateAt, terminal, terminal, h]

theorem stateAt_onTerminal {k : Nat} {f : Terminal → Terminal} {u : State}
    (h : ∀ x, terminal u k = some x → (f x).link.state = x.link.state) (j : Nat) :
    stateAt j (onTerminal k f u) = stateAt j u := by
  rw [stateAt, stateAt, terminal_onTerminal]
  split
  · next heq =>
    subst heq
    cases hx : terminal u k with
    | none => rfl
    | some x => exact congrArg some (h x hx)
  · rfl

/-- A chain that keeps the link states keeps them. -/
theorem Moves.stateAt {links : Prop} {s t : State} (h : Moves links True s t) (k : Nat) : stateAt k t = stateAt k s := by
  induction h with
  | refl => rfl
  | reacts _ hr ih => exact (hr.stateAt k).trans ih
  | beside _ hk _ ih => exact (stateAt_congr (hk .terminals (by decide)) k).trans ih
  | @owed u v _ hk ih =>
    refine Eq.trans ?_ ih
    have hv : Machine.stateAt k v = Machine.stateAt k u := stateAt_congr (hk .terminals (by decide)) k
    split
    · exact (stateAt_congr (withOwed_keeps v .terminals (by decide)) k).trans hv
    · exact hv
  | slot j f _ hf ih => exact (stateAt_onTerminal (fun x hx => (hf x hx).state trivial) k).trans ih
  | @slots u f _ hf ih =>
    refine Eq.trans ?_ ih
    rw [Machine.stateAt, Machine.stateAt, terminal_mapAll]
    cases hx : terminal u k with
    | none => rfl
    | some x => exact congrArg some ((hf x).state trivial)
  | permits _ _ _ ih => exact ih
  | walk _ _ _ ih => exact ih
  | line _ _ _ ih => exact ih
  | @ended u x j f _ hx hf ih =>
    have hdropped (i : Nat) : Machine.stateAt i (quoteDropped j x.quote u) = Machine.stateAt i u := by
      rw [Machine.stateAt, Machine.stateAt, terminal_quoteDropped]
    refine (stateAt_onTerminal (fun y hy => ?_) k).trans ((hdropped k).trans ih)
    rw [terminal_quoteDropped] at hy
    obtain rfl := Option.some.inj (hx.symm.trans hy)
    exact hf.state trivial
  | @sold u x j q f _ hx _ hf ih =>
    refine (stateAt_onTerminal (u := u.onPermits (consumed j q)) (fun y hy => ?_) k).trans ih
    obtain rfl := Option.some.inj (hx.symm.trans hy)
    exact hf.state trivial

theorem enrolled_of_stateAt {k : Nat} {s : State} {l : LinkState} (h : stateAt k s = some l) (hl : l = .active ∨ l = .sleeping) :
    Enrolled k s := by
  intro x hx
  rw [stateAt, hx] at h
  rw [show x.link.state = l from Option.some.inj h]
  exact hl

/-! ### The end of a quote -/

theorem SlotSound.unquoted {x : Terminal} (h : SlotSound x) : SlotSound { x with quote := .none } := by
  obtain ⟨hlink, hqueue, -⟩ := h
  obtain ⟨hnumbers, henrolled, hsleep, hwake⟩ := (queueSound_iff _ _).mp hqueue
  exact ⟨hlink, (queueSound_iff _ _).mpr ⟨hnumbers, henrolled, fun hs => ⟨(hsleep hs).1, rfl⟩, hwake⟩, fun hne => absurd rfl hne⟩

section
variable {links steady : Prop}

theorem quoteClosed_ends {x y : Terminal} (now : Nat) (hquote : y.quote = x.quote)
    (hstate : steady → y.link.state = x.link.state) (hsound : links → SlotSound x → SlotSound { y with quote := .none }) :
    Ends links steady x (y.quoteClosed now x.quote) := by
  unfold Terminal.quoteClosed
  split
  · next hnone =>
    have hy : { y with quote := .none } = y := by rw [← hnone, ← hquote]
    exact ⟨hquote.trans hnone, hstate, fun hl hx => (hy ▸ hsound hl hx).withdrawn _⟩
  · have hconsidered := Tame.considered (links := links) (steady := steady) now { y.without NoticeBody.isResult with quote := .none }
    exact ⟨hconsidered.quote, fun hs => (hconsidered.state hs).trans (hstate hs),
      fun hl hx => hconsidered.sound hl ((hsound hl hx).withdrawn NoticeBody.isResult)⟩

/-- A change of a slot's record with which its quote ends. -/
theorem quoteEnded_moves {slot : Nat} {g : Terminal → Terminal} {s : State} (hquote : ∀ x, (g x).quote = x.quote)
    (hstate : ∀ x, terminal s slot = some x → steady → (g x).link.state = x.link.state)
    (hsound : ∀ x, terminal s slot = some x → links → SlotSound x → SlotSound { g x with quote := .none }) :
    Moves links steady s (quoteEnded slot (onTerminal slot g s)) := by
  cases hx : terminal s slot with
  | none =>
    rw [onTerminal_absent hx, quoteEnded_none hx]
    exact .refl
  | some x =>
    have hmerged : onTerminal slot (Terminal.quoteClosed s.calendar.zoneTime x.quote)
          (onTerminal slot g (quoteDropped slot x.quote s))
        = onTerminal slot (fun y => (g y).quoteClosed s.calendar.zoneTime x.quote) (quoteDropped slot x.quote s) :=
      onTerminal_onTerminal slot _ g _
    rw [quoteEnded_some (terminal_onTerminal_self hx), hquote x, quoteDropped_onTerminal]
    exact hmerged ▸ Moves.refl.ended slot _ hx (quoteClosed_ends _ (hquote x) (hstate x hx) (hsound x hx))

theorem endQuote_moves (slot : Nat) (s : State) : Moves links steady s (endQuote slot s) := by
  have h := quoteEnded_moves (links := links) (steady := steady) (slot := slot) (g := fun x => x) (s := s) (fun _ => rfl)
    (fun _ _ _ => rfl) fun _ _ _ hx => hx.unquoted
  have hsame : onTerminal slot (fun x => x) s = s := by
    rw [onTerminal, State.onTerminals, Table.modify]
    simp
  rw [hsame] at h
  exact h.reacts (endQuote_reacts slot s)

theorem without_ends {sort : NoticeBody → Bool} {x y : Terminal} (h : Ends links steady x y) : Ends links steady x (y.without sort) :=
  ⟨h.quote, h.state, fun hl hx => (h.sound hl hx).withdrawn sort⟩

theorem closedBy_ends (c : ClosedQuote) {x y : Terminal} (hstate : y.link = x.link) : Ends links steady x (y.closedBy c) :=
  ⟨rfl, fun _ => by rw [← hstate]; rfl, fun _ h => by
    have := h.unquoted
    rw [SlotSound] at this ⊢
    rw [show (y.closedBy c).link = x.link from hstate]
    exact this⟩

theorem expireQuote_moves {slot : Nat} {q : OpenQuote} {s : State} {x : Terminal} (hx : terminal s slot = some x)
    (hq : x.quote = .opened q) : Moves links steady s (expireQuote slot q s) := by
  have hended := Moves.refl.ended (links := links) (steady := steady) slot
    (fun y : Terminal => Terminal.without (NoticeBody.isResultOf q.quoteId) (y.closedBy (.expired q.quoteId))) hx
    (without_ends (closedBy_ends _ rfl))
  rw [hq] at hended
  rw [expireQuote_merged]
  exact hended.trans (considerSleep_moves slot _)

/-! ### Quotes and sales -/

theorem silenceSample_moves (slot : Nat) (s : State) : Moves links steady s (silenceSample slot s) :=
  .after (conditionEnds_moves slot .silent _) (.onWatch slot _ s)

theorem evaluateBox_moves (slot : Nat) (s : State) : Moves links steady s (evaluateBox slot s) := by
  unfold evaluateBox
  split
  · exact .refl
  · exact reportCondition_moves _ _ _ _

theorem told_moves {slot : Nat} {body : NoticeBody} (hbody : body.isResult = true) {s : State} (h : Enrolled slot s) :
    Moves links steady s (onTerminal slot (Terminal.told NoticeBody.isResult body) s) := by
  rw [← queueResult_eq]
  exact queueResult_moves slot body hbody s h

/-- The slot is enrolled after moves that keep its link state. -/
theorem Moves.enrolled {s t : State} (h : Moves links True s t) {k : Nat} (hk : Enrolled k s) : Enrolled k t := by
  intro x hx
  have hsame := h.stateAt k
  cases hy : terminal s k with
  | none => rw [Machine.stateAt, Machine.stateAt, hx, hy] at hsame; cases hsame
  | some y => exact enrolled_of_stateAt (hsame.trans (by rw [Machine.stateAt, hy]; rfl)) (hk y hy) x hx

theorem sell_moves {slot : Nat} {t : Terminal} {q : OpenQuote} {s : State} (coins : Six) (card : Nat) (ht : terminal s slot = some t)
    (hq : t.quote = .opened q) (hstate : t.link.state = .active ∨ t.link.state = .sleeping) :
    Moves links True s (sell slot t q coins card s) := by
  have hnoted : Moves links True s ((append (saleRecord slot q coins card s) (ticketTaken s)).onSales
      (ticketAdded slot s.sales.nextTicket t q)) :=
    .after (.onSales _ _) (.after (.append _ _) (.onSales _ s))
  have hmade : Moves links True s (saleMade slot t q coins card s) := by
    have h := hnoted.sold slot q (Terminal.sold coins card (soldAs q coins card s)) ht hq (closedBy_ends _ rfl)
    rw [append_eq] at h
    exact h
  have henrolled : Enrolled slot s := by
    intro x hx
    obtain rfl := Option.some.inj (ht.symm.trans hx)
    exact hstate
  have hboxed : Moves links True s
      (if coins = .zero then saleMade slot t q coins card s
        else reportFault slot .boxFull (boxFull (t.paid coins card)) (saleMade slot t q coins card s)) := by
    split
    · exact hmade
    · exact hmade.trans (reportFault_moves _ _ _ _)
  have hsilent := hboxed.trans (reportFault_moves slot .silent false _)
  refine Moves.reacts ?_ (sell_reacts q coins card ht)
  refine hsilent.slot slot _ fun x hx => ?_
  have htold : Tame links True x (x.told NoticeBody.isResult (saleTold q coins card s)) := by
    rw [Terminal.told, ← joinQueue_eq]
    exact told_tame isResult_eq rfl (.inl rfl) (hsilent.enrolled henrolled x hx)
  exact htold.trans (.considered _ _)

theorem refuseSale_moves (slot quoteId : Nat) (code : Code) (s : State) (h : Enrolled slot s) :
    Moves links steady s (refuseSale slot quoteId code s) := queueResult_moves slot _ rfl s h

theorem confirmClosed_moves (slot quoteId : Nat) (closed : Option ClosedQuote) (s : State) (h : Enrolled slot s) :
    Moves links steady s (confirmClosed slot quoteId closed s) := by
  unfold confirmClosed
  split
  · split
    · exact queueResult_moves slot _ rfl s h
    · exact refuseSale_moves _ _ _ _ h
  · exact refuseSale_moves _ _ _ _ h
  · exact refuseSale_moves _ _ _ _ h

theorem takeConfirm_moves (slot quoteId : Nat) (coins : Six) (card : Nat) (s : State) (h : Enrolled slot s) :
    Moves links True s (takeConfirm slot quoteId coins card s) := by
  unfold takeConfirm
  split
  · exact .refl
  · next t ht =>
    split
    · exact confirmClosed_moves _ _ _ _ h
    · exact refuseSale_moves _ _ _ _ h
    · exact refuseSale_moves _ _ _ _ h
    · next q hq =>
      split
      · exact sell_moves coins card ht hq (h t ht)
      · have hexpired : Moves links True s (expireQuote slot q s) := expireQuote_moves ht hq
        exact hexpired.trans (refuseSale_moves _ _ _ _ (hexpired.enrolled h))
      · exact refuseSale_moves _ _ _ _ h

/-! ### The Cash Unit -/

theorem cutTally_moves (slot key : Nat) (t : Terminal) (r : Round) (s : State) : Moves links steady s (cutTally slot key t r s) := by
  unfold cutTally
  exact .after (.onAside slot _ (by intro; rfl) (by intro; rfl) _) (.after (.appendReserved _ _) (.onCash _ s))

theorem collectorOpening_moves (slot key : Nat) (s : State) : Moves links steady s (collectorOpening slot key s) := by
  unfold collectorOpening
  split
  · exact .refl
  · split
    · exact raiseEventFault_moves _ _ _
    · split
      · exact raiseEventFault_moves _ _ _
      · split
        · exact raiseEventFault_moves _ _ _
        · split
          · exact .after (conditionEnds_moves _ _ _) (cutTally_moves _ _ _ _ s)
          · exact .refl

/-- A round is opened where free space is left, so no mark stands. -/
theorem openRound_moves (collector key : Nat) (entries : List RoundEntry) {s : State} (h : freeSpace s ≠ 0) :
    Moves links steady s (openRound collector key entries s) := by
  refine .after (haltChanged_moves _ _) (.after (.raise _ _) ?_)
  rw [recordRound_eq]
  exact .of_keeps (fun b hb => by cases b <;> first | rfl | exact absurd (by decide) hb) fun hfree => absurd hfree h

theorem reconcile_moves (c : Collection) (counts : Six) (s : State) : Moves links steady s (reconcile c counts s) := by
  unfold reconcile
  dsimp only
  have hdone := Moves.after (links := links) (steady := steady)
    (.onCash (fun k => { k with collections := k.collections.filter fun x => x.number ≠ c.number }) _)
    (.after (haltChanged_moves (salesHalted s) _)
      (.append (.reconciled c.number counts c.value (counts.value s.cash.denominations) (discrepancyOf s c counts) (outcomeFor s c counts)) s))
  split
  · exact hdone.trans (raiseEventFault_moves _ _ _)
  · exact hdone

/-- The free space may have risen, and the owed records follow. -/
theorem spaceRose_moves {s u v : State} (halted : Bool) (h : Moves links steady s u) (hk : Keeps quiet u v)
    (hgroups : Table.keys v.groups = groupNumbers) : Moves links steady s (spaceRose (freeSpace u) halted v) :=
  (h.owed hk).reacts (spaceRose_reacts (freeSpace u) halted hgroups)

theorem removeRecords_moves (n : Nat) {s : State} (hgroups : Table.keys s.groups = groupNumbers) :
    Moves links steady s (removeRecords n s) :=
  spaceRose_moves _ .refl (fun b hb => by cases b <;> first | rfl | exact absurd (by decide) hb) hgroups

theorem closeRoundCore_keeps (r : Round) (s : State) : Keeps quiet s (closeRoundCore r s) := by
  intro b hb
  cases b <;> first | exact absurd (by decide) hb | rfl

theorem closeRound_moves (r : Round) {s : State} (hgroups : Table.keys s.groups = groupNumbers) :
    Moves links steady s (closeRound r s) :=
  spaceRose_moves _ .refl (closeRoundCore_keeps r s) hgroups

theorem deliverDeadline_moves {s : State} (hgroups : Table.keys s.groups = groupNumbers) :
    Moves links steady s (deliverDeadline s) := by
  unfold deliverDeadline
  split
  · exact closeRound_moves _ hgroups
  · exact .onCalendar _ s

/-! ### The status word -/

theorem takeReport_moves (slot : Nat) (k : ReportKind) (report : Bool) (s : State) :
    Moves links steady s (takeReport slot k report s) := by
  unfold takeReport
  split
  · exact .refl
  · split
    · exact .after (reportCondition_moves _ _ _ _) (.onWatch slot _ s)
    · exact .refl

theorem takeReports_moves (slot : Nat) (r : Reports) (s : State) : Moves links steady s (takeReports slot r s) := by
  unfold takeReports
  exact .after (.onWatch slot _ _) (.after (takeReport_moves slot _ _ _) (.after (takeReport_moves slot _ _ _)
    (.after (takeReport_moves slot _ _ _) (takeReport_moves slot _ _ s))))

theorem filterPower_moves (slot : Nat) (c : PowerClass) (s : State) : Moves links steady s (filterPower slot c s) := by
  unfold filterPower
  split
  · exact .refl
  · dsimp only
    split
    · exact .after (reportCondition_moves _ _ _ _) (.after (.onWatch slot _ _) (.onWatch slot _ s))
    · exact .onWatch slot _ s

theorem criticalRun_moves (slot : Nat) (c : PowerClass) (s : State) : Moves links steady s (criticalRun slot c s) := by
  unfold criticalRun
  split
  · exact .refl
  · split
    · exact .after (conditionRises_moves _ _ _) (.onWatch slot _ s)
    · split
      · split
        · exact .after (conditionEnds_moves _ _ _) (.onWatch slot _ s)
        · exact .onWatch slot _ s
      · exact .refl

theorem openDoor_moves (slot : Nat) (key : DoorKey) (s : State) : Moves links steady s (openDoor slot key s) := by
  have hended : Moves links steady s (endQuote slot (withdrawSleep slot (onWatch slot (fun w => { w with door := .opened key }) s))) :=
    .after (endQuote_moves slot _) (.after (.onQueue slot _ _ fun _ _ h => h.withdrawn _) (.onWatch slot _ s))
  unfold openDoor
  refine .after (deriveService_moves slot _) ?_
  cases key with
  | collector n => exact hended.trans (collectorOpening_moves _ _ _)
  | none => exact hended.trans (conditionRises_moves _ _ _)
  | engineer => exact hended

theorem closeDoor_moves (slot : Nat) (s : State) : Moves links steady s (closeDoor slot s) := by
  unfold closeDoor
  exact .after (considerSleep_moves slot _) (.after (deriveService_moves slot _) (.after (conditionEnds_moves slot _ _)
    (.onWatch slot _ s)))

theorem takeDoor_moves (slot : Nat) (d : Door) (s : State) : Moves links steady s (takeDoor slot d s) := by
  unfold takeDoor
  split
  · exact .refl
  · split
    · exact openDoor_moves _ _ _
    · exact closeDoor_moves _ _
    · exact .refl

theorem takeStatus_moves (slot : Nat) (w : StatusWord) (s : State) : Moves links steady s (takeStatus slot w s) :=
  .after (takeDoor_moves slot w.door _) (.after (criticalRun_moves slot w.power _) (.after (filterPower_moves slot w.power _)
    (takeReports_moves slot w.reports s)))

end

end Sys2Proof.Machine
end

section
/-!
PROOFS. The moves of the link states, of answers and of the events of time.
-/

namespace Sys2Proof.Machine

open Sys2Proof

/-! ### Link states -/

theorem SlotSound.emptied {x : Terminal} (hlink : LinkSound x.link) (hqueue : x.link.queue = []) :
    SlotSound { x with quote := .none } := by
  refine ⟨hlink, (queueSound_iff _ _).mpr ?_, fun hne => absurd rfl hne⟩
  rw [show ({ x with quote := .none } : Terminal).link.queue = [] from hqueue]
  exact ⟨.nil, fun hne => absurd rfl hne, fun hne => absurd rfl hne, fun hne => absurd rfl hne⟩

theorem leave_sound {l : Link} (uptime : Nat) {new : LinkState} (hnew : new.called = false) (hmisses : new = .barred → l.misses < 3) :
    LinkSound (l.leave uptime new) := by
  refine ⟨fun h => ?_, ?_, fun h => ?_, ?_⟩
  · rw [show (l.leave uptime new).state = new from rfl, hnew] at h
    cases h
  · by_cases h : new = .barred <;> simp [Link.leave, h]
  · rw [show (l.leave uptime new).state = new from rfl] at h
    simp [Link.leave, h]
  · by_cases h : new = .barred
    · simpa [Link.leave, h] using hmisses h
    · simp [Link.leave, h]

/-- A slot that is not enrolled has an empty queue, and one that is not ACTIVE has no quote. -/
theorem SlotSound.empty {x : Terminal} (h : SlotSound x) (hstate : x.link.state ≠ .active ∧ x.link.state ≠ .sleeping) :
    x.link.queue = [] ∧ x.quote = .none := by
  obtain ⟨-, hqueue, hquote⟩ := h
  obtain ⟨-, henrolled, -⟩ := (queueSound_iff _ _).mp hqueue
  refine ⟨?_, ?_⟩
  · by_contra hne
    exact (henrolled hne).elim hstate.1 hstate.2
  · by_contra hne
    exact hstate.1 (hquote hne)

section
variable {links steady : Prop}

/-- A slot leaves its state, whatever else its link goes through before. -/
theorem leaveTo_moves {slot : Nat} {new : LinkState} (f : Link → Link) (s : State) (hnew : new.called = false)
    (hmisses : new = .barred → ∀ l, (f l).misses = l.misses) : Moves links False s (leaveTo slot new (onLink slot f s)) := by
  have hmerged : onTerminal slot (fun y => { y with link := y.link.leave s.calendar.uptime new }) (onLink slot f s)
      = onTerminal slot (fun y => { y with link := (f y.link).leave s.calendar.uptime new }) s := onTerminal_onTerminal slot _ _ s
  have hended : Moves links False s
      (quoteEnded slot (onTerminal slot (fun y => { y with link := (f y.link).leave s.calendar.uptime new }) s)) :=
    quoteEnded_moves (fun _ => rfl) (fun _ _ h => h.elim) fun x _ _ hx =>
      SlotSound.emptied (x := { x with link := (f x.link).leave s.calendar.uptime new })
        (leave_sound _ hnew fun h => by rw [hmisses h]; exact hx.1.2.2.2) rfl
  rw [← hmerged] at hended
  exact hended.reacts (leaveTo_reacts slot new (onLink slot f s))

theorem onLink_same (slot : Nat) (s : State) : onLink slot (fun l => l) s = s := by
  rw [onLink, onTerminal, State.onTerminals, Table.modify]
  simp

theorem leaveTo_moves_plain (slot : Nat) {new : LinkState} (s : State) (hnew : new.called = false) :
    Moves links False s (leaveTo slot new s) := by
  have h := leaveTo_moves (links := links) (slot := slot) (fun l => l) s hnew fun _ _ => rfl
  rwa [onLink_same] at h

theorem barSlot_moves (slot : Nat) (s : State) : Moves links False s (barSlot slot s) :=
  .after (conditionRises_moves slot .jabber _) (leaveTo_moves_plain slot s rfl)

theorem endBar_moves (slot : Nat) (s : State) : Moves links False s (endBar slot s) :=
  .after (conditionEnds_moves slot .jabber _) (leaveTo_moves_plain slot s rfl)

theorem granted_sound (form : OfferForm) : LinkSound (Link.granted form) := by
  refine ⟨fun _ => rfl, ?_, fun h => ?_, Nat.zero_lt_succ 2⟩
  · simp [Link.granted]
  · cases h

theorem grantSlot_moves (slot : Nat) (form : OfferForm) (s : State) : Moves links False s (grantSlot slot form s) := by
  have hended : Moves links False s (quoteEnded slot (onTerminal slot (fun y => { y with link := Link.granted form }) s)) :=
    quoteEnded_moves (fun _ => rfl) (fun _ _ h => h.elim) fun x _ _ _ =>
      SlotSound.emptied (x := { x with link := Link.granted form }) (granted_sound form) rfl
  unfold grantSlot
  exact .after (deriveService_moves slot _) (.after (conditionEnds_moves slot .linkLost _) (.after (.onWatch slot _ _)
    (hended.reacts (endQuote_reacts slot _))))

theorem missSlot_moves (slot : Nat) (calledAs : LinkState) (s : State) : Moves links False s (missSlot slot calledAs s) := by
  unfold missSlot
  split
  · exact .refl
  · next t ht =>
    split
    · dsimp only
      split
      · exact leaveTo_moves _ s rfl fun h => by cases h
      · split
        · exact leaveTo_moves _ s rfl fun h => by cases h
        · next hfew =>
          refine .onTerminal slot _ fun x hx => ⟨rfl, fun h => h.elim, fun _ hs => ?_⟩
          obtain rfl := Option.some.inj (ht.symm.trans hx)
          obtain ⟨⟨hlost, hbar, habsent, -⟩, hqueue, hquote⟩ := hs.unmarked
          exact ⟨⟨hlost, hbar, habsent, show t.link.misses + 1 < 3 by omega⟩, hqueue, hquote⟩
    · exact .refl

theorem fallAsleep_moves (slot : Nat) (s : State)
    (h : links → ∀ x, terminal s slot = some x → x.link.state = .active ∧ x.quote = .none) :
    Moves links False s (fallAsleep slot s) := by
  refine (Moves.onTerminal slot _ fun x hx => ?_).reacts (fallAsleep_reacts slot s)
  refine ⟨rfl, fun h => h.elim, fun hl hs => ?_⟩
  obtain ⟨hactive, hnone⟩ := h hl x hx
  obtain ⟨⟨hlost, hbar, -, -⟩, hqueue, -⟩ := hs.filtered fun n => decide (n.body ≠ .sleep)
  obtain ⟨hnumbers, -, -, -⟩ := (queueSound_iff _ _).mp hqueue
  refine ⟨⟨fun _ => hlost (by rw [hactive]; rfl), ?_, (fun h => by cases h), Nat.zero_lt_succ 2⟩,
    (queueSound_iff _ _).mpr ⟨hnumbers, fun _ => .inr rfl, fun hne => absurd ?_ hne, fun _ => rfl⟩, fun hne => absurd hnone hne⟩
  · rw [hbar, hactive]
    simp
  · rw [tally_eq_zero]
    intro n hn
    have hbody : n.body ≠ .sleep := of_decide_eq_true (List.mem_filter.mp hn).2
    cases hb : n.body with
    | sleep => exact absurd hb hbody
    | _ => exact NoticeSort.noConfusion

theorem woken_sound {x : Terminal} (h : SlotSound x) (hsleeping : x.link.state = .sleeping) :
    SlotSound { x with link := { x.link with state := .active, queue := x.link.queue.filter fun n => n.body ≠ .wake } } := by
  have hnone : x.quote = .none := by
    by_contra hne
    rw [h.2.2 hne] at hsleeping
    cases hsleeping
  obtain ⟨⟨hlost, hbar, -, hmisses⟩, hqueue, -⟩ := h.filtered fun n => decide (n.body ≠ .wake)
  obtain ⟨hnumbers, -, -, -⟩ := (queueSound_iff _ _).mp hqueue
  refine ⟨⟨fun _ => hlost (by rw [hsleeping]; rfl), ?_, (fun h => by cases h), hmisses⟩,
    (queueSound_iff _ _).mpr ⟨hnumbers, fun _ => .inl rfl, fun _ => ⟨rfl, hnone⟩, fun hne => absurd ?_ hne⟩, fun _ => rfl⟩
  · rw [hbar, hsleeping]
    simp
  · rw [tally_eq_zero]
    intro n hn
    have hbody : n.body ≠ .wake := of_decide_eq_true (List.mem_filter.mp hn).2
    cases hb : n.body with
    | wake => exact absurd hb hbody
    | _ => exact NoticeSort.noConfusion

theorem wakeSlot_moves (slot : Nat) (s : State) (h : ∀ x, terminal s slot = some x → x.link.state = .sleeping) :
    Moves links False s (wakeSlot slot s) := by
  have hwoken := Moves.refl.slot (links := links) (steady := False) slot
    (fun y : Terminal => { y with link := { y.link with state := .active, queue := y.link.queue.filter fun n => n.body ≠ .wake } })
    fun x hx => ⟨rfl, fun h => h.elim, fun _ hs => woken_sound hs (h x hx)⟩
  exact (hwoken.slot slot _ fun x _ => .considered _ x).reacts (wakeSlot_reacts slot s)

theorem acceptSlot_moves (slot : Nat) (owed : Bool) (s : State) (h : Enrolled slot s) :
    Moves links steady s (acceptSlot slot owed s) := by
  refine Moves.reacts (Moves.refl.slot slot _ fun x hx => ?_) (acceptSlot_reacts slot owed s)
  refine Tame.trans ?_ (.considered _ _)
  split
  · rw [Terminal.told, ← joinQueue_eq]
    exact told_tame isTime_eq rfl (.inr (.inr rfl)) (h x hx)
  · exact .refl x

/-! ### Answers -/

theorem gotAnswer_moves (slot : Nat) (s : State) : Moves links True s (gotAnswer slot s) := by
  refine .onTerminal slot _ fun x _ => ⟨rfl, fun _ => rfl, fun _ hs => ?_⟩
  obtain ⟨⟨hlost, hbar, habsent, -⟩, hqueue, hquote⟩ := hs.filtered fun n => !n.rode
  exact ⟨⟨hlost, hbar, habsent, Nat.zero_lt_succ 2⟩, hqueue, hquote⟩

/-- What a step hands on: a chain of moves, and with a QUOTE that is accepted its acceptance last. -/
inductive Hands (links : Prop) (slot : Nat) (s : State) : State → Prop
  | moved {t : State} : Moves links False s t → Hands links slot s t
  | quoted {u : State} {x : Terminal} (ask : Ask) (permit : Option (Nat × PermitKind)) (plate : Option Plate) :
      Moves links False s u → Table.wf u.terminals = true → terminal u slot = some x → x.link.state = .active →
      Hands links slot s (acceptQuote slot x ask permit plate u)

theorem handRequest_hands (slot : Nat) (request : AnswerRequest) {s u : State} (h : Moves links False s u)
    (hwf : Table.wf u.terminals = true) (hactive : request = .none ∨ stateAt slot u = some .active) :
    Hands links slot s (handRequest slot request u) := by
  rcases hactive with rfl | hactive
  · exact .moved h
  have henrolled : Enrolled slot u := enrolled_of_stateAt hactive (.inl rfl)
  cases request with
  | none => exact .moved h
  | accept _ => exact .moved h
  | wakeReq => exact .moved h
  | cancel => exact .moved (h.trans (endQuote_moves slot u))
  | confirm quoteId coins card => exact .moved (h.trans (takeConfirm_moves slot quoteId coins card u henrolled).free)
  | quote kind amount permit plate =>
    show Hands links slot s (takeQuote slot kind amount permit plate u)
    unfold takeQuote
    split
    · exact .moved h
    · next x hx =>
      split
      · exact .moved (h.trans (queueResult_moves slot _ rfl u henrolled))
      · rw [stateAt, hx] at hactive
        exact .quoted _ _ _ h hwf hx (Option.some.inj hactive)

theorem stateAt_some {slot : Nat} {s : State} {x : Terminal} (hx : terminal s slot = some x) :
    stateAt slot s = some x.link.state := by rw [stateAt, hx]; rfl

theorem stateAt_eq {slot : Nat} {s : State} {x : Terminal} {l : LinkState} (hx : terminal s slot = some x)
    (h : stateAt slot s = some l) : x.link.state = l := by
  rw [stateAt_some hx] at h
  exact Option.some.inj h

/-- The link-state change of an enrolled slot's answer, and that a request finds its slot ACTIVE. -/
theorem answerLink_moves {slot : Nat} {x : Terminal} {rode : Option NoticeBody} (asleep : Bool) (w : StatusWord)
    (request : AnswerRequest) {s : State} (hx : terminal s slot = some x)
    (hstate : x.link.state = .active ∨ x.link.state = .sleeping) (hreset : rode ≠ some .reset)
    (hsleep : links → rode = some .sleep → x.quote = .none) :
    Moves links False (gotAnswer slot s) (answerLink slot x rode asleep w request (gotAnswer slot s))
      ∧ (request = .none ∨ stateAt slot (answerLink slot x rode asleep w request (gotAnswer slot s)) = some .active) := by
  have hgot : stateAt slot (gotAnswer slot s) = some x.link.state :=
    ((gotAnswer_moves (links := False) slot s).stateAt slot).trans (stateAt_some hx)
  have hrecord : terminal (gotAnswer slot s) slot
      = some { x with link := { x.link with misses := 0, queue := x.link.queue.filter fun n => !n.rode } } :=
    terminal_onTerminal_self hx
  unfold answerLink
  rcases hstate with hactive | hsleeping
  · rw [hactive]
    dsimp only
    rw [if_neg hreset]
    split
    · next hfalls =>
      refine ⟨fallAsleep_moves slot _ fun hl y hy => ?_, .inl hfalls.2.1⟩
      obtain rfl := Option.some.inj (hrecord.symm.trans hy)
      exact ⟨hactive, hsleep hl hfalls.1⟩
    · exact ⟨.refl, .inr (hgot.trans (congrArg some hactive))⟩
  · rw [hsleeping]
    dsimp only
    rw [if_neg hreset]
    split
    · refine ⟨wakeSlot_moves slot _ fun y hy => ?_, .inr ?_⟩
      · obtain rfl := Option.some.inj (hrecord.symm.trans hy)
        exact hsleeping
      · rw [(wakeSlot_reacts slot (gotAnswer slot s)).stateAt]
        have hwoken := terminal_onTerminal_self (f := fun y : Terminal =>
          { y with link := { y.link with state := .active, queue := y.link.queue.filter fun n => n.body ≠ .wake } }) hrecord
        refine (stateAt_onTerminal (fun y _ => ?_) slot).trans (stateAt_some hwoken)
        exact (Tame.considered (links := False) (steady := True) _ y).state trivial
    · next hwakes =>
      refine ⟨.refl, .inl ?_⟩
      by_contra hne
      exact hwakes (by simp [wakes, hne])

theorem validAnswer_hands {slot : Nat} {x : Terminal} {rode : Option NoticeBody} (asleep : Bool) (w : StatusWord)
    (request : AnswerRequest) {s : State} (hwf : Table.wf s.terminals = true) (hx : terminal s slot = some x)
    (hcalled : x.link.state.called = true)
    (hsleep : links → rode = some .sleep → x.quote = .none) :
    Hands links slot s (validAnswer slot x rode asleep w request s) := by
  have hgot : Moves links False s (gotAnswer slot s) := (gotAnswer_moves slot s).free
  have hleaves (h : enrols x request = false)
      (hwhy : x.link.state = .granted ∨ (x.link.state = .active ∨ x.link.state = .sleeping) ∧ rode = some .reset) :
      Hands links slot s (validAnswer slot x rode asleep w request s) := by
    rw [validAnswer_leaves asleep w s h hwhy]
    exact .moved (.after (takeStatus_moves slot w _) (.after (leaveTo_moves_plain slot _ rfl) hgot))
  by_cases hgranted : x.link.state = .granted
  · cases henrols : enrols x request with
    | false => exact hleaves henrols (.inl hgranted)
    | true =>
      cases request with
      | accept level =>
        have hlevel : x.link.level = some level := by
          simp only [enrols, Bool.and_eq_true, decide_eq_true_eq] at henrols
          exact henrols.2
        rw [validAnswer_enrols rode asleep w s hgranted hlevel]
        have hrecord : terminal (gotAnswer slot s) slot
            = some { x with link := { x.link with misses := 0, queue := x.link.queue.filter fun n => !n.rode } } :=
          terminal_onTerminal_self hx
        have hactive : Moves links False (gotAnswer slot s)
            (onLink slot (fun l => { l with state := .active, timeOwed := false }) (gotAnswer slot s)) := by
          refine .onTerminal slot _ fun y hy => ⟨rfl, fun h => h.elim, fun _ hs => ?_⟩
          have hstate : y.link.state = .granted := by
            obtain rfl := Option.some.inj (hrecord.symm.trans hy)
            exact hgranted
          obtain ⟨hqueue, hnone⟩ := hs.empty (by rw [hstate]; decide)
          obtain ⟨⟨hlost, hbar, -, hmisses⟩, -, -⟩ := hs
          have hlink : LinkSound { y.link with state := .active, timeOwed := false } :=
            ⟨fun _ => hlost (by rw [hstate]; rfl), by rw [hbar, hstate]; simp, (fun h => by cases h), hmisses⟩
          have hy : y = { y with quote := .none } := by rw [← hnone]
          have := SlotSound.emptied (x := { y with link := { y.link with state := .active, timeOwed := false } }) hlink hqueue
          rw [hy]
          exact this
        have hstatus := takeStatus_moves (links := links) (steady := True) slot w
          (onLink slot (fun l => { l with state := .active, timeOwed := false }) (gotAnswer slot s))
        have henrolled : Enrolled slot (takeStatus slot w
            (onLink slot (fun l => { l with state := .active, timeOwed := false }) (gotAnswer slot s))) := by
          refine hstatus.enrolled fun y hy => .inl ?_
          have := terminal_onTerminal_self (f := fun y : Terminal =>
            { y with link := { y.link with state := .active, timeOwed := false } }) hrecord
          obtain rfl := Option.some.inj (this.symm.trans hy)
          rfl
        exact .moved (.after (acceptSlot_moves slot _ _ henrolled) (.after hstatus.free (.after hactive hgot)))
      | none => cases henrols
      | quote _ _ _ _ => cases henrols
      | confirm _ _ _ => cases henrols
      | cancel => cases henrols
      | wakeReq => cases henrols
  · have hstate : x.link.state = .active ∨ x.link.state = .sleeping := ((called_iff _).mp hcalled).resolve_left hgranted
    by_cases hreset : rode = some .reset
    · refine hleaves ?_ (.inr ⟨hstate, hreset⟩)
      cases request <;> simp [enrols, hgranted]
    · rw [validAnswer_enrolled asleep w request s hgranted hreset]
      obtain ⟨hlink, hready⟩ := answerLink_moves (links := links) asleep w request hx hstate hreset hsleep
      have hstatus := takeStatus_moves (links := links) (steady := True) slot w
        (answerLink slot x rode asleep w request (gotAnswer slot s))
      have hframes : Frames s (takeStatus slot w (answerLink slot x rode asleep w request (gotAnswer slot s))) :=
        .after (takeStatus_frames slot w _) (.after (answerLink_frames slot x rode asleep w request _)
          (.onTerminal slot _ (by intro; rfl) s))
      exact handRequest_hands slot request (.after hstatus.free (.after hlink hgot)) (hframes.wf hwf)
        (hready.imp_right (hstatus.stateAt slot).trans)

theorem windowAnswer_hands {slot : Nat} (calledAs : LinkState) {rode : Option NoticeBody} (head : AnswerHead)
    (request : AnswerRequest) {s : State} (hwf : Table.wf s.terminals = true)
    (hsleep : links → rode = some .sleep → ∀ x ∈ terminal s slot, x.quote = .none) :
    Hands links slot s (windowAnswer slot calledAs rode head request s) := by
  unfold windowAnswer
  split
  · exact .moved (missSlot_moves slot calledAs s)
  · split
    · exact .moved (missSlot_moves slot calledAs s)
    · split
      · exact .moved .refl
      · next x hx =>
        split
        · next hcalled => exact validAnswer_hands _ _ request hwf hx hcalled fun hl hr => hsleep hl hr x hx
        · exact .moved .refl

end

end Sys2Proof.Machine
end

section
/-!
PROOFS. The moves of an act: all but those that put or erase a record, complete a walk, take a quote, send a call, or start or stop the part.
-/

namespace Sys2Proof.Machine

open Sys2Proof

section
variable {links steady : Prop}

/-! ### Time -/

theorem clearConsumed_moves (s : State) : Moves links steady s (clearConsumed s) := Moves.refl.permits _ fun _ => rfl

theorem dayRoll_moves (s : State) : Moves links steady s (dayRoll s) :=
  .after (timeForAll_moves _) (.after (clearConsumed_moves _) (.onCalendar _ s))

theorem minuteRoll_moves (s : State) : Moves links steady s (minuteRoll s) := .onSales _ s

theorem deriveAll_moves (s : State) : Moves links steady s (deriveAll s) := .of_reacts (deriveAll_reacts s)

theorem refindAll_moves (s : State) : Moves links steady s (refindAll s) := .forEach _ refind_moves s

theorem rollAfterSet_moves (s : State) : Moves links steady s (rollAfterSet s) := by
  unfold rollAfterSet
  split
  · exact .onCalendar _ s
  · split
    · exact dayRoll_moves s
    · exact .refl

theorem deliverIfDue_moves {s : State} (hgroups : Table.keys s.groups = groupNumbers) : Moves links steady s (deliverIfDue s) := by
  unfold deliverIfDue
  split
  · exact deliverDeadline_moves hgroups
  · exact .refl

theorem jumpSettled_frames (time : Nat) (offset : Int) (s : State) : Frames s (jumpSettled time offset s) := by
  unfold jumpSettled jumpRolled
  exact .after (.onSales _ _) (.after (timeForAll_frames _) (.after (deriveAll_derives _).framesN
    (.after (refindAll_derives _).frames (.after (rollAfterSet_frames _) (.after (.forEach _ takeSwitch_frames _) (.onCalendar _ s))))))

theorem jumpSettled_moves (time : Nat) (offset : Int) (s : State) : Moves links steady s (jumpSettled time offset s) := by
  unfold jumpSettled jumpRolled
  exact .after (minuteRoll_moves _) (.after (timeForAll_moves _) (.after (deriveAll_moves _) (.after (refindAll_moves _)
    (.after (rollAfterSet_moves _) (.after (.forEach _ takeSwitch_moves _) (.onCalendar _ s))))))

theorem setClock_moves (time : Nat) (offset : Int) {s : State} (hgroups : Table.keys s.groups = groupNumbers) :
    Moves links steady s (setClock time offset s) := by
  rw [setClock_eq]
  exact (jumpSettled_moves time offset s).trans
    (deliverIfDue_moves ((jumpSettled_frames time offset s).groups.trans hgroups))

theorem wrapZoneTime_moves {s : State} (hgroups : Table.keys s.groups = groupNumbers) : Moves links steady s (wrapZoneTime s) := by
  have hunset : Frames s (unsetAtZero s) := by
    rw [unsetAtZero, ← refresh_eq_shown]
    exact .after (.refresh _) (.onCalendar _ s)
  have hframes : Frames s (unsetDerived s) := hunset.trans (unsetDerived_derives s).frames
  have hderived : Moves links steady s (unsetDerived s) := by
    rw [unsetDerived, unsetAtZero, ← refresh_eq_shown]
    exact .after (deriveAll_moves _) (.after (refindAll_moves _) (.after (.refresh _) (.onCalendar _ s)))
  rw [wrapZoneTime_eq]
  refine .after (.onSales _ _) ?_
  split
  · exact hderived.trans (deliverDeadline_moves (hframes.groups.trans hgroups))
  · exact hderived

theorem countSilence_tame (x : Terminal) : Tame links steady x (countSilence x) := by
  unfold countSilence
  split
  · exact .aside rfl rfl
  · exact .refl x

theorem endSecond_moves {s : State} (hgroups : Table.keys s.groups = groupNumbers) : Moves links steady s (endSecond s) := by
  have hcounted : Moves links steady s
      ((s.onTerminals (Table.mapAll countSilence)).onCalendar fun c => { c with uptime := c.uptime + 1 }) :=
    .after (.onCalendar _ _) (Moves.refl.slots countSilence countSilence_tame)
  unfold endSecond advanceZoneTime
  split
  · exact hcounted.trans (wrapZoneTime_moves hgroups)
  · exact hcounted.trans (.onCalendar _ _)

theorem endSecondInBackup_moves (s : State) : Moves links steady s (endSecondInBackup s) := by
  unfold endSecondInBackup
  split
  · exact .after (.onSales _ _) (.after (Moves.refl.slots _ fun _ => .aside rfl rfl) (.onCalendar _ s))
  · exact .onCalendar _ s

theorem holidaysDuringWalk_moves (days : List Nat) (s : State) : Moves links steady s (holidaysDuringWalk days s) := by
  unfold holidaysDuringWalk
  split
  · exact .refl
  · next w hwalk =>
    have hreread := Moves.refl (links := links) (steady := steady) (s := s).walk
      (fun v => { v with
        past := v.past ++ [(Config.walkFindings s.freeIndex + (if v.past = [] then 1 else 0), v.reading)], reading := days })
      fun _ => ⟨rfl, rfl⟩
    rw [State.onEngine, hwalk] at hreread
    exact hreread.trans (.setFreeIndex _ _)

theorem putHolidays_moves (days : List Nat) (s : State) : Moves links steady s (putHolidays days s) :=
  .after (refindAll_moves _) (.after (holidaysDuringWalk_moves days _) (.onCalendar _ s))

theorem assignSlot_moves (plan : Nat) (pending : Bool) (switch : Option Nat) (s : State) (slot : Nat) :
    Moves links steady s (assignSlot plan pending switch s slot) :=
  .after (refind_moves slot _) (.onAside slot _ (by intro; rfl) (by intro; rfl) s)

/-! ### The starts -/

theorem closeAtStart_moves {s : State} (hgroups : Table.keys s.groups = groupNumbers) :
    Moves links steady s (closeAtStart s) := by
  unfold closeAtStart
  split
  · exact .onCalendar _ s
  · next r _ =>
    have hclosed : roundClosed r s = if freeSpace s = 0 then withOwed (closeRoundCore r s) else closeRoundCore r s := by
      rw [closeRoundCore_eq]
      rfl
    dsimp only
    rw [closeAtStart_closed r hgroups, hclosed]
    exact Moves.refl.owed (closeRoundCore_keeps r s)

theorem catchUp_moves {s : State} (hgroups : Table.keys s.groups = groupNumbers) : Moves links steady s (catchUp s) := by
  have hdue (p : Prop) [Decidable p] (u : State) (hframes : Frames s u) (hu : Moves links steady s u) :
      Moves links steady s (if p then closeAtStart u else u) := by
    split
    · exact hu.trans (closeAtStart_moves (hframes.groups.trans hgroups))
    · exact hu
  have hswitched : Moves links steady s (forEachSlot takeSwitch s) := .forEach _ takeSwitch_moves s
  have hframes : Frames s (forEachSlot takeSwitch s) := .forEach _ takeSwitch_frames s
  unfold catchUp
  refine .after (minuteRoll_moves _) (.after (Moves.refl.slots _ fun _ => .aside rfl rfl) ?_)
  split
  · dsimp only
    split
    · exact hdue _ _ (.after (dayRoll_frames _) hframes) (hswitched.trans (dayRoll_moves _))
    · exact hdue _ _ hframes hswitched
  · exact hdue _ _ (.refl s) .refl

theorem startCondition_moves (slot : Nat) (k : FaultKind) (present : Bool) (s : State) :
    Moves links steady s (startCondition slot k present s) := by
  unfold startCondition
  split
  · exact .refl
  · split
    · exact .refl
    · split
      · exact .after (.raise _ _) (.onWatch slot _ s)
      · exact .onWatch slot _ s

theorem startConditions_moves (slot : Nat) (s : State) : Moves links steady s (startConditions slot s) := by
  unfold startConditions
  split
  · exact .refl
  · exact .after (startCondition_moves slot _ _ _) (.after (startCondition_moves slot _ _ _) (startCondition_moves slot _ _ s))

/-- A warm start moves on from the values of its first step. -/
theorem warmStart_moves (straps : Straps) (keep : Bool) {s : State} (hgroups : Table.keys s.groups = groupNumbers) :
    Moves links steady (startValues straps s) (warmStart straps keep s) := by
  have hline (u : State) : Moves links steady u (startPorts u) := .onLine _ u fun _ => .inr fun _ _ _ _ h => by cases h
  have hframes : Frames s (startAttention keep (startValues straps s)) := .after (.onAttention _ _) (startValues_frames straps s)
  exact .after (hline _) (.after (deriveAll_moves _) (.after (.forEach _ startConditions_moves _)
    (.after (catchUp_moves (hframes.groups.trans hgroups)) (.onAttention _ _))))

/-! ### The terminal table -/

/-- A new identity is taken of an ABSENT or LOST slot alone (R163). -/
theorem newIdentity_unlinked {slot : Nat} {c : TerminalConfig} {s : State} {t : Terminal} (h : terminalRefusal slot c s = none)
    (ht : terminal s slot = some t) (hnew : c.identity ≠ t.config.identity) : t.link.state = .absent ∨ t.link.state = .lost := by
  rw [terminalRefusal_eq] at h
  have hrecord : recordRefusal slot c s = none := (Option.or_eq_none_iff.mp (Option.or_eq_none_iff.mp h).2).2
  unfold recordRefusal at hrecord
  by_contra hstate
  rw [not_or] at hstate
  rw [if_pos ⟨t, ht, hnew, hstate.1, hstate.2⟩] at hrecord
  cases hrecord

theorem newIdentity_moves {slot : Nat} {s : State} (h : ∀ x, terminal s slot = some x → x.link.state = .absent ∨ x.link.state = .lost) :
    Moves links False s (newIdentity slot s) := by
  refine .after (deriveService_moves slot _) (.onTerminal slot _ fun x hx => ⟨rfl, fun h => h.elim, fun _ hs => ?_⟩)
  have hstate := h x hx
  have hleft : x.link.state ≠ .active ∧ x.link.state ≠ .sleeping ∧ x.link.state ≠ .barred := by
    rcases hstate with h | h <;> rw [h] <;> decide
  obtain ⟨hqueue, hnone⟩ := hs.empty ⟨hleft.1, hleft.2.1⟩
  obtain ⟨⟨-, hbar, -, hmisses⟩, -, -⟩ := hs
  have hlink : LinkSound { x.link with state := .absent, level := none, caps := none } := by
    refine ⟨fun h => ?_, ?_, fun _ => ⟨rfl, rfl⟩, hmisses⟩
    · cases h
    · rw [hbar]
      simp [hleft.2.2]
  have hx : x = { x with quote := .none } := by rw [← hnone]
  have := SlotSound.emptied (x := { x with link := { x.link with state := .absent, level := none, caps := none } }) hlink hqueue
  rw [hx]
  exact this

theorem updateSlot_moves {slot : Nat} {c : TerminalConfig} {s : State} {t : Terminal} (h : terminalRefusal slot c s = none)
    (ht : terminal s slot = some t) : Moves links False s (updateSlot slot c t s) := by
  have hconfigured : Moves links False s (onTerminal slot (fun x => { x with config := c }) s) :=
    .onAside slot _ (by intro; rfl) (by intro; rfl) s
  have hidentified : Moves links False s
      (if c.identity = t.config.identity then onTerminal slot (fun x => { x with config := c }) s
        else newIdentity slot (onTerminal slot (fun x => { x with config := c }) s)) := by
    split
    · exact hconfigured
    · next hnew =>
      refine hconfigured.trans (newIdentity_moves fun x hx => ?_)
      have hstate := newIdentity_unlinked h ht hnew
      have hx : x = { t with config := c } := (Option.some.inj ((terminal_onTerminal_self ht).symm.trans hx)).symm
      rw [hx]
      exact hstate
  have hgrouped (u : State) (hu : Moves links False s u) :
      Moves links False s (if c.group = t.config.group then u else cover c.group (cover t.config.group u)) := by
    split
    · exact hu
    · exact (hu.reacts (cover_reacts _ _)).reacts (cover_reacts _ _)
  have hboxed (u : State) (hu : Moves links False s u) :
      Moves links False s (if c.capacity = t.config.capacity then u else evaluateBox slot u) := by
    split
    · exact hu
    · exact hu.trans (evaluateBox_moves slot u)
  exact hboxed _ (hgrouped _ hidentified)

/-! ### The line -/

theorem clearOut_moves (s : State) : Moves links steady s (clearOut s) := .onLine _ s fun _ => .inl rfl

theorem setLine_moves {mode : LineMode} (frames : List KerbFrame) (s : State)
    (h : links → ∀ (slot : Nat) (kind : CallKind) (calledAs : LinkState) (rode : Option NoticeBody), mode ≠ .window slot kind calledAs rode) :
    Moves links steady s (setLine mode frames s) := .onLine _ s fun hl => .inr (h hl)

theorem takeBack_moves (s : State) : Moves links steady s (takeBack s) := by
  unfold takeBack
  split
  · exact .onQueue _ _ s fun _ _ hs => hs.unmarked
  · exact .refl

theorem jabbered_moves (slot : Nat) (kind : CallKind) (s : State) :
    Moves links False s (setLine (.quiet slot kind) [] (barSlot slot (clearOut s))) :=
  .after (setLine_moves [] _ fun _ _ _ _ _ h => by cases h) (.after (barSlot_moves slot _) (clearOut_moves s))

theorem takeOffer_moves (identity : Nat) (form : OfferForm) (s : State) : Moves links steady s (takeOffer identity form s) := by
  have hreply (f : Line → Line) (n : Nat) (taken : Bool) (offered : List Nat) (earned : List EarnedOffer)
      (hf : (f s.line).mode = .reply n taken offered earned) : Moves links steady s (s.onLine f) :=
    .onLine f s fun _ => .inr fun _ _ _ _ h => by rw [hf] at h; cases h
  unfold takeOffer
  split
  · split
    · exact .refl
    · split
      · exact .after (.raise _ _) (hreply _ _ _ _ _ rfl)
      · exact hreply _ _ _ _ _ rfl
  · exact .refl

theorem sendGrant_moves (e : EarnedOffer) (s : State) : Moves links False s (sendGrant e s) := by
  unfold sendGrant
  split
  · exact .refl
  · split
    · exact .refl
    · exact .after (grantSlot_moves _ _ _) (.onLine _ s fun _ => .inl rfl)

theorem endReplyWindow_moves (n : Nat) (offered : List Nat) (earned : List EarnedOffer) (s : State) :
    Moves links False s (endReplyWindow n offered earned s) := by
  unfold endReplyWindow
  dsimp only
  split
  · exact .after (setLine_moves [] _ fun _ _ _ _ _ h => by cases h) (clearOut_moves s)
  · exact .after (setLine_moves [] _ fun _ _ _ _ _ h => by cases h) (.after (.foldl _ (fun s e => sendGrant_moves e s) _ _)
      (clearOut_moves s))

end

/-! ### The next frame -/

/-- The line goes on with no call, or with a call to a slot whose head notice rides. -/
inductive Sends (u : State) : State → Prop
  | rests (f : Line → Line) :
      (∀ (slot : Nat) (kind : CallKind) (calledAs : LinkState) (rode : Option NoticeBody), (f u.line).mode ≠ .window slot kind calledAs rode) →
      Sends u (u.onLine f)
  | calls {x : Terminal} (slot : Nat) (kind : CallKind) (f : Line → Line) :
      terminal u slot = some x → (f u.line).mode = .window slot kind x.link.state (x.link.queue.head?.map (·.body)) →
      Sends u (onQueue slot markHead (u.onLine f))

theorem Sends.onLine {u t : State} (f : Line → Line) (hf : ∀ l : Line, (f l).mode = l.mode) (h : Sends u t) : Sends u (t.onLine f) := by
  cases h with
  | rests g hg => exact .rests (fun l => f (g l)) fun slot kind calledAs rode h => hg slot kind calledAs rode ((hf _).symm.trans h)
  | calls slot kind g hx hg => exact .calls slot kind (fun l => f (g l)) hx ((hf _).trans hg)

theorem Sends.before {u t : State} (f : Line → Line) (h : Sends (u.onLine f) t) : Sends u t := by
  cases h with
  | rests g hg => exact .rests (fun l => g (f l)) hg
  | calls slot kind g hx hg => exact .calls slot kind (fun l => g (f l)) hx hg

theorem sendCall_sends {after slot : Nat} {kind : CallKind} {s : State} (h : nextCalled after kind s = some slot) :
    Sends s (sendCall slot kind s) := by
  unfold sendCall
  split
  · next hnone =>
    obtain ⟨e, he, rfl⟩ := Option.map_eq_some_iff.mp h
    have hkey : e.1 ∈ Table.keys s.terminals := List.mem_map_of_mem (List.mem_of_find?_eq_some he)
    rw [Table.mem_keys_iff] at hkey
    rw [show Table.find? e.1 s.terminals = none from hnone] at hkey
    cases hkey
  · next x hx => exact .calls slot kind _ hx rfl

theorem seekPhase_sends (s : State) : Sends s (seekPhase s) := by
  unfold seekPhase
  split
  · exact .rests _ fun _ _ _ _ h => by cases h
  · exact .rests _ fun _ _ _ _ h => by cases h

theorem slowPhase_sends (after : Nat) (s : State) : Sends s (slowPhase after s) := by
  unfold slowPhase
  split
  · split
    · next hnext => exact sendCall_sends hnext
    · exact seekPhase_sends s
  · exact seekPhase_sends s

theorem normalPhase_sends (after : Nat) (s : State) : Sends s (normalPhase after s) := by
  unfold normalPhase
  split
  · next hnext => exact sendCall_sends hnext
  · exact slowPhase_sends 0 s

theorem afterWindow_sends (slot : Nat) (kind : CallKind) (s : State) : Sends s (afterWindow slot kind s) := by
  unfold afterWindow
  split
  · exact (normalPhase_sends slot (clearOut s)).before _
  · exact (slowPhase_sends slot (clearOut s)).before _

theorem windowOver_sends (slot : Nat) (kind : CallKind) (s : State) : Sends s (windowOver slot kind s) :=
  (afterWindow_sends slot kind s).onLine _ fun _ => rfl

theorem startCycle_sends (number : Nat) (s : State) : Sends s (startCycle number s) :=
  ((normalPhase_sends 0 (clearOut (s.onLine fun l => { l with cycle := number }))).before _).before _

/-- To what does not ask for links a frame sent is a move. -/
theorem Sends.moves {steady : Prop} {u t : State} (h : Sends u t) : Moves False steady u t := by
  cases h with
  | rests f _ => exact .onLine f u fun h => h.elim
  | calls slot kind f _ _ => exact .after (.onQueue slot _ _ fun _ _ h => h.marked) (.onLine f u fun h => h.elim)

/-! ### The acts -/

/-- The acts that are more than a chain of moves. -/
inductive Leaps (links : Prop) (s : State) : State → Prop
  | permitPut (number : Nat) (p : PermitPut) :
      Leaps links s (s.onPermits (Table.put number (permitRecord p (Table.find? number s.permits))))
  | permitRevoked (number : Nat) : Leaps links s (s.onPermits (Table.erase number))
  | slotConfigured (slot : Nat) (c : TerminalConfig) : terminal s slot = none → Leaps links s (configureSlot slot c s)
  | slotRemoved (slot : Nat) (x : Terminal) : terminal s slot = some x → x.quote = .none → Leaps links s (removeSlot slot x s)
  | walkCompleted (w : Walk) : s.engine.walk = some w → Leaps links s (completeWalk w s)
  | coldStarted (straps : Straps) (keep : Bool) : Leaps links s (coldStart straps keep s)
  | started (straps : Straps) {t : State} : Moves links False (startValues straps s) t → Leaps links s t
  | powerFailed (cellBelow duringStart : Bool) : Leaps links s (enterBackup cellBelow duringStart s)
  | sent {u t : State} : Moves links False s u → Sends u t → Leaps links s t
  | quoted {u t : State} {x : Terminal} (slot : Nat) (ask : Ask) (permit : Option (Nat × PermitKind)) (plate : Option Plate) :
      Moves links False s u → Table.wf u.terminals = true → terminal u slot = some x → x.link.state = .active →
      Sends (acceptQuote slot x ask permit plate u) t → Leaps links s t

theorem startBy_leaps {links : Prop} (straps : Straps) (keep : Bool) {s : State} (hgroups : Table.keys s.groups = groupNumbers) :
    Leaps links s (startBy straps keep s) := by
  unfold startBy
  split
  · exact .coldStarted straps keep
  · exact .started straps (warmStart_moves straps keep hgroups)

theorem Hands.leaps {links : Prop} {slot : Nat} {s u t : State} (h : Hands links slot s u) (ht : Sends u t) : Leaps links s t := by
  cases h with
  | moved h => exact .sent h ht
  | quoted ask permit plate h hwf hx hactive => exact .quoted slot ask permit plate h hwf hx hactive ht

/-- While a call that carries SLEEP awaits its answer, its slot has no quote. -/
abbrev WindowSound (s : State) : Prop :=
  ∀ (slot : Nat) (kind : CallKind) (calledAs : LinkState), s.line.mode = .window slot kind calledAs (some .sleep) →
    ∀ x ∈ terminal s slot, x.quote = .none

theorem lapsedQuote_some {slot : Nat} {q : OpenQuote} {s : State} (h : lapsedQuote slot s = some q) :
    ∃ x, terminal s slot = some x ∧ x.quote = .opened q := by
  unfold lapsedQuote at h
  split at h
  · cases h
  · next x hx =>
    split at h
    · next p hp =>
      split at h
      · exact ⟨x, hx, hp.trans (congrArg _ (Option.some.inj h))⟩
      · cases h
    · cases h

theorem roundFits_free {n : Nat} {s : State} (h : roundFits s n = true) : freeSpace s ≠ 0 := by
  simp only [roundFits, Bool.and_eq_true, decide_eq_true_eq] at h
  omega

/-- Every act is a chain of moves or a leap. -/
theorem Act.moves {links : Prop} {s t : State} (hs : TablesOrdered s) (hwindow : links → WindowSound s)
    (h : Act s t) : Moves links False s t ∨ Leaps links s t := by
  obtain ⟨hwf, -, -, -, hgroups⟩ := hs
  cases h with
  | idle => exact .inl .refl
  | clockSet time offset => exact .inl (setClock_moves time offset hgroups)
  | holidaysPut days => exact .inl (putHolidays_moves days s)
  | planPut plan p _ => exact .inl (.onPlans _ s)
  | planCleared plan _ => exact .inl (.onPlans _ s)
  | planAssigned plan switch slots _ => exact .inl (.foldl _ (assignSlot_moves _ _ _) slots s)
  | salesSet f => exact .inl (.onSales f s)
  | permitPut number p => exact .inr (.permitPut number p)
  | permitRevoked number => exact .inr (.permitRevoked number)
  | slotConfigured slot c _ hnone => exact .inr (.slotConfigured slot c hnone)
  | slotUpdated slot c x hrefusal hx => exact .inl (updateSlot_moves hrefusal hx)
  | slotRemoved slot x hx hquote => exact .inr (.slotRemoved slot x hx hquote)
  | cashSet d tolerance => exact .inl (.onCash _ s)
  | counted c counts _ => exact .inl (reconcile_moves c counts s)
  | roundOpened collector key _ hfits => exact .inl (openRound_moves collector key _ (roundFits_free hfits))
  | roundClosed r _ => exact .inl (closeRound_moves r hgroups)
  | faultAcked slot k st => exact .inl (.after (deriveService_moves slot _) (.onWatch slot _ s))
  | recordsAcked n => exact .inl (removeRecords_moves n hgroups)
  | attentionSet f => exact .inl (.onAttention f s)
  | rosterPut identity e => exact .inl (.onRoster _ s)
  | rosterErased identity => exact .inl (.onRoster _ s)
  | resetQueued slot x hx henrolled =>
    refine .inl (.onQueue slot _ s fun y hy hs => hs.reset ?_)
    obtain rfl := Option.some.inj (hx.symm.trans hy)
    exact (enrolled_iff _).mp henrolled
  | barEnded slot x _ _ => exact .inl (endBar_moves slot s)
  | slotLeft slot x _ _ _ => exact .inl (leaveTo_moves_plain slot s rfl)
  | restarted straps keep => exact .inr (startBy_leaps straps keep hgroups)
  | officeRestarted => exact .inr (.started _ (warmStart_moves _ _ hgroups))
  | cycleStarted number _ => exact .inr (.sent .refl (startCycle_sends number s))
  | answered slot kind calledAs rode head request hmode =>
    refine .inr ((windowAnswer_hands calledAs head request hwf ?_).leaps (windowOver_sends slot kind _))
    rintro hl rfl
    exact hwindow hl slot kind calledAs hmode
  | missed slot kind calledAs rode _ => exact .inr (.sent (missSlot_moves slot calledAs s) (windowOver_sends slot kind _))
  | jabbered slot kind calledAs rode _ => exact .inl (jabbered_moves slot kind s)
  | jabberedLate slot kind _ => exact .inl (.after (jabbered_moves slot kind _) (takeBack_moves s))
  | fellQuiet slot kind _ => exact .inr (.sent .refl (afterWindow_sends slot kind s))
  | offered identity form => exact .inl (takeOffer_moves identity form s)
  | replyEnded number taken offered earned _ => exact .inl (endReplyWindow_moves number offered earned s)
  | linkLost slot =>
    refine .inl (.after (conditionRises_moves slot .linkLost _) (.onTerminal slot _ fun x _ => ⟨rfl, fun _ => rfl, fun _ hs => ?_⟩))
    obtain ⟨⟨-, hbar, habsent, hmisses⟩, hqueue, hquote⟩ := hs
    exact ⟨⟨fun _ => rfl, hbar, habsent, hmisses⟩, hqueue, hquote⟩
  | walkCompleted w hw => exact .inr (.walkCompleted w hw)
  | quoteExpired slot q hq =>
    obtain ⟨x, hx, hquote⟩ := lapsedQuote_some hq
    exact .inl (expireQuote_moves hx hquote)
  | silent slot => exact .inl (conditionRises_moves slot .silent s)
  | secondEnded => exact .inl (endSecond_moves hgroups)
  | dayRolled => exact .inl (dayRoll_moves s)
  | refound slot => exact .inl (refind_moves slot s)
  | switched slot => exact .inl (.after (refind_moves slot _) (takeSwitch_moves slot s))
  | deadlineMet => exact .inl (deliverDeadline_moves hgroups)
  | powerFailed cellBelow duringStart => exact .inr (.powerFailed cellBelow duringStart)

/-- A law that moves and leaps keep is kept by every step, given tables in order. -/
theorem kept_of_moves {law : State → Prop} {links : Prop} (haside : ∀ s t, Aside s t → law s → law t)
    (hpending : ∀ s p, law s → law (s.setPending p)) (hwindow : ∀ s, links → law s → WindowSound s)
    (hmoves : ∀ s t, law s → Moves links False s t → law t)
    (hleaps : ∀ s t, TablesOrdered s → law s → Leaps links s t → law t) : Kept fun s => TablesOrdered s ∧ law s := by
  refine kept_of_acts (fun s t h hs => ⟨hs.1.of_frames h.frames, haside s t h hs.2⟩) (fun s p hs => ⟨hs.1, hpending s p hs.2⟩)
    (fun s t _ h hs => ?_) (fun s _ hs => ?_) fun s straps keep _ hs => ?_
  · exact ⟨h.frames.elim hs.1.of_frames hs.1.of_reframes,
      (h.moves hs.1 fun hl => hwindow s hl hs.2).elim (hmoves s t hs.2) (hleaps s t hs.1 hs.2)⟩
  · exact ⟨hs.1.of_frames (endSecondInBackup_frames s), hmoves s _ hs.2 (endSecondInBackup_moves s)⟩
  · obtain ⟨-, -, -, -, hgroups⟩ := hs.1
    exact ⟨(startBy_frames straps keep s).elim hs.1.of_frames hs.1.of_reframes,
      hleaps s _ hs.1 hs.2 (startBy_leaps straps keep hgroups)⟩

end Sys2Proof.Machine
end

section
/-!
PROOFS. Pending-record marks stand only while no unreserved journal space is free (O13).
-/

namespace Sys2Proof.Machine

open Sys2Proof

/-- The law of the marks, by lookups. -/
def MarksOwed (s : State) : Prop := freeSpace s = 0 ∨ ∀ (g : Nat) (r : GroupRecord), Table.find? g s.groups = some r → r.mark = false

theorem MarksOwed.of_law {s : State} (h : MarksOnlyWhenFull s) : MarksOwed s :=
  h.imp_right fun h _ _ hr => h _ (Table.mem_of_find? hr)

theorem groups_wf {s : State} (h : Table.keys s.groups = groupNumbers) : Table.wf s.groups = true := by
  have hnumbers : Table.wf (Table.keys s.groups |>.map fun g => (g, ())) = true := by
    rw [h]
    decide
  refine (Table.wf_congr ?_).trans hnumbers
  simp [Table.keys]

theorem MarksOwed.law {s : State} (hgroups : Table.keys s.groups = groupNumbers) (h : MarksOwed s) : MarksOnlyWhenFull s :=
  h.imp_right fun h e he => h e.1 e.2 (Table.find?_of_mem (groups_wf hgroups) he)

/-- The groups stand and no space has become free. -/
theorem MarksOwed.of_same {s t : State} (h : MarksOwed s) (hgroups : t.groups = s.groups)
    (hfree : freeSpace s = 0 → freeSpace t = 0) : MarksOwed t := by
  rcases h with h | h
  · exact .inl (hfree h)
  · exact .inr (hgroups ▸ h)

theorem MarksOwed.of_equal {s t : State} (h : MarksOwed s) (hgroups : t.groups = s.groups) (hjournal : t.journal = s.journal) :
    MarksOwed t := h.of_same hgroups fun hfree => (freeSpace_congr hjournal).trans hfree

/-- What is derived afresh sets a mark only where no space is free then. -/
theorem MarksOwed.reacts {u t : State} (h : MarksOwed u) (hr : Reacts u t) : MarksOwed t := by
  obtain ⟨told, hjournal, -, hcovers, -⟩ := hr.told
  have hless : freeSpace t = freeSpace u - told.length := (freeSpace_congr hjournal).trans (freeSpace_tells _ told u)
  rcases h with h | h
  · exact .inl (by omega)
  by_cases hfull : freeSpace t = 0
  · exact .inl hfull
  refine .inr fun g b hb => ?_
  have hkey : g ∈ Table.keys u.groups := by
    rw [← hr.groups, Table.mem_keys_iff, hb]
    rfl
  obtain ⟨a, ha⟩ := Option.isSome_iff_exists.mp (Table.mem_keys_iff.mp hkey)
  rcases hcovers g a b ha hb with ⟨-, rfl⟩ | ⟨-, -, -, ⟨hmark, -⟩ | ⟨-, hnone⟩⟩
  · exact h g b ha
  · exact hmark.trans (h g a ha)
  · exact absurd hnone hfull

theorem freeSpace_owedRecords (owing : List (Nat × GroupRecord)) (s : State) :
    freeSpace (owing.foldl owedRecord s) = freeSpace s - owing.length := by
  induction owing generalizing s with
  | nil => rfl
  | cons e rest ih =>
    rw [List.foldl_cons, ih, List.length_cons]
    simp only [owedRecord, recorded, freeSpace, used, List.length_append, List.length_singleton]
    omega

/-- After the owed records no space is free or no mark is left. -/
theorem MarksOwed.withOwed (s : State) : MarksOwed (withOwed s) := by
  rw [withOwed_eq]
  unfold afterOwed
  by_cases hall : (s.groups.filter fun e => e.2.mark).length ≤ freeSpace s
  · have howed : owed s.groups s = s.groups.filter fun e => e.2.mark := List.take_of_length_le hall
    rw [howed]
    split
    · next hnone =>
      refine .inr fun g r hr => ?_
      by_contra hmark
      have hmem : (g, r) ∈ s.groups.filter fun e => e.2.mark :=
        List.mem_filter.mpr ⟨Table.mem_of_find? hr, by simpa using hmark⟩
      rw [hnone] at hmem
      cases hmem
    · refine .inr fun g r hr => ?_
      rw [show (shown ((s.groups.filter fun e => e.2.mark).foldl owedRecord (unmarkGroups (s.groups.filter fun e => e.2.mark) s))).groups
          = (unmarkGroups (s.groups.filter fun e => e.2.mark) s).groups by rw [foldl_owedRecord]; rfl] at hr
      obtain ⟨e, he, heq⟩ := List.mem_map.mp (Table.mem_of_find? hr)
      split at heq
      · obtain rfl := (Prod.mk.inj heq).2
        rfl
      · next hnot =>
        subst heq
        by_contra hmark
        exact hnot (List.mem_map_of_mem (List.mem_filter.mpr ⟨he, by simpa using hmark⟩))
  · refine .inl ?_
    have hlength : (owed s.groups s).length = freeSpace s := by
      rw [owed, List.length_take]
      omega
    split
    · next hnone =>
      rw [hnone] at hlength
      exact hlength.symm
    · have hspace : freeSpace (unmarkGroups (owed s.groups s) s) = freeSpace s := rfl
      have := freeSpace_owedRecords (owed s.groups s) (unmarkGroups (owed s.groups s) s)
      rw [hspace, hlength, Nat.sub_self] at this
      exact this

theorem quoteDropped_keeps (slot : Nat) (q : QuoteSlot) (s : State) : Keeps [.engine, .permits] s (quoteDropped slot q s) := by
  intro b hb
  unfold quoteDropped
  split <;> cases b <;> first | rfl | exact absurd (by decide) hb

theorem beginWalk_keeps (s : State) : Keeps [.engine, .terminals] s (beginWalk s) := by
  intro b hb
  unfold beginWalk
  split <;> cases b <;> first | rfl | exact absurd (by decide) hb

theorem quotePlaced_keeps (slot : Nat) (t : Terminal) (e : QueueEntry) (s : State) :
    Keeps [.engine, .terminals, .permits] s (quotePlaced slot t e s) := by
  intro b hb
  cases b <;> first | rfl | exact absurd (by decide) hb

theorem Moves.marks {links steady : Prop} {s t : State} (h : Moves links steady s t) (hs : MarksOwed s) : MarksOwed t := by
  induction h with
  | refl => exact hs
  | reacts _ hr ih => exact ih.reacts hr
  | beside _ hk hf ih => exact ih.of_same (hk .groups (by decide)) hf
  | @owed u v _ hk ih =>
    split
    · exact .withOwed v
    · next hroom => exact .inr ((hk .groups (by decide)) ▸ ih.resolve_left hroom)
  | slot k f _ _ ih => exact ih
  | slots f _ _ ih => exact ih
  | permits f _ _ ih => exact ih
  | walk f _ _ ih => exact ih
  | line f _ _ ih => exact ih
  | @ended u x k f _ _ _ ih =>
    have hkeeps := quoteDropped_keeps k x.quote u
    exact ih.of_equal (hkeeps .groups (by decide)) (hkeeps .journal (by decide))
  | sold k q f _ _ _ _ ih => exact ih

/-! ### The laws of the marks -/

theorem MarksOwed.keepResult {s : State} (e : QueueEntry) (group : Nat) (r : WalkResult) (h : MarksOwed s) :
    MarksOwed (keepResult e group r s) := by
  rw [keepResult_eq]
  cases resultRefusal e group r s with
  | some c => exact MarksOwed.reacts (u := onTerminal e.slot _ s) h (refuseResult_reacts e.slot e.quoteId c.2 c.1 s)
  | none =>
    show MarksOwed (openQuote e r s)
    unfold openQuote
    cases e.permit with
    | none => exact h
    | some p => dsimp only; split <;> exact h

theorem MarksOwed.beginWalk {s : State} (h : MarksOwed s) : MarksOwed (beginWalk s) :=
  h.of_equal (beginWalk_keeps s .groups (by decide)) (beginWalk_keeps s .journal (by decide))

theorem MarksOwed.completeWalk {s : State} (w : Walk) (h : MarksOwed s) : MarksOwed (completeWalk w s) := by
  unfold Machine.completeWalk
  refine MarksOwed.beginWalk ?_
  split
  · exact h
  · split
    · exact h
    · exact h.keepResult _ _ _

theorem Leaps.marks {s t : State} (h : Leaps False s t) (hs : MarksOwed s) : MarksOwed t := by
  cases h with
  | permitPut _ _ => exact hs
  | permitRevoked _ => exact hs
  | slotConfigured slot c _ => exact MarksOwed.reacts (u := s.onTerminals _) hs (cover_reacts _ _)
  | slotRemoved slot x _ _ => exact MarksOwed.reacts (u := s.onTerminals _) hs (cover_reacts _ _)
  | walkCompleted w _ => exact hs.completeWalk w
  | coldStarted straps keep =>
    have hcold : ∀ e ∈ coldGroups, e.2.mark = false := by decide
    exact .inr fun g r hr => hcold (g, r) (Table.mem_of_find? hr)
  | started straps h => exact h.marks hs
  | powerFailed _ _ => exact hs
  | sent h ht => exact ht.moves.marks (steady := False) (h.marks hs)
  | quoted slot ask permit plate h hwf hx _ ht =>
    refine ht.moves.marks (steady := False) ?_
    rw [acceptQuote_eq hwf hx]
    exact ((h.marks hs).of_equal (t := quotePlaced ..) rfl rfl).beginWalk

theorem marksOwed_kept : Kept fun s => TablesOrdered s ∧ MarksOwed s := by
  refine kept_of_moves (links := False) ?_ (fun s p h => h) (fun _ hl => hl.elim) (fun s t hs h => h.marks hs)
    fun s t _ hs h => h.marks hs
  rintro s t ⟨_, _, _, rfl⟩ hs
  exact hs

/-- Settles O13: what is derived afresh sets a mark where no space is free, and where space becomes free the owed records are appended
until the marks or the space are used up. -/
theorem marksStayOwed : Obligations.MarksStayOwed := by
  rintro s t ⟨htables, hmarks⟩ hstep
  obtain ⟨htables', howed⟩ := marksOwed_kept s t ⟨htables, .of_law hmarks⟩ hstep
  refine ⟨htables', ?_⟩
  obtain ⟨-, -, -, -, hgroups⟩ := htables'
  exact howed.law hgroups

end Sys2Proof.Machine
end

section
/-!
PROOFS. The engine's accounts with the quote slots: every move keeps them, and so do the acceptance of a quote and the completion of a
walk.
-/

namespace Sys2Proof.Machine

open Sys2Proof

/-! ### The quote of a slot -/

/-- The quote of a slot. -/
def quoteAt (k : Nat) (s : State) : Option QuoteSlot := (terminal s k).map (·.quote)

theorem quoteAt_some {k : Nat} {s : State} {x : Terminal} (hx : terminal s k = some x) : quoteAt k s = some x.quote := by
  rw [quoteAt, hx]
  rfl

theorem quoteAt_congr {s t : State} (h : t.terminals = s.terminals) (k : Nat) : quoteAt k t = quoteAt k s := by
  rw [quoteAt, quoteAt, terminal, terminal, h]

theorem quoteAt_onTerminal (k : Nat) (f : Terminal → Terminal) (s : State) (j : Nat) :
    quoteAt j (onTerminal k f s) = if k = j then (terminal s j).map fun x => (f x).quote else quoteAt j s := by
  rw [quoteAt, terminal_onTerminal]
  split
  · rw [Option.map_map]
    rfl
  · rfl

theorem quoteAt_onTerminal_ne {k j : Nat} (h : j ≠ k) (f : Terminal → Terminal) (s : State) :
    quoteAt j (onTerminal k f s) = quoteAt j s := by
  rw [quoteAt_onTerminal, if_neg h.symm]

theorem quoteAt_onTerminal_same {k : Nat} {f : Terminal → Terminal} {s : State}
    (h : ∀ x, terminal s k = some x → (f x).quote = x.quote) (j : Nat) : quoteAt j (onTerminal k f s) = quoteAt j s := by
  rw [quoteAt_onTerminal]
  split
  · next heq =>
    subst heq
    cases hx : terminal s k with
    | none => rw [quoteAt, hx]; rfl
    | some x => rw [quoteAt, hx]; exact congrArg some (h x hx)
  · rfl

theorem Reacts.quoteAt {u t : State} (h : Reacts u t) (k : Nat) : quoteAt k t = quoteAt k u := by
  unfold Machine.quoteAt
  rcases h.slot_cases k with ⟨hu, ht⟩ | ⟨x, y, hx, hy, hxy⟩
  · rw [hu, ht]
  · rw [hx, hy, Option.map_some, Option.map_some, hxy.quote]

theorem Reacts.engine {u t : State} (h : Reacts u t) : t.engine = u.engine := h.keeps .engine (by decide)

theorem quoteAt_mapAll {f : Terminal → Terminal} (hf : ∀ x, (f x).quote = x.quote) (s : State) (k : Nat) :
    quoteAt k (s.onTerminals (Table.mapAll f)) = quoteAt k s := by
  rw [quoteAt, terminal_mapAll, quoteAt, Option.map_map]
  exact congrFun (congrArg Option.map (funext hf)) _

/-! ### The engine -/

/-- The entries and the walk in flight are their slots' quotes; whether a walk is under way is left open. -/
structure EngineHeld (s : State) : Prop where
  once : (s.engine.queue.map (·.slot)).Nodup
  queued : ∀ x ∈ s.engine.queue, quoteAt x.slot s = some (.queued x.quoteId)
  walking : ∀ w ∈ s.engine.walk, w.discard = false → quoteAt w.entry.slot s = some (.walking w.entry.quoteId)

/-- While the part runs the queue waits only behind a walk in flight. -/
def Waits (s : State) : Prop := s.supply.part = .running → s.engine.walk = none → s.engine.queue = []

theorem engineSound_iff (s : State) : EngineSound s ↔ EngineHeld s ∧ Waits s := by
  constructor
  · rintro ⟨h1, h2, h3, h4⟩
    exact ⟨⟨h1, h2, h3⟩, h4⟩
  · rintro ⟨⟨h1, h2, h3⟩, h4⟩
    exact ⟨h1, h2, h3, h4⟩

namespace EngineHeld

variable {s t : State}

theorem idle (h : s.engine = { queue := [], walk := none }) : EngineHeld s where
  once := by rw [h]; exact List.nodup_nil
  queued x hx := by rw [h] at hx; cases hx
  walking w hw := by rw [h] at hw; cases hw

/-- The quotes of all slots but one stand, and the engine holds no entry and no undiscarded walk of that one, nor any new one. -/
theorem of_others (k : Nat) (h : EngineHeld s) (hquote : ∀ j, j ≠ k → quoteAt j t = quoteAt j s)
    (hqueue : t.engine.queue.Sublist s.engine.queue) (hgone : ∀ x ∈ t.engine.queue, x.slot ≠ k)
    (hwalk : ∀ w ∈ t.engine.walk, w.discard = false → w.entry.slot ≠ k ∧ ∃ v ∈ s.engine.walk, v.discard = false ∧ v.entry = w.entry) :
    EngineHeld t where
  once := h.once.sublist (hqueue.map _)
  queued x hx := (hquote _ (hgone x hx)).trans (h.queued x (hqueue.subset hx))
  walking w hw hd := by
    obtain ⟨hne, v, hv, hvd, hve⟩ := hwalk w hw hd
    rw [hquote _ hne, ← hve]
    exact h.walking v hv hvd

/-- A slot whose quote is not QUEUED has no entry. -/
theorem no_entry (h : EngineHeld s) {k : Nat} (hk : ∀ id, quoteAt k s ≠ some (.queued id)) : ∀ x ∈ s.engine.queue, x.slot ≠ k := by
  rintro x hx rfl
  exact hk _ (h.queued x hx)

/-- A slot whose quote is not WALKING has no walk but one marked for discard. -/
theorem no_walk (h : EngineHeld s) {k : Nat} (hk : ∀ id, quoteAt k s ≠ some (.walking id)) :
    ∀ w ∈ s.engine.walk, w.discard = false → w.entry.slot ≠ k := by
  rintro w hw hd rfl
  exact hk _ (h.walking w hw hd)

/-- The quotes stand, and the engine's entries and its walk. -/
theorem of_same (h : EngineHeld s) (hquote : ∀ j, quoteAt j t = quoteAt j s) (hqueue : t.engine.queue = s.engine.queue)
    (hwalk : ∀ w ∈ t.engine.walk, w.discard = false → ∃ v ∈ s.engine.walk, v.discard = false ∧ v.entry = w.entry) : EngineHeld t where
  once := hqueue ▸ h.once
  queued x hx := (hquote _).trans (h.queued x (hqueue ▸ hx))
  walking w hw hd := by
    obtain ⟨v, hv, hvd, hve⟩ := hwalk w hw hd
    rw [hquote, ← hve]
    exact h.walking v hv hvd

theorem of_equal (h : EngineHeld s) (hquote : ∀ j, quoteAt j t = quoteAt j s) (hengine : t.engine = s.engine) : EngineHeld t :=
  h.of_same hquote (by rw [hengine]) fun w hw hd => ⟨w, by rw [← hengine]; exact hw, hd, rfl⟩

/-- A quote ends: its entry leaves the queue, or its walk is marked. -/
theorem dropped {k : Nat} {q : QuoteSlot} (h : EngineHeld s) (hq : quoteAt k s = some q) (hengine : t.engine = (quoteDropped k q s).engine)
    (hquote : ∀ j, j ≠ k → quoteAt j t = quoteAt j s) : EngineHeld t := by
  have hunqueued (hne : ∀ id, q ≠ .queued id) : ∀ x ∈ s.engine.queue, x.slot ≠ k :=
    h.no_entry fun id hid => hne id (Option.some.inj (hq.symm.trans hid))
  have hunwalked (hne : ∀ id, q ≠ .walking id) : ∀ w ∈ s.engine.walk, w.discard = false → w.entry.slot ≠ k :=
    h.no_walk fun id hid => hne id (Option.some.inj (hq.symm.trans hid))
  have hplain (hne : ∀ id, q ≠ .queued id) (hne' : ∀ id, q ≠ .walking id) (hsame : t.engine = s.engine) : EngineHeld t :=
    h.of_others k hquote (hsame ▸ List.Sublist.refl _) (hsame ▸ hunqueued hne) fun w hw hd => by
      rw [hsame] at hw
      exact ⟨hunwalked hne' w hw hd, w, hw, hd, rfl⟩
  cases q with
  | none => exact hplain (by simp) (by simp) hengine
  | opened o => exact hplain (by simp) (by simp) hengine
  | queued id =>
    rw [show (quoteDropped k (.queued id) s).engine = { s.engine with queue := s.engine.queue.filter fun x => x.slot ≠ k } from rfl]
      at hengine
    refine h.of_others k hquote (hengine ▸ List.filter_sublist) ?_ fun w hw hd => ?_
    · rw [hengine]
      intro x hx
      exact of_decide_eq_true (List.mem_filter.mp hx).2
    · rw [hengine] at hw
      exact ⟨hunwalked (by simp) w hw hd, w, hw, hd, rfl⟩
  | walking id =>
    rw [show (quoteDropped k (.walking id) s).engine
        = { s.engine with walk := s.engine.walk.map fun w => if w.entry.slot = k then { w with discard := true } else w } from rfl]
      at hengine
    refine h.of_others k hquote (hengine ▸ List.Sublist.refl _) (hengine ▸ hunqueued (by simp)) fun w hw hd => ?_
    rw [hengine] at hw
    obtain ⟨v, hv, rfl⟩ := Option.map_eq_some_iff.mp hw
    by_cases hslot : v.entry.slot = k
    · rw [if_pos hslot] at hd
      cases hd
    · rw [if_neg hslot] at hd ⊢
      exact ⟨hslot, v, hv, hd, rfl⟩

end EngineHeld

theorem quoteAt_dropped (k : Nat) (q : QuoteSlot) (s : State) (j : Nat) : quoteAt j (quoteDropped k q s) = quoteAt j s :=
  quoteAt_congr (quoteDropped_keeps k q s .terminals (by decide)) j

theorem Moves.supply {links steady : Prop} {s t : State} (h : Moves links steady s t) : t.supply = s.supply := by
  induction h with
  | refl => rfl
  | reacts _ hr ih => exact hr.supply.trans ih
  | beside _ hk _ ih => exact (hk .supply (by decide)).trans ih
  | @owed u v _ hk ih =>
    have hv : v.supply = u.supply := hk .supply (by decide)
    split
    · exact (withOwed_keeps v .supply (by decide)).trans (hv.trans ih)
    · exact hv.trans ih
  | slot _ _ _ _ ih => exact ih
  | slots _ _ _ ih => exact ih
  | permits _ _ _ ih => exact ih
  | walk _ _ _ ih => exact ih
  | line _ _ _ ih => exact ih
  | @ended u x k _ _ _ _ ih => exact (quoteDropped_keeps k x.quote u .supply (by decide)).trans ih
  | sold _ _ _ _ _ _ _ ih => exact ih

theorem Moves.engineHeld {links steady : Prop} {s t : State} (h : Moves links steady s t) (hs : EngineHeld s) : EngineHeld t := by
  induction h with
  | refl => exact hs
  | reacts _ hr ih => exact ih.of_equal hr.quoteAt hr.engine
  | beside _ hk _ ih => exact ih.of_equal (quoteAt_congr (hk .terminals (by decide))) (hk .engine (by decide))
  | @owed u v _ hk ih =>
    have hv : EngineHeld v := ih.of_equal (quoteAt_congr (hk .terminals (by decide))) (hk .engine (by decide))
    split
    · exact hv.of_equal (quoteAt_congr (withOwed_keeps v .terminals (by decide))) (withOwed_keeps v .engine (by decide))
    · exact hv
  | slot k f _ hf ih => exact ih.of_equal (quoteAt_onTerminal_same fun x hx => (hf x hx).quote) rfl
  | slots f _ hf ih => exact ih.of_equal (quoteAt_mapAll (fun x => (hf x).quote) _) rfl
  | permits f _ _ ih => exact ih.of_equal (fun _ => rfl) rfl
  | walk f _ hf ih =>
    refine ih.of_same (fun _ => rfl) rfl fun w hw hd => ?_
    obtain ⟨v, hv, rfl⟩ := Option.map_eq_some_iff.mp hw
    exact ⟨v, hv, (hf v).2.symm.trans hd, (hf v).1.symm⟩
  | line f _ _ ih => exact ih.of_equal (fun _ => rfl) rfl
  | @ended u x k f _ hx _ ih =>
    exact ih.dropped (quoteAt_some hx) rfl fun j hj => (quoteAt_onTerminal_ne hj f _).trans (quoteAt_dropped k x.quote u j)
  | @sold u x k q f _ hx hq _ ih =>
    exact ih.dropped ((quoteAt_some hx).trans (congrArg some hq)) rfl fun j hj => quoteAt_onTerminal_ne hj f _

theorem quoteDropped_waits (k : Nat) (q : QuoteSlot) {s : State} (h : Waits s) : Waits (quoteDropped k q s) := by
  intro hrunning hwalk
  have hpart : s.supply.part = .running := by
    rw [← quoteDropped_keeps k q s .supply (by decide)]
    exact hrunning
  cases q with
  | none => exact h hpart hwalk
  | opened _ => exact h hpart hwalk
  | queued _ =>
    show s.engine.queue.filter _ = []
    rw [h hpart hwalk]
    rfl
  | walking _ => exact h hpart (Option.map_eq_none_iff.mp hwalk)

theorem Waits.of_same {s t : State} (h : Waits s) (hsupply : t.supply = s.supply) (hengine : t.engine = s.engine) : Waits t := by
  intro hrunning hwalk
  rw [hengine] at hwalk ⊢
  exact h (hsupply ▸ hrunning) hwalk

theorem Moves.waits {links steady : Prop} {s t : State} (h : Moves links steady s t) (hs : Waits s) : Waits t := by
  induction h with
  | refl => exact hs
  | reacts _ hr ih => exact ih.of_same hr.supply hr.engine
  | beside _ hk _ ih => exact ih.of_same (hk .supply (by decide)) (hk .engine (by decide))
  | @owed u v _ hk ih =>
    have hv : Waits v := ih.of_same (hk .supply (by decide)) (hk .engine (by decide))
    split
    · exact hv.of_same (withOwed_keeps v .supply (by decide)) (withOwed_keeps v .engine (by decide))
    · exact hv
  | slot _ _ _ _ ih => exact ih
  | slots _ _ _ ih => exact ih
  | permits _ _ _ ih => exact ih
  | walk f _ _ ih => exact fun hrunning hwalk => ih hrunning (Option.map_eq_none_iff.mp hwalk)
  | line _ _ _ ih => exact ih
  | @ended u x k f _ _ _ ih => exact quoteDropped_waits k x.quote ih
  | sold _ _ _ _ _ _ _ ih => exact ih

/-! ### The next walk -/

theorem quoteAt_queued {s : State} {e : QueueEntry} {rest : List QueueEntry} (h : EngineHeld s) (hqueue : s.engine.queue = e :: rest) :
    quoteAt e.slot s = some (.queued e.quoteId) := h.queued e (by rw [hqueue]; exact List.mem_cons_self)

/-- The head of the queue begins its walk where none is in flight. -/
theorem EngineHeld.beginWalk {s : State} (h : EngineHeld s) : EngineHeld (beginWalk s) := by
  unfold Machine.beginWalk
  split
  · next e rest _ hqueue =>
    have hquoted := quoteAt_queued h hqueue
    have honce : (e.slot :: rest.map (·.slot)).Nodup := by
      have := h.once
      rw [hqueue] at this
      exact this
    obtain ⟨hfirst, hrest⟩ := List.nodup_cons.mp honce
    have hothers (x : QueueEntry) (hx : x ∈ rest) : x.slot ≠ e.slot := fun heq => hfirst (heq ▸ List.mem_map_of_mem hx)
    refine ⟨hrest, fun x hx => ?_, fun w hw _ => ?_⟩
    · refine (quoteAt_onTerminal_ne (hothers x hx) _ _).trans ?_
      exact h.queued x (by rw [hqueue]; exact List.mem_cons_of_mem _ hx)
    · obtain rfl := Option.some.inj hw
      obtain ⟨y, hy, -⟩ := Option.map_eq_some_iff.mp hquoted
      exact quoteAt_some (terminal_onTerminal_self hy)
  · exact h

theorem beginWalk_waits (s : State) : Waits (beginWalk s) := by
  intro _ hwalk
  unfold beginWalk at hwalk ⊢
  split
  · next e rest hnone hqueue =>
    rw [hnone, hqueue] at hwalk
    cases hwalk
  · next hnot =>
    split at hwalk
    · next e rest hnone hqueue => exact absurd hqueue (hnot e rest hnone)
    · cases hqueue : s.engine.queue with
      | nil => rfl
      | cons e rest => exact absurd hqueue (hnot e rest hwalk)

/-! ### The acceptance of a quote -/

theorem placeEntry_mem {e x : QueueEntry} {q : List QueueEntry} (h : x ∈ placeEntry e q) : x = e ∨ (x ∈ q ∧ x.slot ≠ e.slot) := by
  rw [placeEntry_eq] at h
  split at h
  · obtain ⟨y, hy, rfl⟩ := List.mem_map.mp h
    split
    · exact .inl rfl
    · next hne => exact .inr ⟨hy, hne⟩
  · next hnot =>
    rcases List.mem_append.mp h with hx | hx
    · exact .inr ⟨hx, fun heq => hnot (heq ▸ List.mem_map_of_mem hx)⟩
    · exact .inl (List.mem_singleton.mp hx)

theorem placeEntry_once {e : QueueEntry} {q : List QueueEntry} (h : (q.map (·.slot)).Nodup) : ((placeEntry e q).map (·.slot)).Nodup := by
  rw [placeEntry_eq]
  split
  · rw [List.map_map]
    have hsame : ((fun y : QueueEntry => y.slot) ∘ fun y => if y.slot = e.slot then e else y) = fun y => y.slot := by
      funext y
      by_cases hy : y.slot = e.slot <;> simp [hy]
    rwa [hsame]
  · next hnot =>
    rw [List.map_append, List.map_singleton, List.nodup_append]
    refine ⟨h, List.nodup_singleton _, fun a ha b hb => ?_⟩
    rw [List.mem_singleton.mp hb]
    rintro rfl
    exact hnot ha

theorem quoteAt_quotePlaced {slot : Nat} {t : Terminal} (e : QueueEntry) {s : State} (ht : terminal s slot = some t) :
    quoteAt slot (quotePlaced slot t e s) = some (.queued t.nextQuoteId) := quoteAt_some (terminal_quotePlaced e ht)

theorem quoteAt_quotePlaced_ne {slot j : Nat} (t : Terminal) (e : QueueEntry) (s : State) (h : j ≠ slot) :
    quoteAt j (quotePlaced slot t e s) = quoteAt j s :=
  (quoteAt_congr (s := onTerminal slot (Terminal.quoting t.nextQuoteId (.queued t.nextQuoteId)) s) rfl j).trans
    (quoteAt_onTerminal_ne h _ s)

theorem walkKept_entry (slot : Nat) (q : QuoteSlot) (w : Walk) : (walkKept slot q w).entry = w.entry := by
  unfold walkKept
  split
  · split <;> rfl
  · rfl

theorem walkKept_stands {slot : Nat} {q : QuoteSlot} {w : Walk} (h : (walkKept slot q w).discard = false) :
    w.discard = false ∧ ((∃ id, q = .walking id) → w.entry.slot ≠ slot) := by
  unfold walkKept at h
  split at h
  · split at h
    · cases h
    · next hne => exact ⟨h, fun _ => hne⟩
  · next hnot => exact ⟨h, fun ⟨id, hid⟩ => absurd hid (hnot id)⟩

theorem EngineHeld.quotePlaced {slot : Nat} {t : Terminal} {e : QueueEntry} {s : State} (h : EngineHeld s) (ht : terminal s slot = some t)
    (hslot : e.slot = slot) (hid : e.quoteId = t.nextQuoteId) : EngineHeld (quotePlaced slot t e s) := by
  refine ⟨placeEntry_once h.once, fun x hx => ?_, fun w hw hd => ?_⟩
  · rcases placeEntry_mem hx with rfl | ⟨hx, hne⟩
    · rw [hslot, hid]
      exact quoteAt_quotePlaced _ ht
    · rw [quoteAt_quotePlaced_ne t e s (hslot ▸ hne)]
      exact h.queued x hx
  · obtain ⟨v, hv, rfl⟩ := Option.map_eq_some_iff.mp hw
    obtain ⟨hvd, hvq⟩ := walkKept_stands hd
    have hne : v.entry.slot ≠ slot := by
      intro heq
      have hquote := h.walking v hv hvd
      rw [heq, quoteAt_some ht] at hquote
      exact hvq ⟨_, Option.some.inj hquote⟩ heq
    rw [walkKept_entry, quoteAt_quotePlaced_ne t e s hne]
    exact h.walking v hv hvd

/-! ### The completion of a walk -/

/-- What a kept result makes of the quotes: that of its slot is none or open, the others stand. -/
theorem quoteAt_keepResult {e : QueueEntry} (group : Nat) (r : WalkResult) {s : State} {x : Terminal} (hx : terminal s e.slot = some x)
    (j : Nat) :
    quoteAt j (keepResult e group r s)
      = if j ≠ e.slot then quoteAt j s
        else if (resultRefusal e group r s).isSome then some .none
        else some (.opened (quoteOf e r s.calendar.uptime)) := by
  rw [keepResult_eq]
  cases resultRefusal e group r s with
  | some c =>
    have hrefused := (refuseResult_reacts e.slot e.quoteId c.2 c.1 s).quoteAt j
    refine hrefused.trans ?_
    by_cases hj : j = e.slot
    · subst hj
      rw [quoteAt_some (terminal_onTerminal_self hx), if_neg (not_not.mpr rfl), if_pos Option.isSome_some]
      exact congrArg some (Tame.considered (links := False) (steady := False) _ _).quote
    · rw [quoteAt_onTerminal_ne hj, if_pos hj]
  | none =>
    show quoteAt j (openQuote e r s) = _
    have hplaced (u : State) (hu : u.terminals = s.terminals) (body : NoticeBody) :
        quoteAt j (queueResult e.slot body (setQuote e.slot (.opened (quoteOf e r s.calendar.uptime)) u))
          = if j ≠ e.slot then quoteAt j s else some (.opened (quoteOf e r s.calendar.uptime)) := by
      have hqueued : quoteAt j (queueResult e.slot body (setQuote e.slot (.opened (quoteOf e r s.calendar.uptime)) u))
          = quoteAt j (setQuote e.slot (.opened (quoteOf e r s.calendar.uptime)) u) := by
        rw [queueResult_eq]
        exact quoteAt_onTerminal_same (by intro _ _; rfl) j
      rw [hqueued]
      by_cases hj : j = e.slot
      · subst hj
        have hu : terminal u e.slot = some x := by rw [terminal, hu]; exact hx
        rw [if_neg (not_not.mpr rfl)]
        exact quoteAt_some (terminal_onTerminal_self hu)
      · rw [if_pos hj]
        exact (quoteAt_onTerminal_ne hj _ u).trans (quoteAt_congr hu j)
    unfold openQuote
    cases e.permit with
    | none => exact hplaced s rfl _
    | some p =>
      dsimp only
      split
      · exact hplaced _ rfl _
      · exact hplaced s rfl _

theorem keepResult_engine (e : QueueEntry) (group : Nat) (r : WalkResult) (s : State) : (keepResult e group r s).engine = s.engine := by
  rw [keepResult_eq]
  cases resultRefusal e group r s with
  | some c => exact (refuseResult_reacts e.slot e.quoteId c.2 c.1 s).engine
  | none =>
    show (openQuote e r s).engine = s.engine
    unfold openQuote
    cases e.permit with
    | none => rfl
    | some p => dsimp only; split <;> rfl

/-- The result of a walk handed over, the walk cleared. -/
def walkHanded (w : Walk) (s : State) : State :=
  State.onEngine
    (if w.discard then s
      else
        match terminal s w.entry.slot with
        | none => s
        | some t => keepResult w.entry t.config.group (WalkInput.run { plans := s.plans, walk := w }) s)
    fun e => { e with walk := none }

theorem completeWalk_eq (w : Walk) (s : State) : completeWalk w s = beginWalk (walkHanded w s) := rfl

theorem EngineHeld.walkHanded {w : Walk} {s : State} (hw : s.engine.walk = some w) (h : EngineHeld s) : EngineHeld (walkHanded w s) := by
  have hcleared : EngineHeld (s.onEngine fun e => { e with walk := none }) :=
    ⟨h.once, h.queued, fun _ hv => by cases hv⟩
  unfold Machine.walkHanded
  split
  · exact hcleared
  · next hkept =>
    split
    · exact hcleared
    · next x hx =>
      have hwalking := h.walking w hw (by simpa using hkept)
      have hqueue : ∀ y ∈ s.engine.queue, y.slot ≠ w.entry.slot := h.no_entry fun id hid => by
        rw [hwalking] at hid
        cases hid
      refine h.of_others w.entry.slot (fun j hj => ?_) ?_ ?_ fun _ hv => by cases hv
      · refine (quoteAt_congr (s := keepResult w.entry x.config.group _ s) rfl j).trans ?_
        rw [quoteAt_keepResult _ _ hx, if_pos hj]
      · rw [State.onEngine_engine, keepResult_engine]
      · rw [State.onEngine_engine, keepResult_engine]
        exact hqueue

theorem EngineSound.completeWalk {w : Walk} {s : State} (hw : s.engine.walk = some w) (h : EngineSound s) : EngineSound (completeWalk w s) :=
  (engineSound_iff _).mpr ⟨((((engineSound_iff s).mp h).1).walkHanded hw).beginWalk, beginWalk_waits _⟩

end Sys2Proof.Machine
end

section
/-!
PROOFS. A hold stays its OPEN quote's (O9).
-/

namespace Sys2Proof.Machine

open Sys2Proof

/-- The register holds this hold under this number. -/
def HoldAt (permits : Table Permit) (number : Nat) (h : Hold) : Prop := ∃ p, (number, p) ∈ permits ∧ p.hold = some h

/-- R87 by lookups: a hold is that of its owner's OPEN quote. -/
def HoldsOpen (s : State) : Prop :=
  ∀ number h, HoldAt s.permits number h →
    ∃ o : OpenQuote, quoteAt h.owner s = some (.opened o) ∧ o.quoteId = h.quoteId ∧ o.permit = some (number, h.minutes)

theorem HoldsOpen.of_law {s : State} (hwf : Table.wf s.terminals = true) (h : HoldsOwned s) : HoldsOpen s := by
  rintro number hold ⟨p, hp, hhold⟩
  obtain ⟨q, hq, howner, hmatch⟩ := h (number, p) hp hold hhold
  have hquote : quoteAt hold.owner s = some q.2.quote := by
    rw [← howner]
    exact quoteAt_some (Table.find?_of_mem hwf hq)
  split at hmatch
  · next o ho => exact ⟨o, hquote.trans (congrArg some ho), hmatch.1, hmatch.2⟩
  · exact hmatch.elim

theorem HoldsOpen.law {s : State} (h : HoldsOpen s) : HoldsOwned s := by
  intro e he hold hhold
  obtain ⟨o, hquote, hid, hpermit⟩ := h e.1 hold ⟨e.2, he, hhold⟩
  obtain ⟨x, hx, hxo⟩ := Option.map_eq_some_iff.mp hquote
  refine ⟨(hold.owner, x), Table.mem_of_find? hx, rfl, ?_⟩
  dsimp only
  rw [hxo]
  exact ⟨hid, hpermit⟩

/-- No hold is new, and the quotes of the owners stand. -/
theorem HoldsOpen.of_fewer {s t : State} (h : HoldsOpen s)
    (hfewer : ∀ number hold, HoldAt t.permits number hold → HoldAt s.permits number hold ∧ quoteAt hold.owner t = quoteAt hold.owner s) :
    HoldsOpen t := by
  intro number hold hat
  obtain ⟨hbefore, hquote⟩ := hfewer number hold hat
  rw [hquote]
  exact h number hold hbefore

theorem HoldsOpen.of_equal {s t : State} (h : HoldsOpen s) (hquote : ∀ j, quoteAt j t = quoteAt j s) (hpermits : t.permits = s.permits) :
    HoldsOpen t := h.of_fewer fun _ hold hat => ⟨hpermits ▸ hat, hquote hold.owner⟩

/-- A slot whose quote is not OPEN owns no hold. -/
theorem HoldsOpen.no_hold {s : State} (h : HoldsOpen s) {k : Nat} (hk : ∀ o, quoteAt k s ≠ some (.opened o)) :
    ∀ number hold, HoldAt s.permits number hold → hold.owner ≠ k := by
  rintro number hold hat rfl
  obtain ⟨o, ho, -⟩ := h number hold hat
  exact hk o ho

/-- The quote of one slot changes, which owns no hold. -/
theorem HoldsOpen.of_others {s t : State} (h : HoldsOpen s) (k : Nat) (hk : ∀ o, quoteAt k s ≠ some (.opened o))
    (hquote : ∀ j, j ≠ k → quoteAt j t = quoteAt j s) (hpermits : t.permits = s.permits) : HoldsOpen t := by
  refine h.of_fewer fun number hold hat => ?_
  rw [hpermits] at hat
  exact ⟨hat, hquote _ (h.no_hold hk number hold hat)⟩

/-! ### The end of an open quote -/

/-- The register after the hold of an open quote is taken off, its permit changed otherwise by `g`. -/
def holdTaken (g : Permit → Permit) (slot : Nat) (q : OpenQuote) (permits : Table Permit) : Table Permit :=
  match q.permit with
  | none => permits
  | some (number, _) =>
    Table.modify number (fun p => if p.hold.any fun h => h.owner == slot && h.quoteId == q.quoteId then g p else p) permits

theorem released_eq (slot : Nat) (q : OpenQuote) (permits : Table Permit) :
    released slot q permits = holdTaken (fun p => { p with hold := none }) slot q permits := rfl

theorem consumed_eq (slot : Nat) (q : OpenQuote) (permits : Table Permit) :
    consumed slot q permits
      = holdTaken (fun p => { p with consumed := p.consumed + (p.hold.map (·.minutes)).getD 0, hold := none }) slot q permits := rfl

/-- A hold that is left was there before, and is not the one taken off. -/
theorem holdTaken_left {g : Permit → Permit} (hg : ∀ p, (g p).hold = none) {slot : Nat} {q : OpenQuote} {permits : Table Permit}
    {number : Nat} {hold : Hold} (h : HoldAt (holdTaken g slot q permits) number hold) :
    HoldAt permits number hold ∧ ¬(hold.owner = slot ∧ hold.quoteId = q.quoteId ∧ q.permit.map (·.1) = some number) := by
  obtain ⟨p, hp, hhold⟩ := h
  unfold holdTaken at hp
  split at hp
  · next hnone => exact ⟨⟨p, hp, hhold⟩, fun ⟨_, _, h⟩ => by rw [hnone] at h; cases h⟩
  · next n minutes hsome =>
    obtain ⟨⟨m, r⟩, hr, heq⟩ := List.mem_map.mp hp
    dsimp only at heq
    by_cases hm : m = n
    · rw [if_pos hm] at heq
      obtain ⟨rfl, rfl⟩ := Prod.mk.inj heq
      by_cases hany : (r.hold.any fun h => h.owner == slot && h.quoteId == q.quoteId) = true
      · rw [if_pos hany, hg] at hhold
        cases hhold
      · rw [if_neg hany] at hhold
        refine ⟨⟨r, hr, hhold⟩, fun ⟨howner, hid, _⟩ => hany ?_⟩
        rw [hhold]
        simp [howner, hid]
    · rw [if_neg hm] at heq
      obtain ⟨rfl, rfl⟩ := Prod.mk.inj heq
      refine ⟨⟨r, hr, hhold⟩, fun ⟨_, _, h⟩ => hm ?_⟩
      rw [hsome] at h
      exact (Option.some.inj h).symm

/-- An open quote ends with its hold taken off: its slot owns no hold then. -/
theorem HoldsOpen.taken {s t : State} {g : Permit → Permit} (hg : ∀ p, (g p).hold = none) {k : Nat} {q : OpenQuote} (h : HoldsOpen s)
    (hq : quoteAt k s = some (.opened q)) (hquote : ∀ j, j ≠ k → quoteAt j t = quoteAt j s)
    (hpermits : t.permits = holdTaken g k q s.permits) : HoldsOpen t := by
  refine h.of_fewer fun number hold hat => ?_
  rw [hpermits] at hat
  obtain ⟨hbefore, hnot⟩ := holdTaken_left hg hat
  refine ⟨hbefore, hquote _ fun howner => hnot ?_⟩
  obtain ⟨o, ho, hid, hpermit⟩ := h number hold hbefore
  rw [howner, hq] at ho
  obtain rfl : q = o := by simpa using ho
  exact ⟨howner, hid.symm, by rw [hpermit]; rfl⟩

theorem HoldsOpen.dropped {s t : State} {k : Nat} {q : QuoteSlot} (h : HoldsOpen s) (hq : quoteAt k s = some q)
    (hquote : ∀ j, j ≠ k → quoteAt j t = quoteAt j s) (hpermits : t.permits = permitsFreed k q s.permits) : HoldsOpen t := by
  cases q with
  | opened o => exact h.taken (g := fun p => { p with hold := none }) (fun _ => rfl) hq hquote hpermits
  | none => exact h.of_others k (by simp [hq]) hquote hpermits
  | queued id => exact h.of_others k (by simp [hq]) hquote hpermits
  | walking id => exact h.of_others k (by simp [hq]) hquote hpermits

theorem Moves.holdsOpen {links steady : Prop} {s t : State} (h : Moves links steady s t) (hs : HoldsOpen s) : HoldsOpen t := by
  induction h with
  | refl => exact hs
  | reacts _ hr ih => exact ih.of_equal hr.quoteAt (hr.keeps .permits (by decide))
  | beside _ hk _ ih => exact ih.of_equal (quoteAt_congr (hk .terminals (by decide))) (hk .permits (by decide))
  | @owed u v _ hk ih =>
    have hv : HoldsOpen v := ih.of_equal (quoteAt_congr (hk .terminals (by decide))) (hk .permits (by decide))
    split
    · exact hv.of_equal (quoteAt_congr (withOwed_keeps v .terminals (by decide))) (withOwed_keeps v .permits (by decide))
    · exact hv
  | slot k f _ hf ih => exact ih.of_equal (quoteAt_onTerminal_same fun x hx => (hf x hx).quote) rfl
  | slots f _ hf ih => exact ih.of_equal (quoteAt_mapAll (fun x => (hf x).quote) _) rfl
  | permits f _ hf ih =>
    refine ih.of_fewer fun number hold hat => ⟨?_, rfl⟩
    obtain ⟨p, hp, hhold⟩ := hat
    obtain ⟨e, he, heq⟩ := List.mem_map.mp hp
    obtain ⟨rfl, rfl⟩ := Prod.mk.inj heq
    exact ⟨e.2, he, (hf e.2).symm.trans hhold⟩
  | walk f _ _ ih => exact ih.of_equal (fun _ => rfl) rfl
  | line f _ _ ih => exact ih.of_equal (fun _ => rfl) rfl
  | @ended u x k f _ hx _ ih =>
    refine ih.dropped (quoteAt_some hx) (fun j hj => (quoteAt_onTerminal_ne hj f _).trans (quoteAt_dropped k x.quote u j)) ?_
    cases x.quote <;> rfl
  | @sold u x k q f _ hx hq _ ih =>
    exact ih.taken (g := fun p => { p with consumed := p.consumed + (p.hold.map (·.minutes)).getD 0, hold := none }) (fun _ => rfl)
      ((quoteAt_some hx).trans (congrArg some hq)) (fun j hj => quoteAt_onTerminal_ne hj f _) rfl

/-! ### Walks and quotes -/

theorem HoldsOpen.beginWalk {s : State} (he : EngineHeld s) (h : HoldsOpen s) : HoldsOpen (beginWalk s) := by
  unfold Machine.beginWalk
  split
  · next e rest _ hqueue =>
    refine h.of_others e.slot (fun o ho => ?_) (fun j hj => quoteAt_onTerminal_ne hj _ _) rfl
    rw [quoteAt_queued he hqueue] at ho
    cases ho
  · exact h

theorem HoldsOpen.quotePlaced {slot : Nat} {t : Terminal} (e : QueueEntry) {s : State} (h : HoldsOpen s) (ht : terminal s slot = some t) :
    HoldsOpen (quotePlaced slot t e s) :=
  h.dropped (quoteAt_some ht) (fun _ hj => quoteAt_quotePlaced_ne t e s hj) rfl

/-- A kept result places a hold for its slot where it opens the quote with allowance used (R88). -/
theorem keepResult_permits (e : QueueEntry) (group : Nat) (r : WalkResult) (s : State) :
    (keepResult e group r s).permits = if (resultRefusal e group r s).isSome then s.permits else held e r s.permits := by
  rw [keepResult_eq]
  cases resultRefusal e group r s with
  | some c => exact (refuseResult_reacts e.slot e.quoteId c.2 c.1 s).keeps .permits (by decide)
  | none =>
    show (openQuote e r s).permits = held e r s.permits
    unfold openQuote held
    cases e.permit with
    | none => rfl
    | some p => dsimp only; split <;> rfl

/-- A hold of the register after a result is one of before, or its quote's own. -/
theorem held_cases {e : QueueEntry} {r : WalkResult} {permits : Table Permit} {number : Nat} {hold : Hold}
    (h : HoldAt (held e r permits) number hold) :
    HoldAt permits number hold
      ∨ hold = { owner := e.slot, quoteId := e.quoteId, minutes := r.used } ∧ e.permit.map (·.1) = some number := by
  obtain ⟨p, hp, hhold⟩ := h
  unfold held at hp
  split at hp
  · next n kind hpermit =>
    split at hp
    · rcases Table.mem_of_mem_modify hp with hp | ⟨v, -, heq⟩
      · exact .inl ⟨p, hp, hhold⟩
      · obtain ⟨rfl, rfl⟩ := Prod.mk.inj heq
        exact .inr ⟨(Option.some.inj hhold).symm, by rw [hpermit]; rfl⟩
    · exact .inl ⟨p, hp, hhold⟩
  · exact .inl ⟨p, hp, hhold⟩

theorem HoldsOpen.keepResult {e : QueueEntry} (group : Nat) (r : WalkResult) {s : State} {x : Terminal} (h : HoldsOpen s)
    (hx : terminal s e.slot = some x) (hwalking : quoteAt e.slot s = some (.walking e.quoteId)) : HoldsOpen (keepResult e group r s) := by
  have hclosed : ∀ o, quoteAt e.slot s ≠ some (.opened o) := by simp [hwalking]
  have hquote (j : Nat) := quoteAt_keepResult group r hx j
  have hothers (j : Nat) (hj : j ≠ e.slot) : quoteAt j (Machine.keepResult e group r s) = quoteAt j s := by rw [hquote, if_pos hj]
  have hpermits := keepResult_permits e group r s
  by_cases hrefused : (resultRefusal e group r s).isSome = true
  · rw [if_pos hrefused] at hpermits
    exact h.of_others e.slot hclosed hothers hpermits
  · rw [if_neg hrefused] at hpermits
    intro number hold hat
    rw [hpermits] at hat
    rcases held_cases hat with hbefore | ⟨rfl, hnumber⟩
    · rw [hothers _ (h.no_hold hclosed number hold hbefore)]
      exact h number hold hbefore
    · refine ⟨quoteOf e r s.calendar.uptime, ?_, rfl, ?_⟩
      · rw [hquote, if_neg (not_not.mpr rfl), if_neg hrefused]
      · obtain ⟨p, hp, rfl⟩ := Option.map_eq_some_iff.mp hnumber
        rw [quoteOf, hp]
        rfl

theorem HoldsOpen.walkHanded {w : Walk} {s : State} (he : EngineHeld s) (hw : s.engine.walk = some w) (h : HoldsOpen s) :
    HoldsOpen (walkHanded w s) := by
  unfold Machine.walkHanded
  split
  · exact h
  · next hkept =>
    split
    · exact h
    · next x hx =>
      have hkept := h.keepResult x.config.group (WalkInput.run { plans := s.plans, walk := w }) hx
        (he.walking w hw (by simpa using hkept))
      exact hkept.of_equal (fun _ => rfl) rfl

/-! ### The laws of quotes and holds -/

/-- Engine and holds, by lookups. -/
structure HoldsLaw (s : State) : Prop where
  engine : EngineHeld s
  waits : Waits s
  holds : HoldsOpen s

theorem HoldsLaw.moves {links steady : Prop} {s t : State} (hs : HoldsLaw s) (h : Moves links steady s t) : HoldsLaw t :=
  ⟨h.engineHeld hs.engine, h.waits hs.waits, h.holdsOpen hs.holds⟩

theorem HoldsLaw.acceptQuote {slot : Nat} {x : Terminal} {s : State} (hs : HoldsLaw s) (hwf : Table.wf s.terminals = true)
    (hx : terminal s slot = some x) (ask : Ask) (permit : Option (Nat × PermitKind)) (plate : Option Plate) :
    HoldsLaw (acceptQuote slot x ask permit plate s) := by
  rw [acceptQuote_eq hwf hx]
  have hplaced := hs.engine.quotePlaced (e := entryOf slot x ask permit plate s) hx rfl rfl
  exact ⟨hplaced.beginWalk, beginWalk_waits _, (hs.holds.quotePlaced _ hx).beginWalk hplaced⟩

/-- A slot that has no quote is configured or removed. -/
theorem HoldsLaw.of_unquoted {s t : State} (hs : HoldsLaw s) (k : Nat) (hk : ∀ q, quoteAt k s = some q → q = .none)
    (hquote : ∀ j, j ≠ k → quoteAt j t = quoteAt j s) (hpermits : t.permits = s.permits) (hengine : t.engine = s.engine)
    (hsupply : t.supply = s.supply) : HoldsLaw t := by
  have hgone := hs.engine.no_entry (k := k) fun id h => by cases hk _ h
  refine ⟨hs.engine.of_others k hquote (hengine ▸ List.Sublist.refl _) (hengine ▸ hgone) fun w hw hd => ?_,
    hs.waits.of_same hsupply hengine, hs.holds.of_others k (fun o h => by cases hk _ h) hquote hpermits⟩
  rw [hengine] at hw
  exact ⟨hs.engine.no_walk (k := k) (fun id h => by cases hk _ h) w hw hd, w, hw, hd, rfl⟩

theorem startValues_holdsLaw (straps : Straps) (s : State) : HoldsLaw (startValues straps s) := by
  refine ⟨.idle rfl, fun _ _ => rfl, fun number hold hat => ?_⟩
  obtain ⟨p, hp, hhold⟩ := hat
  obtain ⟨e, -, heq⟩ := List.mem_map.mp hp
  obtain ⟨-, rfl⟩ := Prod.mk.inj heq
  cases hhold

theorem Leaps.holdsLaw {s t : State} (hs : HoldsLaw s) (h : Leaps False s t) : HoldsLaw t := by
  cases h with
  | permitPut number p =>
    refine ⟨hs.engine.of_equal (fun _ => rfl) rfl, hs.waits, hs.holds.of_fewer fun n hold hat => ⟨?_, rfl⟩⟩
    obtain ⟨q, hq, hhold⟩ := hat
    rcases Table.mem_of_mem_put hq with heq | hq
    · obtain ⟨rfl, rfl⟩ := Prod.mk.inj heq
      obtain ⟨before, hbefore, hheld⟩ := Option.bind_eq_some_iff.mp hhold
      exact ⟨before, Table.mem_of_find? hbefore, hheld⟩
    · exact ⟨q, hq, hhold⟩
  | permitRevoked number =>
    refine ⟨hs.engine.of_equal (fun _ => rfl) rfl, hs.waits, hs.holds.of_fewer fun n hold hat => ⟨?_, rfl⟩⟩
    obtain ⟨q, hq, hhold⟩ := hat
    exact ⟨q, (List.mem_filter.mp hq).1, hhold⟩
  | slotConfigured slot c hnone =>
    have hput : HoldsLaw (s.onTerminals (Table.put slot (newTerminal c s.calendar.zoneTime s.calendar.uptime))) := by
      refine hs.of_unquoted slot (fun q hq => ?_) (fun j hj => ?_) rfl rfl rfl
      · rw [quoteAt, hnone] at hq
        cases hq
      · exact congrArg (Option.map _) (Table.find?_put_ne hj.symm _ _)
    exact hput.moves (links := False) (steady := False) (.of_reacts (cover_reacts _ _))
  | slotRemoved slot x hx hquote =>
    have herased : HoldsLaw (s.onTerminals (Table.erase slot)) := by
      refine hs.of_unquoted slot (fun q hq => ?_) (fun j hj => ?_) rfl rfl rfl
      · rw [quoteAt_some hx, hquote] at hq
        exact (Option.some.inj hq).symm
      · exact congrArg (Option.map _) (Table.find?_erase_ne hj.symm _)
    exact herased.moves (links := False) (steady := False) (.of_reacts (cover_reacts _ _))
  | walkCompleted w hw =>
    have hhanded := hs.engine.walkHanded hw
    exact ⟨hhanded.beginWalk, beginWalk_waits _, (hs.holds.walkHanded hs.engine hw).beginWalk hhanded⟩
  | coldStarted straps keep =>
    exact ⟨.idle rfl, fun _ _ => rfl, fun _ _ ⟨_, hp, _⟩ => by cases hp⟩
  | started straps h => exact (startValues_holdsLaw straps s).moves h
  | powerFailed cellBelow duringStart =>
    exact ⟨⟨hs.engine.once, hs.engine.queued, fun w hw => by cases hw⟩, fun hrunning => (by cases hrunning), hs.holds⟩
  | sent h ht => exact (hs.moves h).moves (ht.moves (steady := False))
  | quoted slot ask permit plate h hwf hx _ ht => exact ((hs.moves h).acceptQuote hwf hx ask permit plate).moves (ht.moves (steady := False))

theorem holdsLaw_kept : Kept fun s => TablesOrdered s ∧ HoldsLaw s := by
  refine kept_of_moves (links := False) ?_ (fun s p hs => ⟨hs.engine.of_equal (fun _ => rfl) rfl, hs.waits, hs.holds⟩)
    (fun _ hl => hl.elim) (fun s t hs h => hs.moves h) fun s t _ hs h => h.holdsLaw hs
  rintro s t ⟨_, _, _, rfl⟩ hs
  exact ⟨hs.engine.of_equal (fun _ => rfl) rfl, hs.waits, hs.holds⟩

/-- Settles O9: a quote that ends takes its entry, its walk or its hold with it, one that is accepted places its entry in that of the one
before, and a walk that is completed leaves its slot refused or OPEN with the hold of its quote. -/
theorem holdsStayOwned : Obligations.HoldsStayOwned := by
  rintro s t ⟨htables, hengine, hholds⟩ hstep
  obtain ⟨hheld, hwaits⟩ := (engineSound_iff s).mp hengine
  have hlaw : HoldsLaw s := ⟨hheld, hwaits, .of_law (by exact htables.1) hholds⟩
  obtain ⟨htables', hheld', hwaits', hholds'⟩ := holdsLaw_kept s t ⟨htables, hlaw⟩ hstep
  exact ⟨htables', (engineSound_iff t).mpr ⟨hheld', hwaits'⟩, hholds'.law⟩

end Sys2Proof.Machine
end

section
/-!
PROOFS. Link fields and notice queues stay sound (O11).
-/

namespace Sys2Proof.Machine

open Sys2Proof

/-- Every slot's link fields and notice queue are sound, by lookups. -/
def SlotsSound (s : State) : Prop := ∀ k x, terminal s k = some x → SlotSound x

theorem SlotsSound.of_terminals {s t : State} (h : SlotsSound s) (ht : t.terminals = s.terminals) : SlotsSound t := by
  intro k x hx
  rw [terminal, ht] at hx
  exact h k x hx

theorem SlotsSound.onTerminal {s : State} (h : SlotsSound s) {k : Nat} {f : Terminal → Terminal}
    (hf : ∀ x, terminal s k = some x → SlotSound x → SlotSound (f x)) : SlotsSound (onTerminal k f s) := by
  intro j x hx
  rw [terminal_onTerminal] at hx
  split at hx
  · next heq =>
    subst heq
    obtain ⟨y, hy, rfl⟩ := Option.map_eq_some_iff.mp hx
    exact hf y hy (h k y hy)
  · exact h j x hx

theorem SlotsSound.mapAll {s : State} (h : SlotsSound s) {f : Terminal → Terminal} (hf : ∀ x, SlotSound x → SlotSound (f x)) :
    SlotsSound (s.onTerminals (Table.mapAll f)) := by
  intro j x hx
  rw [terminal_mapAll] at hx
  obtain ⟨y, hy, rfl⟩ := Option.map_eq_some_iff.mp hx
  exact hf y (h j y hy)

theorem SlotsSound.reacts {u t : State} (h : SlotsSound u) (hr : Reacts u t) : SlotsSound t := by
  intro k y hy
  rcases hr.slot_cases k with ⟨-, hnone⟩ | ⟨x, z, hx, hz, hxz⟩
  · rw [hnone] at hy
    cases hy
  · obtain rfl := Option.some.inj (hz.symm.trans hy)
    exact (h k x hx).served hxz

theorem Moves.slotsSound {steady : Prop} {s t : State} (h : Moves True steady s t) (hs : SlotsSound s) : SlotsSound t := by
  induction h with
  | refl => exact hs
  | reacts _ hr ih => exact ih.reacts hr
  | beside _ hk _ ih => exact ih.of_terminals (hk .terminals (by decide))
  | @owed u v _ hk ih =>
    have hv : SlotsSound v := ih.of_terminals (hk .terminals (by decide))
    split
    · exact hv.of_terminals (withOwed_keeps v .terminals (by decide))
    · exact hv
  | slot k f _ hf ih => exact ih.onTerminal fun x hx => (hf x hx).sound trivial
  | slots f _ hf ih => exact ih.mapAll fun x => (hf x).sound trivial
  | permits _ _ _ ih => exact ih
  | walk _ _ _ ih => exact ih
  | line _ _ _ ih => exact ih
  | @ended u x k f _ hx hf ih =>
    have hdropped : SlotsSound (quoteDropped k x.quote u) := ih.of_terminals (quoteDropped_keeps k x.quote u .terminals (by decide))
    refine hdropped.onTerminal fun y hy => ?_
    rw [terminal_quoteDropped] at hy
    obtain rfl := Option.some.inj (hx.symm.trans hy)
    exact hf.sound trivial
  | @sold u x k q f _ hx _ hf ih =>
    have hconsumed : SlotsSound (u.onPermits (consumed k q)) := ih
    refine hconsumed.onTerminal fun y hy => ?_
    obtain rfl := Option.some.inj (hx.symm.trans hy)
    exact hf.sound trivial

/-! ### The open window -/

/-- The slot has no quote. -/
def Unquoted (k : Nat) (s : State) : Prop := ∀ q, quoteAt k s = some q → q = .none

theorem unquoted_iff (k : Nat) (s : State) : Unquoted k s ↔ ∀ x ∈ terminal s k, x.quote = .none := by
  constructor
  · exact fun h x hx => h _ (quoteAt_some hx)
  · intro h q hq
    obtain ⟨x, hx, rfl⟩ := Option.map_eq_some_iff.mp hq
    exact h x hx

theorem Unquoted.of_same {s t : State} {k : Nat} (h : Unquoted k s) (hsame : quoteAt k t = quoteAt k s) : Unquoted k t := by
  intro q hq
  exact h q (hsame ▸ hq)

/-- The line stands, and no slot without a quote gains one. -/
theorem WindowSound.of_line {s t : State} (h : WindowSound s) (hline : t.line.mode = s.line.mode)
    (hquote : ∀ k, Unquoted k s → Unquoted k t) : WindowSound t := by
  intro slot kind calledAs hmode
  exact (unquoted_iff slot t).mp (hquote slot ((unquoted_iff slot s).mpr (h slot kind calledAs (hline ▸ hmode))))

theorem WindowSound.of_same {s t : State} (h : WindowSound s) (hline : t.line = s.line) (hquote : ∀ k, quoteAt k t = quoteAt k s) :
    WindowSound t := h.of_line (by rw [hline]) fun k hk => hk.of_same (hquote k)

theorem Unquoted.ended {u : State} {k j : Nat} {f : Terminal → Terminal} {s : State} (h : Unquoted j u)
    (hsame : quoteAt j s = quoteAt j u) (hf : ∀ x, terminal s k = some x → (f x).quote = .none) : Unquoted j (onTerminal k f s) := by
  by_cases hj : j = k
  · subst hj
    intro q hq
    rw [quoteAt_onTerminal, if_pos rfl] at hq
    obtain ⟨x, hx, rfl⟩ := Option.map_eq_some_iff.mp hq
    exact hf x hx
  · exact h.of_same ((quoteAt_onTerminal_ne hj f s).trans hsame)

theorem Moves.windowSound {steady : Prop} {s t : State} (h : Moves True steady s t) (hs : WindowSound s) : WindowSound t := by
  induction h with
  | refl => exact hs
  | reacts _ hr ih => exact ih.of_same (hr.keeps .line (by decide)) hr.quoteAt
  | beside _ hk _ ih => exact ih.of_same (hk .line (by decide)) (quoteAt_congr (hk .terminals (by decide)))
  | @owed u v _ hk ih =>
    have hv : WindowSound v := ih.of_same (hk .line (by decide)) (quoteAt_congr (hk .terminals (by decide)))
    split
    · exact hv.of_same (withOwed_keeps v .line (by decide)) (quoteAt_congr (withOwed_keeps v .terminals (by decide)))
    · exact hv
  | slot k f _ hf ih => exact ih.of_same rfl (quoteAt_onTerminal_same fun x hx => (hf x hx).quote)
  | slots f _ hf ih => exact ih.of_same rfl (quoteAt_mapAll (fun x => (hf x).quote) _)
  | permits _ _ _ ih => exact ih
  | walk _ _ _ ih => exact ih
  | line f _ hf ih =>
    rcases hf trivial with hmode | hmode
    · exact ih.of_line hmode fun k hk => hk
    · exact fun slot kind calledAs h => absurd h (hmode slot kind calledAs _)
  | @ended u x k f _ hx hf ih =>
    refine ih.of_line (congrArg Line.mode (quoteDropped_keeps k x.quote u .line (by decide))) fun j hj =>
      hj.ended (quoteAt_dropped k x.quote u j) fun y hy => ?_
    rw [terminal_quoteDropped] at hy
    obtain rfl := Option.some.inj (hx.symm.trans hy)
    exact hf.quote
  | @sold u x k q f _ hx _ hf ih =>
    refine ih.of_line rfl fun j hj => hj.ended (s := u.onPermits (consumed k q)) rfl fun y hy => ?_
    obtain rfl := Option.some.inj (hx.symm.trans hy)
    exact hf.quote

/-! ### A call -/

/-- The notice that rides on a call is the head of a sound queue, so with SLEEP its slot has no quote. -/
theorem head_sleep {x : Terminal} (h : SlotSound x) (hhead : x.link.queue.head?.map (·.body) = some .sleep) : x.quote = .none := by
  obtain ⟨-, -, hsleep, -⟩ := (queueSound_iff _ _).mp h.2.1
  obtain ⟨n, hn, hbody⟩ := Option.map_eq_some_iff.mp hhead
  exact (hsleep (tally_ne_zero_of_mem (List.mem_of_head? hn) (by rw [hbody]; rfl))).2

theorem Sends.sound {u t : State} (h : Sends u t) (hu : SlotsSound u) : SlotsSound t ∧ WindowSound t := by
  cases h with
  | rests f hf => exact ⟨hu, fun slot kind calledAs h => absurd h (hf slot kind calledAs _)⟩
  | @calls x slot kind f hx hf =>
    refine ⟨SlotsSound.onTerminal (s := u.onLine f) hu fun y _ hy => hy.marked, fun slot' kind' calledAs hmode => ?_⟩
    obtain ⟨rfl, -, -, hhead⟩ := LineMode.window.inj (hf.symm.trans hmode)
    have hnone : Unquoted slot u := (unquoted_iff slot u).mpr fun y hy => by
      obtain rfl := Option.some.inj (hx.symm.trans hy)
      exact head_sleep (hu slot x hx) hhead
    refine (unquoted_iff slot _).mp (hnone.of_same ?_)
    exact (quoteAt_onTerminal_same (s := u.onLine f) (by intro _ _; rfl) slot).trans rfl

/-! ### Quotes that arise -/

/-- A slot with a quote has it replaced. -/
theorem SlotSound.requoted {x : Terminal} (h : SlotSound x) (hquote : x.quote ≠ .none) (q : QuoteSlot) :
    SlotSound { x with quote := q } := by
  obtain ⟨hlink, hqueue, hactive⟩ := h
  obtain ⟨hnumbers, henrolled, hsleep, hwake⟩ := (queueSound_iff _ _).mp hqueue
  exact ⟨hlink, (queueSound_iff _ _).mpr ⟨hnumbers, henrolled, fun hne => absurd (hsleep hne).2 hquote, hwake⟩, fun _ => hactive hquote⟩

theorem SlotSound.toldResult {x : Terminal} (h : SlotSound x) (hstate : x.link.state = .active ∨ x.link.state = .sleeping)
    {body : NoticeBody} (hbody : body.sort = .result) : SlotSound (x.told NoticeBody.isResult body) := by
  rw [Terminal.told, ← joinQueue_eq]
  exact (told_tame (links := True) (steady := False) isResult_eq hbody (.inl rfl) hstate).sound trivial h

/-- The slots whose quotes are waiting or walked for are ACTIVE and have one. -/
theorem quoted_active {s : State} (h : SlotsSound s) {k : Nat} {q : QuoteSlot} (hq : quoteAt k s = some q) (hne : q ≠ .none) {x : Terminal}
    (hx : terminal s k = some x) : x.quote ≠ .none ∧ x.link.state = .active := by
  rw [quoteAt_some hx] at hq
  have hquote : x.quote ≠ .none := by rwa [Option.some.inj hq]
  exact ⟨hquote, (h k x hx).2.2 hquote⟩

theorem SlotsSound.beginWalk {s : State} (he : EngineHeld s) (h : SlotsSound s) : SlotsSound (beginWalk s) := by
  unfold Machine.beginWalk
  split
  · next e rest _ hqueue =>
    have hengine (g : Engine → Engine) : SlotsSound (s.onEngine g) := h
    refine (hengine _).onTerminal fun x hx hs => hs.requoted ?_ _
    exact (quoted_active h (quoteAt_queued he hqueue) (by simp) hx).1
  · exact h

theorem beginWalk_unquoted {s : State} (he : EngineHeld s) {k : Nat} (h : Unquoted k s) : Unquoted k (beginWalk s) := by
  unfold beginWalk
  split
  · next e rest _ hqueue =>
    refine h.of_same (quoteAt_onTerminal_ne ?_ _ _)
    rintro rfl
    cases h _ (quoteAt_queued he hqueue)
  · exact h

theorem quoting_sound {x : Terminal} (h : SlotSound x) (hactive : x.link.state = .active) (id : Nat) (q : QuoteSlot) :
    SlotSound (x.quoting id q) := by
  obtain ⟨hlink, hqueue, -⟩ := h.filtered fun n => !n.body.isResult && !n.body.isSleep
  obtain ⟨hnumbers, henrolled, -, hwake⟩ := (queueSound_iff _ _).mp hqueue
  refine ⟨hlink, (queueSound_iff _ _).mpr ⟨hnumbers, henrolled, fun hne => absurd ?_ hne, hwake⟩, fun _ => hactive⟩
  rw [tally_eq_zero]
  intro n hn hsort
  have hkept := (List.mem_filter.mp hn).2
  rw [isSleep_eq] at hkept
  simp [NoticeSort.is, hsort] at hkept

theorem SlotsSound.quotePlaced {slot : Nat} {t : Terminal} (e : QueueEntry) {s : State} (h : SlotsSound s) (ht : terminal s slot = some t)
    (hactive : t.link.state = .active) : SlotsSound (quotePlaced slot t e s) := by
  have hquoting : SlotsSound (Machine.onTerminal slot (Terminal.quoting t.nextQuoteId (.queued t.nextQuoteId)) s) := by
    refine h.onTerminal fun x hx hs => quoting_sound hs ?_ _ _
    obtain rfl := Option.some.inj (ht.symm.trans hx)
    exact hactive
  exact hquoting.of_terminals rfl

theorem SlotsSound.keepResult {e : QueueEntry} (group : Nat) (r : WalkResult) {s : State} (h : SlotsSound s)
    (hwalking : quoteAt e.slot s = some (.walking e.quoteId)) : SlotsSound (keepResult e group r s) := by
  have hactive (x : Terminal) (hx : terminal s e.slot = some x) := quoted_active h hwalking (by simp) hx
  rw [keepResult_eq]
  cases resultRefusal e group r s with
  | some c =>
    refine SlotsSound.reacts (h.onTerminal fun x hx hs => ?_) (refuseResult_reacts e.slot e.quoteId c.2 c.1 s)
    exact (hs.unquoted.toldResult (.inl (hactive x hx).2) rfl).considered _
  | none =>
    show SlotsSound (openQuote e r s)
    have hplaced (u : State) (hu : u.terminals = s.terminals) (body : NoticeBody) (hbody : body.sort = .result) :
        SlotsSound (queueResult e.slot body (setQuote e.slot (.opened (quoteOf e r s.calendar.uptime)) u)) := by
      rw [queueResult_eq, setQuote, onTerminal_onTerminal]
      refine (h.of_terminals hu).onTerminal fun x hx hs => ?_
      rw [terminal, hu] at hx
      exact (hs.requoted (hactive x hx).1 (.opened (quoteOf e r s.calendar.uptime))).toldResult (.inl (hactive x hx).2) hbody
    unfold openQuote
    cases e.permit with
    | none => exact hplaced s rfl _ rfl
    | some p =>
      dsimp only
      split
      · exact hplaced _ rfl _ rfl
      · exact hplaced s rfl _ rfl

theorem SlotsSound.walkHanded {w : Walk} {s : State} (he : EngineHeld s) (hw : s.engine.walk = some w) (h : SlotsSound s) :
    SlotsSound (walkHanded w s) := by
  unfold Machine.walkHanded
  split
  · exact h
  · next hkept =>
    split
    · exact h
    · exact h.keepResult _ _ (he.walking w hw (by simpa using hkept))

theorem walkHanded_unquoted {w : Walk} {s : State} (he : EngineHeld s) (hw : s.engine.walk = some w) {k : Nat} (h : Unquoted k s) :
    Unquoted k (walkHanded w s) := by
  unfold walkHanded
  split
  · exact h
  · next hkept =>
    split
    · exact h
    · next x hx =>
      have hwalking := he.walking w hw (by simpa using hkept)
      refine h.of_same ((quoteAt_keepResult x.config.group _ hx k).trans (if_pos ?_))
      rintro rfl
      cases h _ hwalking

theorem walkHanded_line (w : Walk) (s : State) : (walkHanded w s).line = s.line := by
  unfold walkHanded
  split
  · rfl
  · split
    · rfl
    · next x _ =>
      show (keepResult w.entry x.config.group _ s).line = s.line
      rw [keepResult_eq]
      cases resultRefusal w.entry x.config.group _ s with
      | some c => exact (refuseResult_reacts _ _ c.2 c.1 s).keeps .line (by decide)
      | none =>
        show (openQuote w.entry _ s).line = s.line
        unfold openQuote
        cases w.entry.permit with
        | none => rfl
        | some p => dsimp only; split <;> rfl

/-! ### The laws of the links -/

/-- Engine, slots and the open window, by lookups. -/
structure LinksLaw (s : State) : Prop where
  engine : EngineHeld s
  waits : Waits s
  slots : SlotsSound s
  window : WindowSound s

theorem LinksLaw.moves {steady : Prop} {s t : State} (hs : LinksLaw s) (h : Moves True steady s t) : LinksLaw t :=
  ⟨h.engineHeld hs.engine, h.waits hs.waits, h.slotsSound hs.slots, h.windowSound hs.window⟩

/-- The line goes on: the engine stands, and a window that opens is sound. -/
theorem LinksLaw.sends {u t : State} (he : EngineHeld u) (hw : Waits u) (hs : SlotsSound u) (h : Sends u t) : LinksLaw t :=
  ⟨(h.moves (steady := False)).engineHeld he, (h.moves (steady := False)).waits hw, (h.sound hs).1, (h.sound hs).2⟩

theorem restarted_sound (x : Terminal) : SlotSound x.restarted :=
  SlotSound.emptied (x := x.restarted) ⟨fun h => (by cases h), by simp [Terminal.restarted], fun _ => ⟨rfl, rfl⟩, Nat.zero_lt_succ 2⟩ rfl

theorem newTerminal_sound (c : TerminalConfig) (zoneTime uptime : Nat) : SlotSound (newTerminal c zoneTime uptime) :=
  SlotSound.emptied (x := newTerminal c zoneTime uptime)
    ⟨fun h => (by cases h), by simp [newTerminal], fun _ => ⟨rfl, rfl⟩, Nat.zero_lt_succ 2⟩ rfl

theorem startValues_linksLaw (straps : Straps) (s : State) : LinksLaw (startValues straps s) := by
  obtain ⟨hengine, hwaits, -⟩ := startValues_holdsLaw straps s
  have hterminal (k : Nat) : terminal (startValues straps s) k = (terminal s k).map Terminal.restarted :=
    terminal_mapAll Terminal.restarted s k
  refine ⟨hengine, hwaits, fun k x hx => ?_, fun slot kind calledAs _ x hx => ?_⟩
  · rw [hterminal] at hx
    obtain ⟨y, -, rfl⟩ := Option.map_eq_some_iff.mp hx
    exact restarted_sound y
  · rw [hterminal] at hx
    obtain ⟨y, -, rfl⟩ := Option.map_eq_some_iff.mp hx
    rfl

/-- A slot without a quote is configured anew or removed. -/
theorem LinksLaw.of_unquoted {s t : State} (hs : LinksLaw s) (k : Nat) (hk : Unquoted k s) (hnew : Unquoted k t)
    (hsound : ∀ x, terminal t k = some x → SlotSound x) (hothers : ∀ j, j ≠ k → terminal t j = terminal s j)
    (hengine : t.engine = s.engine) (hsupply : t.supply = s.supply) (hline : t.line = s.line) : LinksLaw t := by
  have hquote (j : Nat) (hj : j ≠ k) : quoteAt j t = quoteAt j s := by rw [quoteAt, hothers j hj, quoteAt]
  have hgone := hs.engine.no_entry (k := k) fun id h => by cases hk _ h
  refine ⟨hs.engine.of_others k hquote (hengine ▸ List.Sublist.refl _) (hengine ▸ hgone) fun w hw hd => ?_,
    hs.waits.of_same hsupply hengine, fun j x hx => ?_, hs.window.of_line (by rw [hline]) fun j hj => ?_⟩
  · rw [hengine] at hw
    exact ⟨hs.engine.no_walk (k := k) (fun id h => by cases hk _ h) w hw hd, w, hw, hd, rfl⟩
  · by_cases hj : j = k
    · subst hj
      exact hsound x hx
    · rw [hothers j hj] at hx
      exact hs.slots j x hx
  · by_cases hjk : j = k
    · subst hjk
      exact hnew
    · exact hj.of_same (hquote j hjk)

theorem Leaps.linksLaw {s t : State} (hs : LinksLaw s) (h : Leaps True s t) : LinksLaw t := by
  cases h with
  | permitPut number p => exact ⟨hs.engine.of_equal (fun _ => rfl) rfl, hs.waits, hs.slots, hs.window⟩
  | permitRevoked number => exact ⟨hs.engine.of_equal (fun _ => rfl) rfl, hs.waits, hs.slots, hs.window⟩
  | slotConfigured slot c hnone =>
    have hput : LinksLaw (s.onTerminals (Table.put slot (newTerminal c s.calendar.zoneTime s.calendar.uptime))) := by
      have hself : terminal (s.onTerminals (Table.put slot (newTerminal c s.calendar.zoneTime s.calendar.uptime))) slot
          = some (newTerminal c s.calendar.zoneTime s.calendar.uptime) := Table.find?_put_self _ _ _
      refine hs.of_unquoted slot (fun q hq => ?_) (fun q hq => ?_) (fun x hx => ?_)
        (fun j hj => Table.find?_put_ne hj.symm _ _) rfl rfl rfl
      · rw [quoteAt, hnone] at hq
        cases hq
      · rw [quoteAt_some hself] at hq
        exact (Option.some.inj hq).symm
      · obtain rfl := Option.some.inj (hself.symm.trans hx)
        exact newTerminal_sound _ _ _
    exact hput.moves (steady := False) (.of_reacts (cover_reacts _ _))
  | slotRemoved slot x hx hquote =>
    have herased : LinksLaw (s.onTerminals (Table.erase slot)) := by
      have hself : terminal (s.onTerminals (Table.erase slot)) slot = none := Table.find?_erase_self _ _
      refine hs.of_unquoted slot (fun q hq => ?_) (fun q hq => ?_) (fun y hy => ?_)
        (fun j hj => Table.find?_erase_ne hj.symm _) rfl rfl rfl
      · rw [quoteAt_some hx, hquote] at hq
        exact (Option.some.inj hq).symm
      · rw [quoteAt, hself] at hq
        cases hq
      · rw [hself] at hy
        cases hy
    exact herased.moves (steady := False) (.of_reacts (cover_reacts _ _))
  | walkCompleted w hw =>
    have hhanded := hs.engine.walkHanded hw
    rw [completeWalk_eq]
    refine ⟨hhanded.beginWalk, beginWalk_waits _, (hs.slots.walkHanded hs.engine hw).beginWalk hhanded,
      hs.window.of_line ?_ fun k hk => beginWalk_unquoted hhanded (walkHanded_unquoted hs.engine hw hk)⟩
    rw [beginWalk_keeps _ .line (by decide), walkHanded_line]
  | coldStarted straps keep =>
    exact ⟨.idle rfl, fun _ _ => rfl, fun k x hx => (by cases hx), fun slot kind calledAs hmode => (by cases hmode)⟩
  | started straps h => exact (startValues_linksLaw straps s).moves h
  | powerFailed cellBelow duringStart =>
    exact ⟨⟨hs.engine.once, hs.engine.queued, fun w hw => by cases hw⟩, fun hrunning => (by cases hrunning), hs.slots,
      fun slot kind calledAs hmode => (by cases hmode)⟩
  | sent h ht => exact .sends (h.engineHeld hs.engine) (h.waits hs.waits) (h.slotsSound hs.slots) ht
  | @quoted u _ x slot ask permit plate h hwf hx hactive ht =>
    rw [acceptQuote_eq hwf hx] at ht
    have hplaced := (h.engineHeld hs.engine).quotePlaced (e := entryOf slot x ask permit plate u) hx rfl rfl
    exact .sends hplaced.beginWalk (beginWalk_waits _) (((h.slotsSound hs.slots).quotePlaced _ hx hactive).beginWalk hplaced) ht

theorem linksLaw_kept : Kept fun s => TablesOrdered s ∧ LinksLaw s := by
  refine kept_of_moves (links := True) ?_
    (fun s p hs => ⟨hs.engine.of_equal (fun _ => rfl) rfl, hs.waits, hs.slots, hs.window⟩)
    (fun s _ hs => hs.window) (fun s t hs h => hs.moves h) fun s t _ hs h => h.linksLaw hs
  rintro s t ⟨_, _, _, rfl⟩ hs
  exact ⟨hs.engine.of_equal (fun _ => rfl) rfl, hs.waits, hs.slots, hs.window⟩

/-- Settles O11: every change of a link or a queue keeps its slot sound, a quote arises in an ACTIVE slot that has one QUEUED or WALKING,
or takes one and loses its SLEEP, and a call that carries SLEEP goes to a slot with no quote. -/
theorem linksStaySound : Obligations.LinksStaySound := by
  rintro s t ⟨htables, hengine, hslots, hwindow⟩ hstep
  obtain ⟨hheld, hwaits⟩ := (engineSound_iff s).mp hengine
  have hlaw : LinksLaw s := ⟨hheld, hwaits, fun k x hx => hslots (k, x) (Table.mem_of_find? hx), hwindow⟩
  obtain ⟨htables', hheld', hwaits', hslots', hwindow'⟩ := linksLaw_kept s t ⟨htables, hlaw⟩ hstep
  refine ⟨htables', (engineSound_iff t).mpr ⟨hheld', hwaits'⟩, fun e he => hslots' e.1 e.2 ?_, hwindow'⟩
  exact Table.find?_of_mem (by exact htables'.1) he

end Sys2Proof.Machine
end

section
/-!
PROOFS. Service states and covers as they are held and as they are derived: what holding one afresh does, and that deriving everything
afresh leaves nothing stale.
-/

namespace Sys2Proof.Machine

open Sys2Proof

/-! ### What a cover depends on -/

/-- What the cover of a group sees of a slot: nothing of one that is no member, and of a member whether its segment is CHARGED and whether
it serves. -/
def viewOf (g : Nat) (x : Option Terminal) : Option (Bool × Bool) :=
  (x.filter fun y => y.config.group = g).map fun y =>
    (decide (y.segment.map (·.kind) = some .charged), decide (y.watch.service ≠ .outOfService))

theorem viewOf_member {g : Nat} {x : Terminal} (h : x.config.group = g) :
    viewOf g (some x) = some (decide (x.segment.map (·.kind) = some .charged), decide (x.watch.service ≠ .outOfService)) := by
  simp [viewOf, h]

theorem viewOf_other {g : Nat} {x : Terminal} (h : x.config.group ≠ g) : viewOf g (some x) = none := by
  simp [viewOf, h]

/-- Some member is seen with what `p` asks for. -/
theorem any_members {s : State} (hwf : Table.wf s.terminals = true) (g : Nat) (p : Bool × Bool → Bool) :
    ((members g s).any fun e => p (decide (e.2.segment.map (·.kind) = some .charged), decide (e.2.watch.service ≠ .outOfService))) = true
      ↔ ∃ k v, viewOf g (terminal s k) = some v ∧ p v = true := by
  rw [List.any_eq_true]
  constructor
  · rintro ⟨e, he, hp⟩
    obtain ⟨hmem, hgroup⟩ := List.mem_filter.mp he
    have hfind : terminal s e.1 = some e.2 := Table.find?_of_mem hwf hmem
    refine ⟨e.1, _, ?_, hp⟩
    rw [hfind]
    exact viewOf_member (by simpa using hgroup)
  · rintro ⟨k, v, hv, hp⟩
    cases hx : terminal s k with
    | none =>
      rw [hx] at hv
      cases hv
    | some x =>
      rw [hx] at hv
      by_cases hgroup : x.config.group = g
      · rw [viewOf_member hgroup] at hv
        obtain rfl := Option.some.inj hv
        exact ⟨(k, x), List.mem_filter.mpr ⟨Table.mem_of_find? hx, by simpa using hgroup⟩, hp⟩
      · rw [viewOf_other hgroup] at hv
        cases hv

theorem coverOf_congr {s t : State} (hs : Table.wf s.terminals = true) (ht : Table.wf t.terminals = true) {g : Nat}
    (hclock : t.calendar.clockSet = s.calendar.clockSet) (hview : ∀ k, viewOf g (terminal t k) = viewOf g (terminal s k)) :
    coverOf g t = coverOf g s := by
  have hany (p : Bool × Bool → Bool) :
      ((members g t).any fun e => p (decide (e.2.segment.map (·.kind) = some .charged), decide (e.2.watch.service ≠ .outOfService)))
        = (members g s).any fun e =>
          p (decide (e.2.segment.map (·.kind) = some .charged), decide (e.2.watch.service ≠ .outOfService)) := by
    rw [Bool.eq_iff_iff, any_members ht, any_members hs]
    exact exists_congr fun k => exists_congr fun v => by rw [hview k]
  have hempty : (members g t).isEmpty = (members g s).isEmpty := by
    have h := hany fun _ => true
    cases htm : members g t <;> cases hsm : members g s <;> simp_all
  have hcharged := hany fun v => v.1
  have hserving := hany fun v => v.2
  unfold coverOf
  dsimp only at hcharged hserving ⊢
  rw [hempty, hclock, hcharged, hserving]

theorem serviceOf_congr {s t : State} (hhalted : salesHalted t = salesHalted s) (hclock : t.calendar.clockSet = s.calendar.clockSet)
    (x : Terminal) : serviceOf t x = serviceOf s x := by
  rw [serviceOf, hhalted, hclock, serviceOf]

/-! ### What is held as derived -/

/-- Every held service state but those of `K`, and every held cover but those of `G`, is the derived one. -/
structure Held (K G : Nat → Prop) (s : State) : Prop where
  slots : Table.wf s.terminals = true
  keys : Table.keys s.groups = groupNumbers
  services : ∀ k x, terminal s k = some x → ¬K k → x.watch.service = serviceOf s x
  covers : ∀ g r, Table.find? g s.groups = some r → ¬G g → r.cover = coverOf g s

/-- At most the service states of `K` are stale. -/
abbrev Stale (K : Nat → Prop) (s : State) : Prop := Held K (fun _ => False) s

/-- Nothing is stale. -/
abbrev Derived (s : State) : Prop := Stale (fun _ => False) s

theorem Held.mono {K K' G G' : Nat → Prop} {s : State} (h : Held K G s) (hK : ∀ k, K k → K' k) (hG : ∀ g, G g → G' g) :
    Held K' G' s :=
  ⟨h.slots, h.keys, fun k x hx hk => h.services k x hx fun h => hk (hK k h), fun g r hr hg => h.covers g r hr fun h => hg (hG g h)⟩

theorem Derived.stale {s : State} (h : Derived s) (K : Nat → Prop) : Stale K s := h.mono (fun _ => False.elim) fun _ => False.elim

/-- Whatever is held, the tables are in order. -/
theorem Held.any {K G : Nat → Prop} {s : State} (h : Held K G s) : Held (fun _ => True) (fun _ => True) s :=
  h.mono (fun _ _ => trivial) fun _ _ => trivial

theorem Held.of_tables {s : State} (hslots : Table.wf s.terminals = true) (hkeys : Table.keys s.groups = groupNumbers) :
    Held (fun _ => True) (fun _ => True) s := ⟨hslots, hkeys, fun _ _ _ h => (h trivial).elim, fun _ _ _ h => (h trivial).elim⟩

/-! ### What leaves it as it was -/

/-- Two records of a slot hold the same service state, derive the same, and look the same to their group's cover. -/
structure Alike (x y : Terminal) : Prop where
  service : y.watch.service = x.watch.service
  derives : ∀ s, serviceOf s y = serviceOf s x
  segment : y.segment = x.segment
  group : y.config.group = x.config.group

theorem Alike.refl (x : Terminal) : Alike x x := ⟨rfl, fun _ => rfl, rfl, rfl⟩

theorem Alike.trans {x y z : Terminal} (h : Alike x y) (h' : Alike y z) : Alike x z :=
  ⟨h'.service.trans h.service, fun s => (h'.derives s).trans (h.derives s), h'.segment.trans h.segment, h'.group.trans h.group⟩

theorem Alike.view {x y : Terminal} (h : Alike x y) (g : Nat) : viewOf g (some y) = viewOf g (some x) := by
  by_cases hg : x.config.group = g
  · rw [viewOf_member hg, viewOf_member (h.group.trans hg), h.segment, h.service]
  · rw [viewOf_other hg, viewOf_other (by rw [h.group]; exact hg)]

/-- Slots and covers are as they were to what derives them, whatever became of the journal. -/
structure Still (s t : State) : Prop where
  keys : Table.keys t.terminals = Table.keys s.terminals
  slots : ∀ k y, terminal t k = some y → ∃ x, terminal s k = some x ∧ Alike x y
  numbers : Table.keys t.groups = Table.keys s.groups
  covers : ∀ g r, Table.find? g t.groups = some r → ∃ q, Table.find? g s.groups = some q ∧ r.cover = q.cover
  clock : t.calendar.clockSet = s.calendar.clockSet

/-- Nor has a halt of sales begun or ended. -/
structure Calm (s t : State) : Prop extends Still s t where
  halted : salesHalted t = salesHalted s

theorem Still.wf {s t : State} (h : Still s t) (hs : Table.wf s.terminals = true) : Table.wf t.terminals = true :=
  (Table.wf_congr h.keys).trans hs

theorem terminal_none_of_keys {s t : State} (h : Table.keys t.terminals = Table.keys s.terminals) {k : Nat}
    (hk : terminal t k = none) : terminal s k = none := by
  cases hx : terminal s k with
  | none => rfl
  | some x =>
    have hmem : k ∈ Table.keys t.terminals := by
      rw [h, Table.mem_keys_iff]
      exact Option.isSome_of_eq_some hx
    rw [Table.mem_keys_iff, show Table.find? k t.terminals = none from hk] at hmem
    cases hmem

theorem Still.view {s t : State} (h : Still s t) (g k : Nat) : viewOf g (terminal t k) = viewOf g (terminal s k) := by
  cases hy : terminal t k with
  | none => rw [terminal_none_of_keys h.keys hy]
  | some y =>
    obtain ⟨x, hx, hxy⟩ := h.slots k y hy
    rw [hx]
    exact hxy.view g

theorem Still.refl (s : State) : Still s s := ⟨rfl, fun _ y hy => ⟨y, hy, .refl y⟩, rfl, fun _ r hr => ⟨r, hr, rfl⟩, rfl⟩

theorem Still.trans {s t u : State} (h : Still s t) (h' : Still t u) : Still s u where
  keys := h'.keys.trans h.keys
  slots k z hz := by
    obtain ⟨y, hy, hyz⟩ := h'.slots k z hz
    obtain ⟨x, hx, hxy⟩ := h.slots k y hy
    exact ⟨x, hx, hxy.trans hyz⟩
  numbers := h'.numbers.trans h.numbers
  covers g r hr := by
    obtain ⟨q, hq, hrq⟩ := h'.covers g r hr
    obtain ⟨p, hp, hqp⟩ := h.covers g q hq
    exact ⟨p, hp, hrq.trans hqp⟩
  clock := h'.clock.trans h.clock

theorem Calm.refl (s : State) : Calm s s := ⟨.refl s, rfl⟩

theorem Calm.trans {s t u : State} (h : Calm s t) (h' : Calm t u) : Calm s u := ⟨h.toStill.trans h'.toStill, h'.halted.trans h.halted⟩

theorem Calm.after {s t u : State} (h' : Calm t u) (h : Calm s t) : Calm s u := h.trans h'

theorem Held.calm {K G : Nat → Prop} {s t : State} (hs : Held K G s) (h : Calm s t) : Held K G t where
  slots := h.wf hs.slots
  keys := h.numbers.trans hs.keys
  services k y hy hk := by
    obtain ⟨x, hx, hxy⟩ := h.slots k y hy
    rw [hxy.service, serviceOf_congr h.halted h.clock, hxy.derives]
    exact hs.services k x hx hk
  covers g r hr hg := by
    obtain ⟨q, hq, hrq⟩ := h.covers g r hr
    rw [hrq, coverOf_congr hs.slots (h.wf hs.slots) h.clock (h.view g)]
    exact hs.covers g q hq hg

/-! ### One service state, one cover -/

theorem holdService_halted (slot : Nat) (s : State) : salesHalted (holdService slot s) = salesHalted s := by
  unfold holdService
  split
  · rfl
  · dsimp only
    split
    · rfl
    · split <;> rfl

/-- A held service state is the derived one, and no other changes. -/
theorem terminal_holdService (slot : Nat) (s : State) (k : Nat) :
    (k ≠ slot → terminal (holdService slot s) k = terminal s k)
      ∧ ∀ x, terminal s slot = some x →
        ∃ y, terminal (holdService slot s) slot = some y ∧ y.watch.service = serviceOf s x ∧ (∀ u, serviceOf u y = serviceOf u x)
          ∧ y.segment = x.segment ∧ y.config = x.config := by
  unfold holdService
  cases hx : terminal s slot with
  | none => exact ⟨fun _ => rfl, fun x h => by cases h⟩
  | some x =>
    dsimp only
    have hwatch := terminal_onTerminal_self (f := fun y : Terminal => { y with watch := { y.watch with service := serviceOf s x } }) hx
    split
    · next hsame =>
      refine ⟨fun _ => rfl, fun y hy => ?_⟩
      obtain rfl := Option.some.inj hy
      exact ⟨x, hx, hsame.symm, fun _ => rfl, rfl, rfl⟩
    · split
      · refine ⟨fun hk => ?_, fun y hy => ?_⟩
        · rw [queueService, onQueue, onLink, onWatch, terminal_onTerminal, if_neg hk.symm, terminal_onTerminal, if_neg hk.symm]
        · obtain rfl := Option.some.inj hy
          exact ⟨_, terminal_onTerminal_self hwatch, rfl, fun _ => rfl, rfl, rfl⟩
      · refine ⟨fun hk => ?_, fun y hy => ?_⟩
        · rw [onWatch, terminal_onTerminal, if_neg hk.symm]
        · obtain rfl := Option.some.inj hy
          exact ⟨_, hwatch, rfl, fun _ => rfl, rfl, rfl⟩

/-- A slot's service state is held as derived: that slot is stale no more, and its group's cover may be. -/
theorem Held.holdService {K G : Nat → Prop} {s : State} (h : Held K G s) (slot : Nat) :
    Held (fun k => K k ∧ k ≠ slot) (fun g => G g ∨ ∃ x, terminal s slot = some x ∧ x.config.group = g) (holdService slot s) := by
  have hderives := holdService_derives slot s
  have hwf : Table.wf (Machine.holdService slot s).terminals = true := hderives.framesN.wf h.slots
  have hclock : (Machine.holdService slot s).calendar.clockSet = s.calendar.clockSet := by rw [hderives.calendar]
  have hgroups : (Machine.holdService slot s).groups = s.groups := by
    unfold Machine.holdService
    split
    · rfl
    · dsimp only
      split
      · rfl
      · split <;> rfl
  refine ⟨hwf, hderives.groupKeys.trans h.keys, fun k y hy hk => ?_, fun g r hr hg => ?_⟩
  · rw [serviceOf_congr (holdService_halted slot s) hclock]
    by_cases hslot : k = slot
    · subst hslot
      cases hx : terminal s k with
      | none =>
        have hkeys := hderives.framesN.slots
        rw [terminal_none_of_keys (s := Machine.holdService k s) (t := s) hkeys.symm hx] at hy
        cases hy
      | some x =>
        obtain ⟨z, hz, hservice, hsame, -⟩ := (terminal_holdService k s k).2 x hx
        obtain rfl := Option.some.inj (hz.symm.trans hy)
        rw [hservice, hsame]
    · rw [(terminal_holdService slot s k).1 hslot] at hy
      exact h.services k y hy fun hK => hk ⟨hK, hslot⟩
  · rw [hgroups] at hr
    rw [coverOf_congr h.slots hwf hclock fun k => ?_]
    · exact h.covers g r hr fun hG => hg (.inl hG)
    · by_cases hslot : k = slot
      · subst hslot
        cases hx : terminal s k with
        | none => rw [terminal_none_of_keys (s := Machine.holdService k s) (t := s) hderives.framesN.slots.symm hx]
        | some x =>
          obtain ⟨z, hz, -, -, -, hconfig⟩ := (terminal_holdService k s k).2 x hx
          have hother : x.config.group ≠ g := fun hx' => hg (.inr ⟨x, hx, hx'⟩)
          rw [hz, viewOf_other hother, viewOf_other (by rw [hconfig]; exact hother)]
      · rw [(terminal_holdService slot s k).1 hslot]

/-- A group's cover is taken: the slots and the other covers stand, and no space becomes free. -/
theorem takeCover_spec (g : Nat) (s : State) :
    (takeCover g s).terminals = s.terminals ∧ (takeCover g s).calendar = s.calendar ∧ freeSpace (takeCover g s) ≤ freeSpace s
      ∧ (∀ j r, Table.find? j (takeCover g s).groups = some r →
        ∃ q, Table.find? j s.groups = some q ∧ r.cover = if j = g then coverOf g s else q.cover) := by
  unfold takeCover
  cases hr : Table.find? g s.groups with
  | none =>
    refine ⟨rfl, rfl, le_rfl, fun j r hj => ⟨r, hj, (if_neg ?_).symm⟩⟩
    rintro rfl
    rw [hr] at hj
    cases hj
  | some q =>
    dsimp only
    have hmodified (f : GroupRecord → GroupRecord) (hf : ∀ r, (f r).cover = coverOf g s) (j : Nat) (r : GroupRecord)
        (hj : Table.find? j (Table.modify g f s.groups) = some r) :
        ∃ q, Table.find? j s.groups = some q ∧ r.cover = if j = g then coverOf g s else q.cover := by
      rw [Table.find?_modify] at hj
      by_cases hjg : g = j
      · subst hjg
        rw [if_pos rfl] at hj
        obtain ⟨p, hp, rfl⟩ := Option.map_eq_some_iff.mp hj
        exact ⟨p, hp, (hf p).trans (if_pos rfl).symm⟩
      · rw [if_neg hjg] at hj
        exact ⟨r, hj, (if_neg fun h => hjg h.symm).symm⟩
    split
    · next hsame =>
      refine ⟨rfl, rfl, le_rfl, fun j r hj => ⟨r, hj, ?_⟩⟩
      split
      · next hjg =>
        subst hjg
        obtain rfl := Option.some.inj (hr.symm.trans hj)
        exact hsame.symm
      · rfl
    · split
      · refine ⟨rfl, rfl, le_rfl, fun j r hj =>
          hmodified (fun r => { r with cover := coverOf g s, since := s.calendar.zoneTime, mark := true }) (fun _ => rfl) j r ?_⟩
        rw [← hj]
        simp only [State.onGroups_groups, raise, State.onAttention_groups, modify_modify]
      · refine ⟨rfl, rfl, ?_, fun j r hj =>
          hmodified (fun r => { r with cover := coverOf g s, since := s.calendar.zoneTime }) (fun _ => rfl) j r hj⟩
        simp only [freeSpace, used, append, refresh, raise, State.onAttention_journal, State.onJournal_journal, State.onGroups_journal,
          List.length_append, List.length_singleton]
        omega

theorem halted_of_less {s t : State} (h : freeSpace t ≤ freeSpace s) (hs : salesHalted s = true) : salesHalted t = true := by
  simp only [salesHalted, decide_eq_true_eq] at hs ⊢
  omega

/-- A cover that is taken is stale no more, where the halt of sales stays as it is. -/
theorem Held.takeCover {K G : Nat → Prop} {s : State} (h : Held K G s) (g : Nat)
    (hhalted : salesHalted (takeCover g s) = salesHalted s) : Held K (fun j => G j ∧ j ≠ g) (takeCover g s) := by
  obtain ⟨hterminals, hcalendar, -, hcovers⟩ := takeCover_spec g s
  have hclock : (Machine.takeCover g s).calendar.clockSet = s.calendar.clockSet := by rw [hcalendar]
  have hsame (k : Nat) : terminal (Machine.takeCover g s) k = terminal s k := by rw [terminal, hterminals, terminal]
  have hwf : Table.wf (Machine.takeCover g s).terminals = true := by rw [hterminals]; exact h.slots
  refine ⟨hwf, (takeCover_derives (R := Noted) g s).groupKeys.trans h.keys, fun k x hx hk => ?_, fun j r hr hj => ?_⟩
  · rw [serviceOf_congr hhalted hclock]
    exact h.services k x ((hsame k).symm.trans hx) hk
  · obtain ⟨q, hq, hcover⟩ := hcovers j r hr
    rw [hcover, coverOf_congr h.slots hwf hclock fun k => by rw [hsame]]
    split
    · next hjg => rw [hjg]
    · next hjg => exact h.covers j q hq fun hG => hj ⟨hG, hjg⟩

/-! ### Everything afresh -/

theorem foldl_holdService {K G : Nat → Prop} (slots : List Nat) {s : State} (h : Held K G s) :
    Held (fun k => K k ∧ k ∉ slots) (fun _ => True) (slots.foldl (fun s k => Machine.holdService k s) s) := by
  induction slots generalizing s K G with
  | nil => exact h.mono (fun _ hk => ⟨hk, List.not_mem_nil⟩) fun _ _ => trivial
  | cons a rest ih =>
    refine (ih (h.holdService a)).mono (fun k hk => ?_) fun _ _ => trivial
    obtain ⟨⟨hK, hne⟩, hrest⟩ := hk
    exact ⟨hK, fun hmem => (List.mem_cons.mp hmem).elim hne hrest⟩

/-- Every service state is held as derived; the covers may all be stale. -/
theorem Held.holdAll {K G : Nat → Prop} {s : State} (h : Held K G s) :
    Held (fun _ => False) (fun _ => True) (forEachSlot Machine.holdService s) := by
  have hheld := foldl_holdService (Table.keys s.terminals) h
  have hkeys : Table.keys (forEachSlot Machine.holdService s).terminals = Table.keys s.terminals :=
    (Derives.forEach _ holdService_derives s).framesN.slots
  refine ⟨hheld.slots, hheld.keys, fun k x hx _ => hheld.services k x hx fun hk => hk.2 ?_, hheld.covers⟩
  rw [← hkeys, Table.mem_keys_iff]
  exact Option.isSome_of_eq_some hx

theorem foldl_takeCover {G : Nat → Prop} (numbers : List Nat) {s : State} (h : Held (fun _ => False) G s)
    (hhalted : salesHalted s = true) :
    Held (fun _ => False) (fun g => G g ∧ g ∉ numbers) (numbers.foldl (fun s g => Machine.takeCover g s) s) := by
  induction numbers generalizing s G with
  | nil => exact h.mono (fun _ => id) fun _ hg => ⟨hg, List.not_mem_nil⟩
  | cons a rest ih =>
    have hstill : salesHalted (Machine.takeCover a s) = true := halted_of_less (takeCover_spec a s).2.2.1 hhalted
    refine (ih (h.takeCover a (hstill.trans hhalted.symm)) hstill).mono (fun _ => id) fun g hg => ?_
    obtain ⟨⟨hG, hne⟩, hrest⟩ := hg
    exact ⟨hG, fun hmem => (List.mem_cons.mp hmem).elim hne hrest⟩

theorem forEach_holdService_halted (s : State) : salesHalted (forEachSlot holdService s) = salesHalted s :=
  List.foldlRecOn (motive := fun u => salesHalted u = salesHalted s) (Table.keys s.terminals) _ rfl
    fun u hu k _ => (holdService_halted k u).trans hu

/-- All covers are taken, so none is stale. -/
theorem Held.all_covers {K G : Nat → Prop} {s : State} (h : Held K (fun g => G g ∧ g ∉ groupNumbers) s) :
    Held K (fun _ => False) s := by
  refine ⟨h.slots, h.keys, h.services, fun g r hr _ => h.covers g r hr fun hg => hg.2 ?_⟩
  rw [← h.keys, Table.mem_keys_iff]
  exact Option.isSome_of_eq_some hr

theorem Held.deriveOnce {K G : Nat → Prop} {s : State} (h : Held K G s) (hhalted : salesHalted s = true) : Derived (deriveOnce s) :=
  (foldl_takeCover groupNumbers h.holdAll ((forEach_holdService_halted s).trans hhalted)).all_covers

/-- A cover is derived afresh with what its record does to the halt of sales. -/
theorem Held.cover {K G : Nat → Prop} {s : State} (h : Held K G s) (g : Nat) : Held K (fun j => G j ∧ j ≠ g) (cover g s) := by
  obtain ⟨hterminals, -, hless, -⟩ := takeCover_spec g s
  unfold Machine.cover reactToRise
  split
  · next hrose =>
    have hhalted : salesHalted (Machine.takeCover g s) = true := by
      simp only [Bool.and_eq_true] at hrose
      exact hrose.2
    have hwf : Table.wf (Machine.takeCover g s).terminals = true := by rw [hterminals]; exact h.slots
    exact ((Held.of_tables hwf ((takeCover_derives (R := Noted) g s).groupKeys.trans h.keys)).deriveOnce hhalted).mono
      (fun _ => False.elim) fun _ => False.elim
  · next hnot =>
    refine h.takeCover g ?_
    cases hbefore : salesHalted s with
    | true => exact halted_of_less hless hbefore
    | false =>
      cases hafter : salesHalted (Machine.takeCover g s) with
      | false => rfl
      | true => simp [hbefore, hafter] at hnot

theorem foldl_cover {K G : Nat → Prop} (numbers : List Nat) {s : State} (h : Held K G s) :
    Held K (fun g => G g ∧ g ∉ numbers) (numbers.foldl (fun s g => Machine.cover g s) s) := by
  induction numbers generalizing s G with
  | nil => exact h.mono (fun _ => id) fun _ hg => ⟨hg, List.not_mem_nil⟩
  | cons a rest ih =>
    refine (ih (h.cover a)).mono (fun _ => id) fun g hg => ?_
    obtain ⟨⟨hG, hne⟩, hrest⟩ := hg
    exact ⟨hG, fun hmem => (List.mem_cons.mp hmem).elim hne hrest⟩

/-- Deriving everything afresh leaves nothing stale, whatever was. -/
theorem Held.deriveAll {K G : Nat → Prop} {s : State} (h : Held K G s) : Derived (deriveAll s) :=
  (foldl_cover groupNumbers h.holdAll).all_covers

/-- A slot derived afresh is stale no more. -/
theorem Held.deriveService {K G : Nat → Prop} {slot : Nat} {s : State} (h : Held (fun k => K k ∨ k = slot) G s) :
    Held K G (deriveService slot s) := by
  unfold Machine.deriveService
  split
  · next hnone =>
    refine ⟨h.slots, h.keys, fun k x hx hk => h.services k x hx ?_, h.covers⟩
    rintro (hK | rfl)
    · exact hk hK
    · rw [hnone] at hx
      cases hx
  · next t ht =>
    split
    · next hsame =>
      refine ⟨h.slots, h.keys, fun k x hx hK => ?_, h.covers⟩
      by_cases hk : k = slot
      · subst hk
        obtain rfl := Option.some.inj (ht.symm.trans hx)
        exact hsame.symm
      · exact h.services k x hx fun h => h.elim hK hk
    · refine ((h.holdService slot).cover t.config.group).mono (fun k hk => hk.1.resolve_right hk.2) fun g hg => ?_
      obtain ⟨hG | ⟨x, hx, hgroup⟩, hne⟩ := hg
      · exact hG
      · obtain rfl := Option.some.inj (ht.symm.trans hx)
        exact absurd hgroup.symm hne

/-- A change that leaves slots and covers, with what a rise or an end of the halt of sales sets off. -/
theorem Stale.haltChanged {K : Nat → Prop} {s t : State} (h : Stale K s) (hst : Still s t) :
    Stale K (haltChanged (salesHalted s) t) := by
  unfold Machine.haltChanged
  split
  · next hsame => exact h.calm ⟨hst, hsame⟩
  · exact (Held.of_tables (hst.wf h.slots) (hst.numbers.trans h.keys)).deriveAll.stale K

end Sys2Proof.Machine
end

section
/-!
PROOFS. The operations that leave every held service state and every held cover as derived as they were.
-/

namespace Sys2Proof.Machine

open Sys2Proof

/-! ### Slots and fields -/

namespace Still

theorem after {s t u : State} (h' : Still t u) (h : Still s t) : Still s u := h.trans h'

theorem onTerminal (slot : Nat) (f : Terminal → Terminal) (s : State) (hf : ∀ x, terminal s slot = some x → Alike x (f x)) :
    Still s (onTerminal slot f s) where
  keys := keys_onTerminal slot f s
  slots k y hy := by
    rw [terminal_onTerminal] at hy
    split at hy
    · next heq =>
      subst heq
      obtain ⟨x, hx, rfl⟩ := Option.map_eq_some_iff.mp hy
      exact ⟨x, hx, hf x hx⟩
    · exact ⟨y, hy, .refl y⟩
  numbers := rfl
  covers g r hr := ⟨r, hr, rfl⟩
  clock := rfl

theorem mapAll (f : Terminal → Terminal) (s : State) (hf : ∀ x, Alike x (f x)) : Still s (s.onTerminals (Table.mapAll f)) where
  keys := Table.keys_mapAll f s.terminals
  slots k y hy := by
    rw [terminal_mapAll] at hy
    obtain ⟨x, hx, rfl⟩ := Option.map_eq_some_iff.mp hy
    exact ⟨x, hx, hf x⟩
  numbers := rfl
  covers g r hr := ⟨r, hr, rfl⟩
  clock := rfl

theorem of_same {s t : State} (hterminals : t.terminals = s.terminals) (hgroups : t.groups = s.groups)
    (hclock : t.calendar.clockSet = s.calendar.clockSet) : Still s t :=
  ⟨by rw [hterminals], fun k y hy => ⟨y, by rw [terminal, ← hterminals]; exact hy, .refl y⟩, by rw [hgroups],
    fun g r hr => ⟨r, by rw [← hgroups]; exact hr, rfl⟩, hclock⟩

theorem onJournal (f : Journal → Journal) (s : State) : Still s (s.onJournal f) := of_same rfl rfl rfl

theorem onGroups (g : Nat) (f : GroupRecord → GroupRecord) (hf : ∀ r, (f r).cover = r.cover) (s : State) :
    Still s (s.onGroups (Table.modify g f)) where
  keys := rfl
  slots k y hy := ⟨y, hy, .refl y⟩
  numbers := Table.keys_modify g f s.groups
  covers j r hr := by
    rw [State.onGroups_groups, Table.find?_modify] at hr
    split at hr
    · obtain ⟨q, hq, rfl⟩ := Option.map_eq_some_iff.mp hr
      exact ⟨q, hq, hf q⟩
    · exact ⟨r, hr, rfl⟩
  clock := rfl

theorem foldl {β : Type} (f : State → β → State) (hf : ∀ s b, Still s (f s b)) (l : List β) (s : State) :
    Still s (l.foldl f s) := by
  induction l generalizing s with
  | nil => exact .refl s
  | cons b l ih => exact (hf s b).trans (ih _)

end Still

namespace Calm

theorem onTerminal (slot : Nat) (f : Terminal → Terminal) (s : State) (hf : ∀ x, terminal s slot = some x → Alike x (f x)) :
    Calm s (onTerminal slot f s) := ⟨.onTerminal slot f s hf, rfl⟩

theorem mapAll (f : Terminal → Terminal) (s : State) (hf : ∀ x, Alike x (f x)) : Calm s (s.onTerminals (Table.mapAll f)) :=
  ⟨.mapAll f s hf, rfl⟩

theorem onQueue (slot : Nat) (f : List Notice → List Notice) (s : State) : Calm s (onQueue slot f s) :=
  onTerminal slot (fun x => { x with link := { x.link with queue := f x.link.queue } }) s fun _ _ => ⟨rfl, fun _ => rfl, rfl, rfl⟩

theorem onCalendar (f : Calendar → Calendar) (s : State) (h : (f s.calendar).clockSet = s.calendar.clockSet) :
    Calm s (s.onCalendar f) := ⟨.of_same rfl rfl h, rfl⟩

theorem onPlans (f) (s : State) : Calm s (s.onPlans f) := ⟨.of_same rfl rfl rfl, rfl⟩
theorem onEngine (f) (s : State) : Calm s (s.onEngine f) := ⟨.of_same rfl rfl rfl, rfl⟩
theorem onSales (f) (s : State) : Calm s (s.onSales f) := ⟨.of_same rfl rfl rfl, rfl⟩
theorem onPermits (f) (s : State) : Calm s (s.onPermits f) := ⟨.of_same rfl rfl rfl, rfl⟩
theorem onCash (f) (s : State) : Calm s (s.onCash f) := ⟨.of_same rfl rfl rfl, rfl⟩
theorem onLine (f) (s : State) : Calm s (s.onLine f) := ⟨.of_same rfl rfl rfl, rfl⟩
theorem onAttention (f) (s : State) : Calm s (s.onAttention f) := ⟨.of_same rfl rfl rfl, rfl⟩
theorem onRoster (f) (s : State) : Calm s (s.onRoster f) := ⟨.of_same rfl rfl rfl, rfl⟩
theorem setFreeIndex (n : Nat) (s : State) : Calm s (s.setFreeIndex n) := ⟨.of_same rfl rfl rfl, rfl⟩
theorem raise (f : Flag) (s : State) : Calm s (raise f s) := onAttention _ s
theorem refresh (s : State) : Calm s (refresh s) := onAttention _ s

theorem foldl {β : Type} (f : State → β → State) (hf : ∀ s b, Calm s (f s b)) (l : List β) (s : State) : Calm s (l.foldl f s) := by
  induction l generalizing s with
  | nil => exact .refl s
  | cons b l ih => exact (hf s b).trans (ih _)

theorem forEach (f : Nat → State → State) (hf : ∀ k s, Calm s (f k s)) (s : State) : Calm s (forEachSlot f s) :=
  foldl _ (fun s k => hf k s) _ s

end Calm

/-! ### The journal -/

theorem append_still (body : RecordBody) (s : State) : Still s (append body s) := (Still.onJournal _ s).trans (Calm.refresh _).toStill

theorem appendReserved_still (body : RecordBody) (s : State) : Still s (appendReserved body s) :=
  (Still.onJournal _ s).trans (Calm.refresh _).toStill

theorem reserve_still (n : Nat) (s : State) : Still s (reserve n s) := (Still.onJournal _ s).trans (Calm.refresh _).toStill

theorem appendOwed_still (s : State) : Still s (appendOwed s) := by
  refine .foldl _ (fun s g => ?_) _ s
  split
  · exact .refl s
  · split
    · exact .after (append_still _ _) (.onGroups g _ (by intro; rfl) s)
    · exact .refl s

theorem recordRound_still (collector key : Nat) (entries : List RoundEntry) (s : State) :
    Still s (recordRound collector key entries s) := by
  unfold recordRound
  exact .after (Calm.onCalendar _ _ rfl).toStill (.after (reserve_still _ _) (Calm.onCash _ s).toStill)

theorem closeRoundCore_still (r : Round) (s : State) : Still s (closeRoundCore r s) :=
  .after (Calm.raise _ _).toStill (.after (Calm.onCalendar _ _ rfl).toStill
    (.after (Calm.onCash _ _).toStill (.after (reserve_still _ _) (appendReserved_still _ s))))

/-- A record from the reservation leaves the unreserved space as it was, where something is reserved. -/
theorem appendReserved_calm (body : RecordBody) {s : State} (h : s.journal.reservation ≠ 0) : Calm s (appendReserved body s) := by
  refine ⟨appendReserved_still body s, ?_⟩
  have hfree : freeSpace (appendReserved body s) = freeSpace s := by
    simp only [freeSpace, used, appendReserved, refresh, State.onAttention_journal, State.onJournal_journal, List.length_append,
      List.length_singleton]
    omega
  rw [salesHalted, salesHalted, hfree]

/-! ### Queues, sleep and time -/

theorem considerSleep_calm (slot : Nat) (s : State) : Calm s (considerSleep slot s) := by
  unfold considerSleep
  split
  · exact .refl s
  · split
    · exact .onQueue slot _ s
    · exact .refl s

theorem queueTime_calm (slot : Nat) (s : State) : Calm s (queueTime slot s) := .onQueue slot _ s

theorem timeForAll_calm (s : State) : Calm s (timeForAll s) := by
  refine .forEach _ (fun k s => ?_) s
  split
  · exact .refl s
  · split
    · exact queueTime_calm k s
    · split
      · exact .onTerminal k (fun x => { x with link := { x.link with timeOwed := true } }) s fun _ _ => ⟨rfl, fun _ => rfl, rfl, rfl⟩
      · exact .refl s

theorem takeSwitch_calm (slot : Nat) (s : State) : Calm s (takeSwitch slot s) := by
  unfold takeSwitch
  split
  · exact .refl s
  · split
    · split
      · exact .after (.raise _ _) (.onTerminal slot _ s fun x _ => by exact ⟨rfl, fun _ => rfl, rfl, rfl⟩)
      · exact .refl s
    · exact .refl s

theorem minuteRoll_calm (s : State) : Calm s (minuteRoll s) := .onSales _ s

theorem dayRoll_calm (s : State) : Calm s (dayRoll s) :=
  .after (timeForAll_calm _) (.after (.onPermits _ _) (.onCalendar _ s rfl))

theorem countSilence_alike (x : Terminal) : Alike x (countSilence x) := by
  unfold countSilence
  split
  · exact ⟨rfl, fun _ => rfl, rfl, rfl⟩
  · exact .refl x

theorem holidaysDuringWalk_calm (days : List Nat) (s : State) : Calm s (holidaysDuringWalk days s) := by
  unfold holidaysDuringWalk
  split
  · exact .refl s
  · exact .after (.setFreeIndex _ _) (.onEngine _ s)

/-! ### Quotes -/

theorem setQuote_calm (slot : Nat) (q : QuoteSlot) (s : State) : Calm s (setQuote slot q s) :=
  .onTerminal slot (fun x => { x with quote := q }) s fun _ _ => ⟨rfl, fun _ => rfl, rfl, rfl⟩

theorem setClosed_calm (slot : Nat) (c : Option ClosedQuote) (s : State) : Calm s (setClosed slot c s) :=
  .onTerminal slot (fun x => { x with closed := c }) s fun _ _ => ⟨rfl, fun _ => rfl, rfl, rfl⟩

theorem releaseQuote_calm (slot : Nat) (q : OpenQuote) (s : State) : Calm s (releaseQuote slot q s) := by
  unfold releaseQuote
  split
  · exact .onPermits _ s
  · exact .refl s

theorem consumeQuoteHold_calm (slot : Nat) (q : OpenQuote) (s : State) : Calm s (consumeQuoteHold slot q s) := by
  unfold consumeQuoteHold
  split
  · exact .onPermits _ s
  · exact .refl s

theorem endQuote_calm (slot : Nat) (s : State) : Calm s (endQuote slot s) := by
  unfold endQuote
  split
  · exact .refl s
  · have hwithdrawn : Calm s (withdrawResult slot s) := .onQueue slot _ s
    have hclosed (u : State) (hu : Calm (withdrawResult slot s) u) : Calm s (considerSleep slot (setQuote slot .none u)) :=
      .after (considerSleep_calm slot _) (.after (setQuote_calm slot .none u) (hwithdrawn.trans hu))
    dsimp only
    split
    · exact hwithdrawn
    · exact hclosed _ (.onEngine _ _)
    · exact hclosed _ (.onEngine _ _)
    · exact hclosed _ (releaseQuote_calm slot _ _)

theorem expireQuote_calm (slot : Nat) (q : OpenQuote) (s : State) : Calm s (expireQuote slot q s) :=
  .after (considerSleep_calm slot _) (.after (.onQueue slot _ _) (.after (setClosed_calm slot _ _) (.after (setQuote_calm slot _ _)
    (releaseQuote_calm slot q s))))

theorem supersede_calm (slot : Nat) (q : QuoteSlot) (s : State) : Calm s (supersede slot q s) := by
  unfold supersede
  split
  · exact .refl s
  · exact .refl s
  · exact .onEngine _ s
  · exact releaseQuote_calm slot _ s

theorem beginWalk_calm (s : State) : Calm s (beginWalk s) := by
  unfold beginWalk
  split
  · exact .after (setQuote_calm _ _ _) (.onEngine _ s)
  · exact .refl s

theorem acceptQuote_calm (slot : Nat) (x : Terminal) (ask : Ask) (permit : Option (Nat × PermitKind)) (plate : Option Plate)
    (s : State) : Calm s (acceptQuote slot x ask permit plate s) :=
  .after (beginWalk_calm _) (.after (.onEngine _ _) (.after
    (.onTerminal slot (fun x => { x with quote := .queued x.nextQuoteId, nextQuoteId := nextQuoteId x.nextQuoteId, closed := none }) _
      fun _ _ => ⟨rfl, fun _ => rfl, rfl, rfl⟩)
    (.after (supersede_calm slot _ _) (.after (.onQueue slot _ _) (.onQueue slot _ s)))))

theorem takeQuote_calm (slot kind amount permit : Nat) (plate : Plate) (s : State) :
    Calm s (takeQuote slot kind amount permit plate s) := by
  unfold takeQuote
  split
  · exact .refl s
  · split
    · exact .onQueue slot _ s
    · exact acceptQuote_calm slot _ _ _ _ s

theorem refuseResult_calm (slot quoteId firstStep : Nat) (code : Code) (s : State) :
    Calm s (refuseResult slot quoteId firstStep code s) :=
  .after (considerSleep_calm slot _) (.after (.onQueue slot _ _) (setQuote_calm slot _ s))

theorem openQuote_calm (e : QueueEntry) (r : WalkResult) (s : State) : Calm s (openQuote e r s) := by
  refine .after (.onQueue _ _ _) (.after (setQuote_calm _ _ _) ?_)
  split
  · split
    · exact .onPermits _ s
    · exact .refl s
  · exact .refl s

theorem keepResult_calm (e : QueueEntry) (group : Nat) (r : WalkResult) (s : State) : Calm s (keepResult e group r s) := by
  unfold keepResult
  split
  · exact refuseResult_calm _ _ _ _ s
  · exact refuseResult_calm _ _ _ _ s
  · exact refuseResult_calm _ _ _ _ s
  · split
    · exact openQuote_calm e r s
    · split
      · exact refuseResult_calm _ _ _ _ s
      · exact openQuote_calm e r s

theorem completeWalk_calm (w : Walk) (s : State) : Calm s (completeWalk w s) := by
  refine .after (beginWalk_calm _) (.after (.onEngine _ _) ?_)
  split
  · exact .refl s
  · split
    · exact .refl s
    · exact keepResult_calm _ _ _ s

theorem confirmClosed_calm (slot quoteId : Nat) (closed : Option ClosedQuote) (s : State) :
    Calm s (confirmClosed slot quoteId closed s) := by
  unfold confirmClosed
  split
  · split <;> exact .onQueue slot _ s
  · exact .onQueue slot _ s
  · exact .onQueue slot _ s

/-! ### The line -/

theorem setLine_calm (mode : LineMode) (frames : List KerbFrame) (s : State) : Calm s (setLine mode frames s) := .onLine _ s

theorem clearOut_calm (s : State) : Calm s (clearOut s) := .onLine _ s

theorem Sends.calm {u t : State} (h : Sends u t) : Calm u t := by
  cases h with
  | rests f _ => exact .onLine f u
  | calls slot kind f _ _ => exact .after (.onQueue slot markHead _) (.onLine f u)

theorem takeBack_calm (s : State) : Calm s (takeBack s) := by
  unfold takeBack
  split
  · exact .onQueue _ unmark s
  · exact .refl s

theorem takeOffer_calm (identity : Nat) (form : OfferForm) (s : State) : Calm s (takeOffer identity form s) := by
  unfold takeOffer
  split
  · split
    · exact .refl s
    · split
      · exact .after (.raise _ _) (.onLine _ s)
      · exact .onLine _ s
  · exact .refl s

end Sys2Proof.Machine
end

section
/-!
PROOFS. The operations that leave no more service states stale than there were, and no cover: what they change they derive afresh.
-/

namespace Sys2Proof.Machine

open Sys2Proof

/-- Whichever service states are stale, no other becomes so, and no cover. -/
def Settles (s t : State) : Prop := ∀ K : Nat → Prop, Stale K s → Stale K t

theorem Calm.settles {s t : State} (h : Calm s t) : Settles s t := fun _ hs => hs.calm h

namespace Settles

theorem refl (s : State) : Settles s s := fun _ => id

theorem trans {s t u : State} (h : Settles s t) (h' : Settles t u) : Settles s u := fun K hs => h' K (h K hs)

theorem after {s t u : State} (h' : Settles t u) (h : Settles s t) : Settles s u := h.trans h'

/-- A chain that begins or ends calmly. -/
theorem calm {s t u : State} (h' : Settles t u) (h : Calm s t) : Settles s u := h.settles.trans h'

theorem foldl {β : Type} (f : State → β → State) (hf : ∀ s b, Settles s (f s b)) (l : List β) (s : State) :
    Settles s (l.foldl f s) := by
  induction l generalizing s with
  | nil => exact .refl s
  | cons b l ih => exact (hf s b).trans (ih _)

theorem forEach (f : Nat → State → State) (hf : ∀ k s, Settles s (f k s)) (s : State) : Settles s (forEachSlot f s) :=
  foldl _ (fun s k => hf k s) _ s

end Settles

theorem Calm.then {s t u : State} (h' : Calm t u) (h : Settles s t) : Settles s u := h.trans h'.settles

/-! ### A slot changes and is derived afresh -/

/-- What derives a slot's service state may change, where its group's cover sees no difference. -/
theorem Held.touched {K G : Nat → Prop} {s : State} (h : Held K G s) (slot : Nat) (f : Terminal → Terminal)
    (hservice : ∀ x, (f x).watch.service = x.watch.service) (hsegment : ∀ x, (f x).segment = x.segment)
    (hgroup : ∀ x, (f x).config.group = x.config.group) : Held (fun k => K k ∨ k = slot) G (onTerminal slot f s) := by
  have hwf : Table.wf (onTerminal slot f s).terminals = true := (Table.wf_congr (keys_onTerminal slot f s)).trans h.slots
  refine ⟨hwf, h.keys, fun k x hx hk => ?_, fun g r hr hg => ?_⟩
  · obtain ⟨hK, hslot⟩ := not_or.mp hk
    rw [terminal_onTerminal, if_neg fun he => hslot he.symm] at hx
    exact h.services k x hx hK
  · rw [coverOf_congr (t := onTerminal slot f s) h.slots hwf rfl fun k => ?_]
    · exact h.covers g r hr hg
    · rw [terminal_onTerminal]
      split
      · cases terminal s k with
        | none => rfl
        | some x =>
          by_cases hx : x.config.group = g
          · rw [Option.map_some, viewOf_member hx, viewOf_member ((hgroup x).trans hx), hsegment, hservice]
          · rw [Option.map_some, viewOf_other hx, viewOf_other (by rw [hgroup]; exact hx)]
      · rfl

/-- The link of a slot changes, and its service state is derived afresh in the end. -/
theorem Settles.link {slot : Nat} {f : Link → Link} {s u : State} (hu : Settles (onLink slot f s) u) :
    Settles s (deriveService slot u) := fun _ hs =>
  Held.deriveService (hu _ (hs.touched slot (fun x => { x with link := f x.link }) (fun _ => rfl) (fun _ => rfl) fun _ => rfl))

/-- The watch of a slot changes but for the service state, which is derived afresh in the end. -/
theorem Settles.watch {slot : Nat} {f : Watch → Watch} {s u : State} (hf : ∀ w, (f w).service = w.service)
    (hu : Settles (onWatch slot f s) u) : Settles s (deriveService slot u) := fun _ hs =>
  Held.deriveService
    (hu _ (hs.touched slot (fun x => { x with watch := f x.watch }) (fun x => hf x.watch) (fun _ => rfl) fun _ => rfl))

theorem serviceOf_same {x y : Terminal} (hlink : y.link = x.link) (hdoor : y.watch.door = x.watch.door)
    (hfaults : impacts y.watch.faults = impacts x.watch.faults) (u : State) : serviceOf u y = serviceOf u x := by
  unfold serviceOf tenderState cashUsable cardUsable hasCash hasCard
  rw [hlink, hdoor, hfaults]

/-- What a watch holds beside the service state, the door and the faults derives nothing. -/
theorem onWatch_calm (slot : Nat) {f : Watch → Watch} (s : State) (hservice : ∀ w, (f w).service = w.service)
    (hdoor : ∀ w, (f w).door = w.door) (hfaults : ∀ w, impacts (f w).faults = impacts w.faults) : Calm s (onWatch slot f s) :=
  .onTerminal slot (fun x => { x with watch := f x.watch }) s fun _ _ =>
    ⟨hservice _, serviceOf_same rfl (hdoor _) (hfaults _), rfl, rfl⟩

/-! ### Faults -/

theorem conditionRises_settles (slot : Nat) (k : FaultKind) (s : State) : Settles s (conditionRises slot k s) := by
  unfold conditionRises
  split
  · exact .refl s
  · split
    · exact .refl s
    · exact .watch (by intro; rfl) (Calm.raise .fault _).settles

theorem conditionEnds_settles (slot : Nat) (k : FaultKind) (s : State) : Settles s (conditionEnds slot k s) := by
  unfold conditionEnds
  split
  · exact .refl s
  · split
    · exact .watch (by intro; rfl) (.refl _)
    · exact .refl s

theorem reportCondition_settles (slot : Nat) (k : FaultKind) (present : Bool) (s : State) :
    Settles s (reportCondition slot k present s) := by
  unfold reportCondition
  split
  · exact conditionRises_settles slot k s
  · exact conditionEnds_settles slot k s

/-- DOOR_UNSCHEDULED and CASH_SHORT have no impact. -/
theorem raiseEventFault_calm (slot : Nat) {k : FaultKind} (hk : k = .doorUnscheduled ∨ k = .cashShort) (s : State) :
    Calm s (raiseEventFault slot k s) := by
  unfold raiseEventFault
  split
  · exact .refl s
  · refine .after (.raise _ _) (onWatch_calm slot s (fun _ => rfl) (fun _ => rfl) fun w => ?_)
    obtain rfl | rfl := hk <;> rfl

/-! ### The halt of sales -/

theorem haltChanged_settles {s t : State} (h : Still s t) : Settles s (haltChanged (salesHalted s) t) :=
  fun _ hs => hs.haltChanged h

theorem spaceRose_settles {s t : State} (freeBefore : Nat) (h : Still s t) : Settles s (spaceRose freeBefore (salesHalted s) t) := by
  refine haltChanged_settles ?_
  split
  · exact h.trans (appendOwed_still t)
  · exact h

theorem openRound_settles (collector key : Nat) (entries : List RoundEntry) (s : State) :
    Settles s (openRound collector key entries s) :=
  haltChanged_settles (.after (Calm.raise _ _).toStill (recordRound_still collector key entries s))

theorem closeRound_settles (r : Round) (s : State) : Settles s (closeRound r s) := spaceRose_settles _ (closeRoundCore_still r s)

theorem removeRecords_settles (n : Nat) (s : State) : Settles s (removeRecords n s) := spaceRose_settles _ (.onJournal _ s)

theorem deliverDeadline_settles (s : State) : Settles s (deliverDeadline s) := by
  unfold deliverDeadline
  split
  · exact closeRound_settles _ s
  · exact (Calm.onCalendar _ s rfl).settles

theorem deliverIfDue_settles (s : State) : Settles s (deliverIfDue s) := by
  unfold deliverIfDue
  split
  · exact deliverDeadline_settles s
  · exact .refl s

theorem reconcile_settles (c : Collection) (counts : Six) (s : State) : Settles s (reconcile c counts s) := by
  unfold reconcile
  dsimp only
  have hcounted := (haltChanged_settles (append_still
    (.reconciled c.number counts c.value (counts.value s.cash.denominations) (discrepancyOf s c counts) (outcomeFor s c counts)) s)).trans
    (Calm.onCash (fun k => { k with collections := k.collections.filter fun x => x.number ≠ c.number }) _).settles
  split
  · exact (raiseEventFault_calm _ (.inr rfl) _).then hcounted
  · exact hcounted

/-! ### The sale -/

theorem evaluateBox_settles (slot : Nat) (s : State) : Settles s (evaluateBox slot s) := by
  unfold evaluateBox
  split
  · exact .refl s
  · exact reportCondition_settles slot .boxFull _ s

theorem silenceSample_settles (slot : Nat) (s : State) : Settles s (silenceSample slot s) :=
  (conditionEnds_settles slot .silent _).calm (onWatch_calm slot s (fun _ => rfl) (fun _ => rfl) fun _ => rfl)

theorem sell_settles (slot : Nat) (t : Terminal) (q : OpenQuote) (coins : Six) (card : Nat) (s : State) :
    Settles s (sell slot t q coins card s) := by
  have hrecorded (u : State) (body : RecordBody) : Settles u
      (onTerminal slot (fun t => { t with cash := t.cash.sale coins card }) (haltChanged (salesHalted u) (append body u))) :=
    (Calm.onTerminal slot _ _ fun x _ => by exact ⟨rfl, fun _ => rfl, rfl, rfl⟩).then (haltChanged_settles (append_still body u))
  have hboxed (u : State) : Settles u (if coins = .zero then u else evaluateBox slot u) := by
    split
    · exact .refl u
    · exact evaluateBox_settles slot u
  unfold sell
  dsimp only
  refine (considerSleep_calm slot _).then ((Calm.onQueue slot _ _).then ((setClosed_calm slot _ _).then ((setQuote_calm slot _ _).then ?_)))
  refine .after (silenceSample_settles slot _) ((Calm.onSales _ _).then ((consumeQuoteHold_calm slot q _).then ?_))
  exact .after (hboxed _) ((hrecorded _ _).calm (.onSales _ s))

theorem takeConfirm_settles (slot quoteId : Nat) (coins : Six) (card : Nat) (s : State) :
    Settles s (takeConfirm slot quoteId coins card s) := by
  unfold takeConfirm
  split
  · exact .refl s
  · split
    · exact (confirmClosed_calm _ _ _ s).settles
    · exact (Calm.onQueue slot _ s).settles
    · exact (Calm.onQueue slot _ s).settles
    · split
      · exact sell_settles _ _ _ _ _ s
      · exact (Calm.after (.onQueue slot _ _) (expireQuote_calm slot _ s)).settles
      · exact (Calm.onQueue slot _ s).settles

/-! ### Link states -/

theorem leaveTo_settles (slot : Nat) (new : LinkState) (s : State) : Settles s (leaveTo slot new s) :=
  .link (endQuote_calm slot _).settles

theorem barSlot_settles (slot : Nat) (s : State) : Settles s (barSlot slot s) :=
  .after (conditionRises_settles slot .jabber _) (leaveTo_settles slot .barred s)

theorem endBar_settles (slot : Nat) (s : State) : Settles s (endBar slot s) :=
  .after (conditionEnds_settles slot .jabber _) (leaveTo_settles slot .absent s)

theorem grantSlot_settles (slot : Nat) (form : OfferForm) (s : State) : Settles s (grantSlot slot form s) :=
  .link (.after (conditionEnds_settles slot .linkLost _)
    (Calm.after (onWatch_calm slot _ (by intro; rfl) (by intro; rfl) (by intro; rfl)) (endQuote_calm slot _)).settles)

theorem fallAsleep_settles (slot : Nat) (s : State) : Settles s (fallAsleep slot s) := .link (.refl _)

theorem wakeSlot_settles (slot : Nat) (s : State) : Settles s (wakeSlot slot s) := .link (considerSleep_calm slot _).settles

theorem acceptSlot_settles (slot : Nat) (owed : Bool) {s : State} : Settles (deriveService slot s) (acceptSlot slot owed s) := by
  refine (Calm.after (considerSleep_calm slot _) ?_).settles
  split
  · exact queueTime_calm slot _
  · exact .refl _

theorem missSlot_settles (slot : Nat) (calledAs : LinkState) (s : State) : Settles s (missSlot slot calledAs s) := by
  unfold missSlot
  split
  · exact .refl s
  · split
    · have hcounted : Calm s (onLink slot (fun l => { l with misses := l.misses + 1, queue := unmark l.queue }) s) :=
        .onTerminal slot _ s fun x _ => by exact ⟨rfl, fun _ => rfl, rfl, rfl⟩
      dsimp only
      split
      · exact (leaveTo_settles slot .absent _).calm hcounted
      · split
        · exact (leaveTo_settles slot .lost _).calm hcounted
        · exact hcounted.settles
    · exact .refl s

theorem sendGrant_settles (e : EarnedOffer) (s : State) : Settles s (sendGrant e s) := by
  unfold sendGrant
  split
  · exact .refl s
  · split
    · exact .refl s
    · exact (grantSlot_settles _ _ _).calm (.onLine _ s)

theorem endReplyWindow_settles (n : Nat) (offered : List Nat) (earned : List EarnedOffer) (s : State) :
    Settles s (endReplyWindow n offered earned s) := by
  unfold endReplyWindow
  dsimp only
  split
  · exact (Calm.after (setLine_calm _ _ _) (clearOut_calm s)).settles
  · exact (setLine_calm _ _ _).then ((Settles.foldl _ (fun u e => sendGrant_settles e u) earned _).calm (clearOut_calm s))

end Sys2Proof.Machine
end

section
/-!
PROOFS. The status word, the answers, and the segments: nothing is left stale once an answer is taken or a segment found.
-/

namespace Sys2Proof.Machine

open Sys2Proof

/-! ### The status word -/

theorem takeReport_settles (slot : Nat) (k : ReportKind) (report : Bool) (s : State) : Settles s (takeReport slot k report s) := by
  unfold takeReport
  split
  · exact .refl s
  · split
    · exact (reportCondition_settles slot _ _ _).calm (onWatch_calm slot s (by intro; rfl) (by intro; rfl) (by intro; rfl))
    · exact .refl s

theorem takeReports_settles (slot : Nat) (r : Reports) (s : State) : Settles s (takeReports slot r s) := by
  unfold takeReports
  exact (onWatch_calm slot _ (by intro; rfl) (by intro; rfl) (by intro; rfl)).then (.after (takeReport_settles _ _ _ _)
    (.after (takeReport_settles _ _ _ _) (.after (takeReport_settles _ _ _ _) (takeReport_settles _ _ _ s))))

theorem filterPower_settles (slot : Nat) (c : PowerClass) (s : State) : Settles s (filterPower slot c s) := by
  unfold filterPower
  split
  · exact .refl s
  · have hseen : Calm s (onWatch slot (fun w => { w with lastPower := some c }) s) :=
      onWatch_calm slot s (by intro; rfl) (by intro; rfl) (by intro; rfl)
    dsimp only
    split
    · exact (reportCondition_settles slot _ _ _).calm (.after (onWatch_calm slot _ (by intro; rfl) (by intro; rfl) (by intro; rfl)) hseen)
    · exact hseen.settles

theorem criticalRun_settles (slot : Nat) (c : PowerClass) (s : State) : Settles s (criticalRun slot c s) := by
  unfold criticalRun
  split
  · exact .refl s
  · split
    · exact (conditionRises_settles slot _ _).calm (onWatch_calm slot s (by intro; rfl) (by intro; rfl) (by intro; rfl))
    · split
      · split
        · exact (conditionEnds_settles slot _ _).calm (onWatch_calm slot s (by intro; rfl) (by intro; rfl) (by intro; rfl))
        · exact (onWatch_calm slot s (by intro; rfl) (by intro; rfl) (by intro; rfl)).settles
      · exact .refl s

theorem cutTally_calm (slot key : Nat) (t : Terminal) (r : Round) {s : State} (h : s.journal.reservation ≠ 0) :
    Calm s (cutTally slot key t r s) := by
  unfold cutTally
  exact .after (.onTerminal slot _ _ fun _ _ => by exact ⟨rfl, fun _ => rfl, rfl, rfl⟩)
    (.after (appendReserved_calm _ h) (.onCash _ s))

/-- A cut takes its record from the reservation of the open round. -/
theorem collectorOpening_settles (slot key : Nat) {s : State} (h : RoundAccounted s) : Settles s (collectorOpening slot key s) := by
  have hunscheduled := (raiseEventFault_calm slot (.inl rfl) s).settles
  unfold collectorOpening
  split
  · exact .refl s
  · split
    · exact hunscheduled
    · next r hround =>
      have hreserved : s.journal.reservation ≠ 0 := by
        rw [h.1, hround]
        exact Nat.succ_ne_zero _
      split
      · exact hunscheduled
      · split
        · exact hunscheduled
        · split
          · exact (conditionEnds_settles slot .boxFull _).calm (cutTally_calm slot key _ r hreserved)
          · exact .refl s

theorem openDoor_settles (slot : Nat) (key : DoorKey) {s : State} (h : RoundAccounted s) : Settles s (openDoor slot key s) := by
  have hended (u : State) : Calm u (endQuote slot (withdrawSleep slot u)) := .after (endQuote_calm slot _) (.onQueue slot _ u)
  have haccounts : RoundAccounted (endQuote slot (withdrawSleep slot (onWatch slot (fun w => { w with door := .opened key }) s))) :=
    (Accounts.after (endQuote_accounts slot _) (.after (.onQueue slot _ _) (.onWatch slot _ s))).round h
  unfold openDoor
  refine .watch (f := fun w => { w with door := .opened key }) (fun _ => rfl) ?_
  split
  · exact (collectorOpening_settles slot _ haccounts).calm (hended _)
  · exact (conditionRises_settles slot .doorForced _).calm (hended _)
  · exact (hended _).settles

theorem closeDoor_settles (slot : Nat) (s : State) : Settles s (closeDoor slot s) :=
  (considerSleep_calm slot _).then (.watch (by intro; rfl) (conditionEnds_settles slot .doorForced _))

theorem takeDoor_settles (slot : Nat) (d : Door) {s : State} (h : RoundAccounted s) : Settles s (takeDoor slot d s) := by
  unfold takeDoor
  split
  · exact .refl s
  · split
    · exact openDoor_settles slot _ h
    · exact closeDoor_settles slot s
    · exact .refl s

theorem takeStatus_settles (slot : Nat) (w : StatusWord) {s : State} (h : RoundAccounted s) : Settles s (takeStatus slot w s) :=
  .after
    (takeDoor_settles slot w.door
      ((Accounts.after (criticalRun_accounts slot _ _) (.after (filterPower_accounts slot _ _) (takeReports_accounts slot _ s))).round h))
    (.after (criticalRun_settles slot _ _) (.after (filterPower_settles slot _ _) (takeReports_settles slot _ s)))

/-! ### Answers -/

theorem handRequest_settles (slot : Nat) (request : AnswerRequest) (s : State) : Settles s (handRequest slot request s) := by
  unfold handRequest
  split
  · exact (takeQuote_calm _ _ _ _ _ s).settles
  · exact takeConfirm_settles _ _ _ _ s
  · exact (endQuote_calm slot s).settles
  · exact .refl s

/-- But for the ACCEPT at the negotiated level, the change of the link state is derived afresh at once. -/
theorem answerLink_settles (slot : Nat) {t : Terminal} (rode : Option NoticeBody) (asleep : Bool) (w : StatusWord)
    {request : AnswerRequest} (s : State) (h : enrols t request = false) : Settles s (answerLink slot t rode asleep w request s) := by
  unfold answerLink
  split
  · rw [if_neg (by rw [h]; decide)]
    exact leaveTo_settles slot .absent s
  · split
    · exact leaveTo_settles slot .absent s
    · split
      · exact fallAsleep_settles slot s
      · exact .refl s
  · split
    · exact leaveTo_settles slot .absent s
    · split
      · exact wakeSlot_settles slot s
      · exact .refl s
  · exact .refl s

theorem enrols_granted {t : Terminal} {request : AnswerRequest} (h : enrols t request = true) : t.link.state = .granted := by
  unfold enrols at h
  split at h
  · simp only [Bool.and_eq_true, decide_eq_true_eq] at h
    exact h.1
  · cases h

/-- At that ACCEPT the slot becomes ACTIVE, its status word is taken, and then its service state is derived. -/
theorem validAnswer_settles (slot : Nat) (t : Terminal) (rode : Option NoticeBody) (asleep : Bool) (w : StatusWord)
    (request : AnswerRequest) {s : State} (h : RoundAccounted s) : Settles s (validAnswer slot t rode asleep w request s) := by
  have hgot : Calm s (onLink slot (fun l => { l with queue := removeRidden l.queue, misses := 0 }) s) :=
    .onTerminal slot _ s fun _ _ => by exact ⟨rfl, fun _ => rfl, rfl, rfl⟩
  have haccounts : RoundAccounted (answerLink slot t rode asleep w request
      (onLink slot (fun l => { l with queue := removeRidden l.queue, misses := 0 }) s)) :=
    (Accounts.after (answerLink_accounts slot t rode asleep w request _) (.onLink slot _ s)).round h
  have hhanded (u : State) :
      Settles u (if t.link.state = .granted ∨ rode = some .reset then u else handRequest slot request u) := by
    split
    · exact .refl u
    · exact handRequest_settles slot request u
  unfold validAnswer
  dsimp only
  refine .after (hhanded _) ?_
  cases henrols : enrols t request with
  | false =>
    rw [if_neg (by decide)]
    exact .after (takeStatus_settles slot w haccounts) ((answerLink_settles slot rode asleep w _ henrols).calm hgot)
  | true =>
    rw [if_pos rfl]
    refine .after (acceptSlot_settles slot _) ?_
    have hlink (u : State) : answerLink slot t rode asleep w request u
        = onLink slot (fun l => { l with state := .active, timeOwed := false }) u := by
      rw [answerLink, enrols_granted henrols]
      exact if_pos henrols
    rw [hlink] at haccounts ⊢
    exact .calm (.link (takeStatus_settles slot w haccounts)) hgot

theorem windowAnswer_settles (slot : Nat) (calledAs : LinkState) (rode : Option NoticeBody) (head : AnswerHead)
    (request : AnswerRequest) {s : State} (h : RoundAccounted s) : Settles s (windowAnswer slot calledAs rode head request s) := by
  unfold windowAnswer
  split
  · exact missSlot_settles slot calledAs s
  · split
    · exact missSlot_settles slot calledAs s
    · split
      · exact .refl s
      · split
        · exact validAnswer_settles slot _ rode _ _ request h
        · exact .refl s

/-! ### Segments -/

/-- The record of a slot changes but for what derives its service state: the covers of its group before and after are stale. -/
theorem Held.regrouped {K G : Nat → Prop} {s : State} (h : Held K G s) (slot : Nat) {f : Terminal → Terminal}
    (hservice : ∀ x, (f x).watch = x.watch) (hlink : ∀ x, (f x).link = x.link) :
    Held K (fun g => G g ∨ ∃ x, terminal s slot = some x ∧ (x.config.group = g ∨ (f x).config.group = g))
      (onTerminal slot f s) := by
  have hwf : Table.wf (onTerminal slot f s).terminals = true := (Table.wf_congr (keys_onTerminal slot f s)).trans h.slots
  refine ⟨hwf, h.keys, fun k x hx hk => ?_, fun g r hr hg => ?_⟩
  · rw [serviceOf_congr (s := s) (t := onTerminal slot f s) rfl rfl]
    rw [terminal_onTerminal] at hx
    split at hx
    · obtain ⟨y, hy, rfl⟩ := Option.map_eq_some_iff.mp hx
      rw [serviceOf_same (hlink y) (by rw [hservice]) (by rw [hservice]), hservice]
      exact h.services k y hy hk
    · exact h.services k x hx hk
  · obtain ⟨hG, hother⟩ := not_or.mp hg
    rw [coverOf_congr (t := onTerminal slot f s) h.slots hwf rfl fun k => ?_]
    · exact h.covers g r hr hG
    · rw [terminal_onTerminal]
      split
      · next heq =>
        subst heq
        cases hx : terminal s slot with
        | none => rfl
        | some x =>
          rw [Option.map_some, viewOf_other fun hg => hother ⟨x, hx, .inr hg⟩, viewOf_other fun hg => hother ⟨x, hx, .inl hg⟩]
      · rfl

theorem refind_settles (slot : Nat) (s : State) : Settles s (refind slot s) := by
  intro K hs
  unfold refind
  split
  · exact hs
  · next t ht =>
    dsimp only
    split
    · exact hs
    · have hfound := hs.regrouped slot (f := fun t' => { t' with segment := segmentNow s t.plans }) (fun _ => rfl) fun _ => rfl
      have hself := terminal_onTerminal_self (f := fun t' => { t' with segment := segmentNow s t.plans }) ht
      unfold deliverBoundary
      rw [hself]
      refine ((hfound.calm (.after (considerSleep_calm slot _) (.onQueue slot _ _))).cover _).mono (fun _ => id) fun g hg => ?_
      obtain ⟨hfalse | ⟨x, hx, hgroup⟩, hne⟩ := hg
      · exact hfalse
      · obtain rfl := Option.some.inj (ht.symm.trans hx)
        exact hne (hgroup.elim Eq.symm Eq.symm)

theorem refindAll_settles (s : State) : Settles s (refindAll s) := .forEach _ refind_settles s

theorem assignSlot_settles (plan : Nat) (pending : Bool) (switch : Option Nat) (s : State) (slot : Nat) :
    Settles s (assignSlot plan pending switch s slot) :=
  (refind_settles slot _).calm (.onTerminal slot _ s fun _ _ => by exact ⟨rfl, fun _ => rfl, rfl, rfl⟩)

theorem putHolidays_settles (days : List Nat) (s : State) : Settles s (putHolidays days s) :=
  (refindAll_settles _).calm (.after (holidaysDuringWalk_calm days _) (.onCalendar _ s rfl))

/-! ### The clock -/

/-- The tables stand in order whatever is stale, and deriving everything afresh leaves nothing stale. -/
theorem Frames.deriveAll {K G : Nat → Prop} {s t : State} (h : Frames s t) (hs : Held K G s) : Derived (deriveAll t) :=
  (Held.of_tables ((Table.wf_congr h.slots).trans hs.slots) (h.groups.trans hs.keys)).deriveAll

theorem setClock_settles (time : Nat) (offset : Int) (s : State) : Settles s (setClock time offset s) := by
  intro K hs
  have hframes : Frames s (refindAll (rollAfterSet (forEachSlot takeSwitch
      (s.onCalendar fun c => { c with zoneTime := time, offset := offset, clockSet := true })))) :=
    .after (refindAll_derives _).frames (.after (rollAfterSet_frames _) (.after (.forEach _ takeSwitch_frames _) (.onCalendar _ s)))
  exact (Settles.after (deliverIfDue_settles _) (Calm.after (minuteRoll_calm _) (timeForAll_calm _)).settles) K
    ((hframes.deriveAll hs).stale K)

theorem wrapZoneTime_settles (s : State) : Settles s (wrapZoneTime s) := by
  have hderived (u : State) (hu : Frames s u) : Settles s (deriveAll u) := fun K hs => (hu.deriveAll hs).stale K
  have hdelivered (u : State) : Settles u (if u.calendar.deadline.isSome then deliverDeadline u else u) := by
    split
    · exact deliverDeadline_settles u
    · exact .refl u
  unfold wrapZoneTime
  dsimp only
  exact (Calm.onSales _ _).then (.after (hdelivered _)
    (hderived _ (.after (refindAll_derives _).frames (.after (.refresh _) (.onCalendar _ s)))))

theorem endSecond_settles (s : State) : Settles s (endSecond s) := by
  have hcounted : Calm s ((s.onTerminals (Table.mapAll countSilence)).onCalendar fun c => { c with uptime := c.uptime + 1 }) :=
    .after (.onCalendar _ _ rfl) (.mapAll countSilence s countSilence_alike)
  unfold endSecond advanceZoneTime
  split
  · exact (wrapZoneTime_settles _).calm hcounted
  · exact (Calm.after (.onCalendar _ _ rfl) hcounted).settles

end Sys2Proof.Machine
end

section
/-!
PROOFS. Service states and covers stay the derived ones (R118, R125, R126, R129, R130), and what is derived.
-/

namespace Sys2Proof.Machine

open Sys2Proof

/-! ### The terminal table -/

/-- A slot is put in the table or taken from it: what it holds is derived, and at most one group sees a difference. -/
theorem Stale.replaced {K : Nat → Prop} {s t : State} (h : Stale K s) (slot g : Nat) (hwf : Table.wf t.terminals = true)
    (hgroups : t.groups = s.groups) (hclock : t.calendar.clockSet = s.calendar.clockSet) (hhalted : salesHalted t = salesHalted s)
    (hothers : ∀ k, k ≠ slot → terminal t k = terminal s k)
    (hslot : ∀ x, terminal t slot = some x → x.watch.service = serviceOf s x)
    (hview : ∀ j, j ≠ g → viewOf j (terminal t slot) = viewOf j (terminal s slot)) : Held K (fun j => j = g) t := by
  refine ⟨hwf, by rw [hgroups]; exact h.keys, fun k x hx hk => ?_, fun j r hr hj => ?_⟩
  · rw [serviceOf_congr hhalted hclock]
    by_cases hkslot : k = slot
    · subst hkslot
      exact hslot x hx
    · exact h.services k x ((hothers k hkslot).symm.trans hx) hk
  · rw [hgroups] at hr
    rw [coverOf_congr h.slots hwf hclock fun k => ?_]
    · exact h.covers j r hr id
    · by_cases hkslot : k = slot
      · subst hkslot
        exact hview j hj
      · rw [hothers k hkslot]

theorem Held.covered {K : Nat → Prop} {g : Nat} {s : State} (h : Held K (fun j => j = g) s) : Stale K (Machine.cover g s) :=
  (h.cover g).mono (fun _ => id) fun _ hj => hj.2 hj.1

theorem configureSlot_settles {slot : Nat} (c : TerminalConfig) {s : State} (hnone : terminal s slot = none) :
    Settles s (configureSlot slot c s) := by
  intro K hs
  have hself : terminal (s.onTerminals (Table.put slot (newTerminal c s.calendar.zoneTime s.calendar.uptime))) slot
      = some (newTerminal c s.calendar.zoneTime s.calendar.uptime) := Table.find?_put_self _ _ _
  refine Held.covered (Stale.replaced (t := s.onTerminals (Table.put slot _)) hs slot c.group (Table.wf_put _ _ _ hs.slots) rfl rfl rfl
    (fun k hk => Table.find?_put_ne hk.symm _ _) (fun x hx => ?_) fun j hj => ?_)
  · obtain rfl := Option.some.inj (hself.symm.trans hx)
    rfl
  · rw [hself, hnone, viewOf_other fun h => hj h.symm]
    rfl

theorem removeSlot_settles {slot : Nat} {x : Terminal} {s : State} (hx : terminal s slot = some x) :
    Settles s (removeSlot slot x s) := by
  intro K hs
  have hself : terminal (s.onTerminals (Table.erase slot)) slot = none := Table.find?_erase_self _ _
  refine Held.covered (Stale.replaced (t := s.onTerminals (Table.erase slot)) hs slot x.config.group
    (Table.wf_erase _ _ hs.slots) rfl rfl rfl
    (fun k hk => Table.find?_erase_ne hk.symm _) (fun y hy => ?_) fun j hj => ?_)
  · rw [hself] at hy
    cases hy
  · rw [hself, hx, viewOf_other fun h => hj h.symm]
    rfl

theorem Held.newIdentity {K G : Nat → Prop} {s : State} (h : Held K G s) (slot : Nat) : Held K G (newIdentity slot s) :=
  Held.deriveService (h.touched slot (fun x => { x with link := { x.link with state := .absent, level := none, caps := none } })
    (fun _ => rfl) (fun _ => rfl) fun _ => rfl)

theorem updateSlot_settles {slot : Nat} (c : TerminalConfig) {t : Terminal} {s : State} (ht : terminal s slot = some t) :
    Settles s (updateSlot slot c t s) := by
  intro K hs
  have hnamed {G : Nat → Prop} {u : State} (hu : Held K G u) :
      Held K G (if c.identity = t.config.identity then u else Machine.newIdentity slot u) := by
    split
    · exact hu
    · exact hu.newIdentity slot
  have hboxed (u : State) : Settles u (if c.capacity = t.config.capacity then u else evaluateBox slot u) := by
    split
    · exact .refl u
    · exact evaluateBox_settles slot u
  unfold updateSlot
  dsimp only
  refine hboxed _ K ?_
  split
  · next hgroup =>
    refine hnamed (hs.calm (.onTerminal slot (fun x => { x with config := c }) s fun x hx => ⟨rfl, fun _ => rfl, rfl, ?_⟩))
    obtain rfl := Option.some.inj (ht.symm.trans hx)
    exact hgroup
  · have hchanged := hnamed (hs.regrouped slot (f := fun x => { x with config := c }) (fun _ => rfl) fun _ => rfl)
    refine ((hchanged.cover t.config.group).cover c.group).mono (fun _ => id) fun g hg => ?_
    obtain ⟨⟨hfalse | ⟨x, hx, hgroup⟩, hold⟩, hnew⟩ := hg
    · exact hfalse
    · obtain rfl := Option.some.inj (ht.symm.trans hx)
      exact hgroup.elim (fun h => hold h.symm) fun h => hnew h.symm

/-! ### Starts -/

theorem startPorts_calm (s : State) : Calm s (startPorts s) := .onLine _ s

/-- A warm start derives everything afresh in its fourth step. -/
theorem warmStart_derived (straps : Straps) (keep : Bool) {K G : Nat → Prop} {s : State} (h : Held K G s) :
    Derived (warmStart straps keep s) := by
  have hframes : Frames s (forEachSlot startConditions (catchUp (startAttention keep (startValues straps s)))) :=
    .after (Derives.forEach _ startConditions_derives _).framesN
      (.after (catchUp_frames _) (.after (.onAttention _ _) (startValues_frames straps s)))
  exact (hframes.deriveAll h).calm (startPorts_calm _)

theorem coldStart_derived (straps : Straps) (keep : Bool) (s : State) : Derived (coldStart straps keep s) := by
  have hcold : ∀ e ∈ coldGroups, e.2.cover = .freeTime := by decide
  exact ⟨rfl, show Table.keys coldGroups = groupNumbers by decide, fun k x hx => (by cases hx),
    fun g r hr _ => hcold _ (Table.mem_of_find? hr)⟩

theorem startBy_derived (straps : Straps) (keep : Bool) {K G : Nat → Prop} {s : State} (h : Held K G s) :
    Derived (startBy straps keep s) := by
  unfold startBy
  split
  · exact coldStart_derived straps keep s
  · exact warmStart_derived straps keep h

/-! ### Every act -/

/-- Every act but a power failure leaves nothing stale. -/
theorem Act.settles {s t : State} (hs : RoundAccounted s) (h : Act s t) (hrunning : t.supply.part = .running) : Settles s t := by
  have hjabbered (slot : Nat) (kind : CallKind) (u : State) : Settles u (setLine (.quiet slot kind) [] (barSlot slot (clearOut u))) :=
    (setLine_calm _ _ _).then ((barSlot_settles slot _).calm (clearOut_calm u))
  cases h with
  | idle => exact .refl s
  | clockSet time offset => exact setClock_settles time offset s
  | holidaysPut days => exact putHolidays_settles days s
  | planPut plan p _ => exact (Calm.onPlans _ s).settles
  | planCleared plan _ => exact (Calm.onPlans _ s).settles
  | planAssigned plan switch slots _ => exact .foldl _ (assignSlot_settles _ _ _) slots s
  | salesSet f => exact (Calm.onSales f s).settles
  | permitPut number p => exact (Calm.onPermits _ s).settles
  | permitRevoked number => exact (Calm.onPermits _ s).settles
  | slotConfigured slot c _ hnone => exact configureSlot_settles c hnone
  | slotUpdated slot c x _ hx => exact updateSlot_settles c hx
  | slotRemoved slot x hx _ => exact removeSlot_settles hx
  | cashSet d tolerance => exact (Calm.onCash _ s).settles
  | counted c counts _ => exact reconcile_settles c counts s
  | roundOpened collector key _ _ => exact openRound_settles collector key _ s
  | roundClosed r _ => exact closeRound_settles r s
  | faultAcked slot k st => exact .watch (by intro; rfl) (.refl _)
  | recordsAcked n => exact removeRecords_settles n s
  | attentionSet f => exact (Calm.onAttention f s).settles
  | rosterPut identity e => exact (Calm.onRoster _ s).settles
  | rosterErased identity => exact (Calm.onRoster _ s).settles
  | resetQueued slot x _ _ => exact (Calm.onQueue slot _ s).settles
  | barEnded slot x _ _ => exact endBar_settles slot s
  | slotLeft slot x _ _ _ => exact leaveTo_settles slot .absent s
  | restarted straps keep => exact fun K h => (startBy_derived straps keep h).stale K
  | officeRestarted => exact fun K h => (warmStart_derived _ _ h).stale K
  | cycleStarted number _ => exact (startCycle_sends number s).calm.settles
  | answered slot kind calledAs rode head request _ =>
    exact (windowOver_sends slot kind _).calm.then (windowAnswer_settles slot calledAs rode head request hs)
  | missed slot kind calledAs rode _ => exact (windowOver_sends slot kind _).calm.then (missSlot_settles slot calledAs s)
  | jabbered slot kind calledAs rode _ => exact hjabbered slot kind s
  | jabberedLate slot kind _ => exact (hjabbered slot kind _).calm (takeBack_calm s)
  | fellQuiet slot kind _ => exact (afterWindow_sends slot kind s).calm.settles
  | offered identity form => exact (takeOffer_calm identity form s).settles
  | replyEnded number taken offered earned _ => exact endReplyWindow_settles number offered earned s
  | linkLost slot =>
    exact (conditionRises_settles slot .linkLost _).calm (.onTerminal slot _ s fun _ _ => by exact ⟨rfl, fun _ => rfl, rfl, rfl⟩)
  | walkCompleted w _ => exact (completeWalk_calm w s).settles
  | quoteExpired slot q _ => exact (expireQuote_calm slot q s).settles
  | silent slot => exact conditionRises_settles slot .silent s
  | secondEnded => exact endSecond_settles s
  | dayRolled => exact (dayRoll_calm s).settles
  | refound slot => exact refind_settles slot s
  | switched slot => exact (refind_settles slot _).calm (takeSwitch_calm slot s)
  | deadlineMet => exact deliverDeadline_settles s
  | powerFailed cellBelow duringStart => cases hrunning

/-! ### The law -/

theorem StatesDerived.derived {s : State} (h : StatesDerived s) (hs : TablesOrdered s) (hrunning : s.supply.part = .running) :
    Derived s := by
  obtain ⟨hwf, -, -, -, hgroups⟩ := hs
  obtain ⟨hservices, hcovers⟩ := h hrunning
  exact ⟨hwf, hgroups, fun k x hx _ => hservices _ (Table.mem_of_find? hx), fun g r hr _ => hcovers _ (Table.mem_of_find? hr)⟩

theorem Held.law {s : State} (h : Derived s) : StatesDerived s := fun _ =>
  ⟨fun e he => h.services e.1 e.2 (Table.find?_of_mem h.slots he) id,
    fun e he => h.covers e.1 e.2 (Table.find?_of_mem (groups_wf h.keys) he) id⟩

theorem StatesDerived.aside {s t : State} (h : Aside s t) (hs : StatesDerived s) : StatesDerived t := by
  obtain ⟨o, v, l, rfl⟩ := h
  exact hs

theorem RoundAccounted.aside {s t : State} (h : Aside s t) (hs : RoundAccounted s) : RoundAccounted t := by
  obtain ⟨o, v, l, rfl⟩ := h
  exact hs

theorem endSecondInBackup_part (s : State) : (endSecondInBackup s).supply = s.supply := by
  unfold endSecondInBackup wrapInBackup
  split <;> rfl

/-- Tables in order and the accounts of the round hold before every step. -/
theorem step_statesDerived {s t : State} (htables : TablesOrdered s) (hround : RoundAccounted s) (hstates : StatesDerived s)
    (hstep : step s = .next t) : StatesDerived t := by
  unfold step at hstep
  split at hstep
  · cases hstep
    exact hstates
  · next c rest _ =>
    cases exec_does hstep with
    | aside h => exact .aside h hstates
    | act u v hrunning hu hv ht =>
      have hpart : u.supply.part = .running := by
        obtain ⟨o, w, l, rfl⟩ := hu
        exact hrunning
      have hderived : Derived u := (hstates.aside (s := s.setPending rest) hu).derived
        (TablesOrdered.of_frames (s := s.setPending rest) htables hu.frames) hpart
      refine .aside ht fun hv' => ?_
      exact (Held.law (hv.settles (hround.aside (s := s.setPending rest) hu) hv' _ hderived)) hv'
    | second hbackup h =>
      subst h
      rintro hrunning
      rw [endSecondInBackup_part] at hrunning
      exact absurd hrunning hbackup
    | start straps keep _ h =>
      obtain ⟨hwf, -, -, -, hgroups⟩ := htables
      exact h ▸ (startBy_derived straps keep (Held.of_tables (s := s.setPending rest) hwf hgroups)).law

theorem statesDerived_kept : Kept fun s => TablesOrdered s ∧ RoundAccounted s ∧ StatesDerived s :=
  fun s t ⟨htables, hround, hstates⟩ hstep =>
    ⟨tablesStayOrdered s t htables hstep, roundStaysAccounted s t hround hstep, step_statesDerived htables hround hstates hstep⟩

end Sys2Proof.Machine
end

section
/-!
PROOFS. What is derived: the service state of a terminal (R118, R125) and the cover of a group (R129).
-/

namespace Sys2Proof.Machine

open Sys2Proof

/-! ### The service state -/

/-- What puts a terminal out of service whatever its tender methods (R118, R125). -/
abbrev Withheld (s : State) (x : Terminal) : Prop :=
  (x.link.state ≠ .active ∧ x.link.state ≠ .sleeping) ∨ x.watch.door ≠ .closed
    ∨ InForce x.watch.faults.linkLost ∨ InForce x.watch.faults.jabber ∨ InForce x.watch.faults.powerCritical
    ∨ InForce x.watch.faults.paperOut ∨ x.watch.faults.doorForced.state ≠ .clear ∨ freeSpace s ≤ 32
    ∨ s.calendar.clockSet = false

theorem salesHalted_iff (s : State) : salesHalted s = true ↔ freeSpace s ≤ 32 := decide_eq_true_iff

theorem serviceOf_eq (s : State) (x : Terminal) : serviceOf s x = if Withheld s x then .outOfService else tenderState x := by
  rw [serviceOf]
  refine if_congr ?_ rfl rfl
  simp only [Bool.or_eq_true, Bool.not_eq_true', ← Bool.not_eq_true, enrolled_iff, salesHalted_iff, impacts, FaultTable.present,
    FaultTable.get, present_eq_inForce, decide_eq_true_eq, Withheld, not_or, or_assoc, ne_eq]

theorem hasCash_iff (x : Terminal) : hasCash x = true ↔ ∃ c ∈ x.link.caps, c.coins = true := by
  unfold hasCash
  cases x.link.caps <;> simp

theorem hasCard_iff (x : Terminal) :
    hasCard x = true ↔ (∃ c ∈ x.link.caps, c.card = true) ∧ (x.link.level = some 2 ∨ x.link.level = some 3) := by
  unfold hasCard
  cases x.link.caps <;> simp

theorem cashUsable_iff (x : Terminal) : cashUsable x = true
    ↔ ¬((¬∃ c ∈ x.link.caps, c.coins = true) ∨ InForce x.watch.faults.coinJam ∨ InForce x.watch.faults.boxFull) := by
  rw [cashUsable_eq, decide_eq_true_eq]
  simp only [CashUsable, not_or, not_not]

theorem cardUsable_iff (x : Terminal) : cardUsable x = true
    ↔ ¬((¬((∃ c ∈ x.link.caps, c.card = true) ∧ (x.link.level = some 2 ∨ x.link.level = some 3)))
      ∨ InForce x.watch.faults.cardFault) := by
  rw [cardUsable_eq, decide_eq_true_eq]
  simp only [CardUsable, not_or, not_not, and_assoc]

/-- The table of the tender methods of R125. -/
theorem tenderState_table (x : Terminal) :
    (cashUsable x = false → cardUsable x = false → tenderState x = .outOfService)
      ∧ (hasCash x = true ∨ hasCard x = true → (hasCash x = true → cashUsable x = true) →
        (hasCard x = true → cardUsable x = true) → tenderState x = .inService)
      ∧ (hasCard x = true → cashUsable x = true → cardUsable x = false → tenderState x = .cashOnly)
      ∧ (hasCash x = true → cashUsable x = false → cardUsable x = true → tenderState x = .cardOnly) := by
  unfold tenderState cashUsable cardUsable
  generalize hasCash x = cash
  generalize hasCard x = card
  generalize (impacts x.watch.faults).cash = cashImpact
  generalize (impacts x.watch.faults).card = cardImpact
  revert cash card cashImpact cardImpact
  decide

/-! ### The cover -/

theorem mem_members {g : Nat} {s : State} {e : Nat × Terminal} : e ∈ members g s ↔ e ∈ s.terminals ∧ e.2.config.group = g := by
  simp [members]

theorem charged_iff (x : Terminal) :
    decide (x.segment.map (·.kind) = some .charged) = true ↔ ∃ here ∈ x.segment, here.kind = .charged := by
  cases x.segment <;> simp

/-- The cases of R129, by the members of the group. -/
theorem coverOf_cases (g : Nat) (s : State) :
    (members g s = [] → coverOf g s = .freeTime)
      ∧ (members g s ≠ [] → s.calendar.clockSet = false → coverOf g s = .uncovered)
      ∧ (s.calendar.clockSet = true → ((members g s).any fun e => e.2.segment.map (·.kind) = some .charged) = false →
        coverOf g s = .freeTime)
      ∧ (members g s ≠ [] → s.calendar.clockSet = true →
        ((members g s).any fun e => e.2.segment.map (·.kind) = some .charged) = true →
        coverOf g s = if (members g s).any fun e => e.2.watch.service ≠ .outOfService then .covered else .uncovered) := by
  unfold coverOf
  dsimp only
  refine ⟨fun h => ?_, fun h hclock => ?_, fun hclock hcharged => ?_, fun h hclock hcharged => ?_⟩
  · rw [h]
    rfl
  · rw [if_neg (by simpa using h), hclock]
    rfl
  · rw [hclock, hcharged]
    split <;> rfl
  · rw [if_neg (by simpa using h), hclock, hcharged]
    rfl

/-- R118, R125: the service state in the words of the rules. -/
theorem serviceOf_words (s : State) (x : Terminal) :
    (Withheld s x ∨ (cashUsable x = false ∧ cardUsable x = false) → serviceOf s x = .outOfService)
      ∧ (¬Withheld s x → hasCash x = true ∨ hasCard x = true → (hasCash x = true → cashUsable x = true) →
        (hasCard x = true → cardUsable x = true) → serviceOf s x = .inService)
      ∧ (¬Withheld s x → hasCard x = true → cashUsable x = true → cardUsable x = false → serviceOf s x = .cashOnly)
      ∧ (¬Withheld s x → hasCash x = true → cashUsable x = false → cardUsable x = true → serviceOf s x = .cardOnly) := by
  obtain ⟨hout, hin, hcash, hcard⟩ := tenderState_table x
  rw [serviceOf_eq]
  refine ⟨?_, fun h => by rw [if_neg h]; exact hin, fun h => by rw [if_neg h]; exact hcash, fun h => by rw [if_neg h]; exact hcard⟩
  rintro (h | ⟨hnoCash, hnoCard⟩)
  · exact if_pos h
  · split
    · rfl
    · exact hout hnoCash hnoCard

/-- Settles O12: every command but a power failure leaves at most stale what it derives afresh in the same step, and what is derived is
R125's table and R129's cases. -/
theorem statesStayDerived : Obligations.StatesStayDerived := by
  refine ⟨statesDerived_kept, fun s x => ?_, fun s g => ?_⟩
  · obtain ⟨hout, hin, hcash, hcard⟩ := serviceOf_words s x
    simp only [← Bool.not_eq_true, cashUsable_iff, cardUsable_iff, hasCash_iff, hasCard_iff, not_not] at hout hin hcash hcard
    exact ⟨hout, hin, hcash, hcard⟩
  · obtain ⟨hempty, hunset, hfree, hserved⟩ := coverOf_cases g s
    have hsome {e : Nat × Terminal} (he : e ∈ s.terminals ∧ e.2.config.group = g) : members g s ≠ [] :=
      List.ne_nil_of_mem (mem_members.mpr he)
    have hcharged (e : Nat × Terminal)
        (he : (e ∈ s.terminals ∧ e.2.config.group = g) ∧ ∃ here ∈ e.2.segment, here.kind = .charged) :
        ((members g s).any fun e => e.2.segment.map (·.kind) = some .charged) = true :=
      List.any_eq_true.mpr ⟨e, mem_members.mpr he.1, (charged_iff e.2).mpr he.2⟩
    refine ⟨fun h => hempty ?_, ?_, fun hclock h => hfree hclock ?_, ?_, ?_⟩
    · exact List.eq_nil_iff_forall_not_mem.mpr fun e he => h e (mem_members.mp he)
    · rintro ⟨e, he⟩ hclock
      exact hunset (hsome he) hclock
    · exact List.any_eq_false.mpr fun e he => fun hc => h e (mem_members.mp he) ((charged_iff e.2).mp hc)
    · rintro hclock ⟨e, he⟩ ⟨e', he', hserving⟩
      rw [hserved (hsome he.1) hclock (hcharged e he)]
      exact if_pos (List.any_eq_true.mpr ⟨e', mem_members.mpr he', decide_eq_true hserving⟩)
    · rintro hclock ⟨e, he⟩ hnone
      rw [hserved (hsome he.1) hclock (hcharged e he)]
      refine if_neg fun hany => ?_
      obtain ⟨e', he', hserving⟩ := List.any_eq_true.mp hany
      exact of_decide_eq_true hserving (hnone e' (mem_members.mp he'))

end Sys2Proof.Machine
end
